-- ==== Sys2Proof/Word.lean ====
section
/-! DEFINITION. The word types of the gateway and the sparse table every indexed store of the model is held in. -/

namespace Sys2Proof

/-- One byte. -/
abbrev Byte := BitVec 8

/-- One register word (R396). -/
abbrev Word := BitVec 32

/-- One stitch, one counter or one 64-bit pair (R398). -/
abbrev Dword := BitVec 64

/-- A sparse table: pairs of a key and a value, keys strictly rising, no value equal to the
table's default.  `Machine/Tab.lean` holds its operations. -/
abbrev Tab (α : Type) := List (Nat × α)

/-- `2 ^ n`, the plainest arithmetic of the number formats (R17). -/
abbrev pow2 (n : Nat) : Nat := 2 ^ n

end Sys2Proof
end

