-- ==== Sys2Proof/Syntax.lean ====
section
/-! DEFINITION. The commands the gateway takes from its surroundings, with their operands. -/

namespace Sys2Proof

/-- Who makes a register access (R397, R398): the physical function, a virtual function, the control complex. -/
inductive Requester where
  | pf
  | vf (n : Nat)
  | ctl
  deriving DecidableEq, Repr

/-- The level a strap sample reads (R413). -/
inductive StrapLevel where
  | low | band | high
  deriving DecidableEq, Repr


/-- The dataset an Announce carries, in the order the IEEE 1588 comparison reads it (R387, R388). -/
structure PtpData where
  prio1 : Nat
  clockClass : Nat
  accuracy : Nat
  variance : Nat
  prio2 : Nat
  gm : Nat
  steps : Nat
  sender : Nat
  deriving DecidableEq, Repr

/-- A Sync, as it arrives: port, domain, sender, sequence, one-step or two-step, originTimestamp and correctionField in
2^-16 ns, and how long after the last 1 µs tick its timestamp point passed, in 2^-16 ns (R386, R387, R389). -/
structure PtpSyncMsg where
  port : Nat
  domain : Nat
  sender : Nat
  seq : Nat
  twoStep : Bool
  origin : Nat
  corr : Int
  phase : Nat
  deriving DecidableEq, Repr


/-- The 64 B header of a Selvedge segment (R284).  `resvOk` says that VER is 0x1 and every reserved field is zero. -/
structure SegHdr where
  typ : Nat
  kind : Nat
  rtx : Bool
  dst : Nat
  src : Nat
  gen : BitVec 16
  seq : Word
  txc : Nat
  cumAck : Word
  rwndEnd : Word
  plen : Nat
  part : Nat
  npart : Nat
  fmt : Nat
  coll : Word
  epoch : Nat
  firstChunk : Nat
  present : BitVec 16
  cflags : List Byte
  resvOk : Bool
  deriving DecidableEq, Repr

/-- A segment as it arrives from the line (R283, R291): the 64 bytes of its header, payload, line cells, and the key and salt its tag was
made under; `tagOk` is clear when bits were changed on the way, so that it verifies under no key (log 13). -/
structure RxSegment where
  head : List Byte
  payload : List Byte
  cells : Nat
  key : BitVec 256
  salt : Word
  tagOk : Bool
  deriving DecidableEq, Repr

/-- A 64 B session record of the twin copy (R304). -/
structure TwinRec where
  sess : Nat
  gen : BitVec 16
  cfg : Word
  peer : Word
  rtt : Word
  win : Word
  stall : Word
  keySel : Byte
  txcResv : Nat
  keyUse : Nat
  deriving DecidableEq, Repr

/-- An Ethernet frame as it arrives on a fabric port (R215-R227): the port, whether its addresses are the gateway's own,
whether its FCS and FEC are good, FEC codewords corrected and uncorrectable, and its bytes with the FCS. -/
structure RxFrame where
  port : Nat
  toGateway : Bool
  fcsOk : Bool
  fecCorr : Nat
  fecUncorr : Nat
  data : List Byte
  deriving DecidableEq, Repr

/-- A line cell as the receiver sees its 64 bytes (R317, R318): idle, the start of a header that passes check 1 of R291 with
the cells of its segment, or anything else. -/
inductive LineCell where
  | idle
  | head (cells : Nat)
  | other
  deriving DecidableEq, Repr

/-- A received slot (R316): its descriptor, and the cells that end in it with whether bytes of each were lost (R333). -/
structure SlotIn where
  desc : Word
  cells : List (LineCell × Bool)
  deriving DecidableEq, Repr

/-- The overhead of a Selvedge frame (R315), and its slot descriptors (R316).  Times are in 2^-16 ns. -/
structure LineOh where
  mfas : Nat
  fver : Nat
  mode : Nat
  gid : Nat
  mfc : Nat
  mid : Nat
  mstate : Nat
  txActive : BitVec 64
  activeNext : BitVec 64
  rdi : BitVec 64
  rxOk : BitVec 64
  ctlch : Bool
  side : Bool
  cmTxGen : Nat
  cmNextGen : Nat
  cmRxRdy : Nat
  txTime : Nat
  rxTime : Nat
  echoMfc : Nat
  echoMfas : Nat
  tti : List Word
  slots : List Word
  deriving DecidableEq, Repr

/-- A Selvedge frame as the line FEC gives it (R314, R328, R333): corrected bits and uncorrectable blocks, how long after the last 1 µs tick it came
(2^-16 ns), the 1,536 bytes of its overhead, and for each slot the cells that end in it with whether bytes of each were lost. -/
structure RxLineFrame where
  fecCorr : Nat
  fecUncorr : Nat
  phase : Nat
  head : List Byte
  slots : List (List (LineCell × Bool))
  deriving DecidableEq, Repr

/-- What a line die measures of one channel in a tuning period (R348, R349): launch and received power in 0.1 dBm, errors of the
three rings in MHz. -/
structure OptMeas where
  tx : Int
  rx : Int
  txErr : Int
  demErr : Int
  pilErr : Int
  deriving DecidableEq, Repr

/-- A hardware upset that an engine's detectors find while a stitch runs (R73-R76): a residue that does not match, a scratchpad word with a
double-bit error, one with a single-bit error. -/
inductive Upset where
  | residue
  | doubleBit
  | singleBit
  deriving DecidableEq, Repr

/-- An engine or a stage slot by its number, and what the engine's detectors find while it is used (R73-R76). -/
structure Watched where
  num : Nat
  upset : Option Upset
  deriving DecidableEq, Repr


/-- A frame taken as SCP (R119, R128): its port, source IP address and UDP port, UDP destination port, headers up to and with the SCP header, where the
SCP header begins, whether frame, IP and UDP lengths agree, the UDP length, whether its UDP checksum is zero or right, and the frame. -/
structure Datagram where
  port : Nat
  srcIp : Nat
  srcPort : Nat
  dstPort : Nat
  hdrs : Nat
  off : Nat
  lenOk : Bool
  udpLen : Nat
  udpCkOk : Bool
  frame : List Byte
  deriving DecidableEq, Repr

/-- The NAKs of R155. -/
inductive NakKind where
  | psnSequence | rnr | remoteAccess | remoteOperational
  deriving DecidableEq, Repr

/-- What the stacks' code finds in a 32 B block that is read (R267, R276, R277). -/
inductive Ecc where
  | clean | corrected | uncorrectable
  deriving DecidableEq, Repr

/-- What self-test finds of a unit (R464, R465, R470): its number, 1 PASS, 2 REPAIRED or 3 FAIL, the spare rows and columns used, its
signature. -/
structure BistReport where
  unit : Nat
  result : BitVec 2
  spares : Byte
  sig : Dword
  deriving DecidableEq, Repr

/-- What the boot ROM finds of a Pattern slot beyond the bytes themselves (R421): the flash answers SFDP for it, the SHA-384 of the public key equals
the fused hash, ML-DSA-87 verification succeeds. -/
structure SlotCheck where
  sfdp : Bool
  keyHash : Bool
  signature : Bool
  deriving DecidableEq, Repr

/-- The commands of the gateway, one constructor for each row of the table of operations and events. -/
inductive Instr where
  /-- PORST_N_RELEASE: Release of PORST_N starts the start-up timeline: ROOTCLK locks and the time base free-runs from 0 s. (R425) -/
  | porstNRelease
  /-- PORST_N_ASSERT: Assertion of PORST_N resets the whole device and clears alarm latches, retention stores, EOL and safe state. (R478) -/
  | porstNAssert
  /-- PERST_N_ASSERT: PERST_N resets only the PCIe endpoint and its link; the rest of the gateway keeps running. (R480) -/
  | perstNAssert
  /-- STRAP_SAMPLE: Strap inputs are sampled at 1, 3 and 5 ms after PORST_N release and resolve after the third sample. (R413) -/
  | strapSample (levels : List StrapLevel)
  /-- LIFECYCLE_READ: At 5 ms the boot ROM reads the lifecycle state, which decides whether start-up runs fully, runs BIST and goes safe, or goes safe at once. (R414) -/
  | lifecycleRead (code : BitVec 4)
  /-- POST_DONE: The power-on self-test ends; a FAIL puts the device in safe state with SAFE_CAUSE 0x3, otherwise image reading begins. (R465) -/
  | postDone (units : List BistReport)
  /-- PATTERN_CHECK_DONE: The boot ROM finishes checking a Pattern slot, falls back to the other slot or enters safe state, and applies the APPLY 0x00 sections. (R421) -/
  | patternCheckDone (slow : Bool) (a b : SlotCheck)
  /-- HBM_TRAINING_DONE: HBM4 training completes, the APPLY 0x01 sections are applied, the line-die domains come on and fitting starts. (R425) -/
  | hbmTrainingDone (ok : Bool)
  /-- FABRIC_READY: SerDes training completes, the APPLY 0x02 sections enable ports and circuits, and BOOT_STAGE becomes FABRIC_READY. (R425) -/
  | fabricReady
  /-- LONGHAUL_READY: At the end of fitting the APPLY 0x03 sections are applied, sessions are admitted and BOOT_STAGE becomes LONGHAUL_READY. (R425) -/
  | longhaulReady
  /-- REGISTER_WRITE: A write to a register that has no row of its own takes effect as its access code defines, or raises a bus error. (R18) -/
  | registerWrite (req : Requester) (addr : Nat) (value : Word)
  /-- MALFORMED_ACCESS: An access other than one aligned 32-bit word raises a bus error: a completer abort on a read, a discard on a write, an access fault for a core. (R396) -/
  | malformedAccess (req : Requester) (addr : Nat) (write : Bool)
  /-- RWS_WRITE: A write to an RWS register is held as the whole register, replaces any earlier held value and sets BLOCK_STATUS.PENDING. (R399) -/
  | rwsWrite (req : Requester) (addr : Nat) (value : Word)
  /-- RWS_APPLY: A held RWS value is applied when the block reaches its next natural boundary, or at once if the unit is idle. (R399) -/
  | rwsApply (addr : Nat)
  /-- ALIAS_READ: A read at a shadow alias address returns the pending RWS value, or the value in effect when nothing is held. (R395) -/
  | aliasRead (req : Requester) (addr : Nat)
  /-- SQC_WRITE: A write to an SQC register clears the event bits set as of SEQ when its [31:24] equals the current SEQ, and nothing otherwise. (R18) -/
  | sqcWrite (req : Requester) (addr : Nat) (value : Word)
  /-- COUNTER_LOW_READ: A read of a counter's low word returns bits [31:0] and latches bits [63:32] for that requester. (R398) -/
  | counterLowRead (req : Requester) (addr : Nat)
  /-- COUNTER_HIGH_READ: A read of a counter's high word returns the requester's latch if its last low-word read was of this counter, else the current high bits. (R398) -/
  | counterHighRead (req : Requester) (addr : Nat)
  /-- TIME_NOW_READ: A read of TIME_NOW_FRAC returns the fraction and latches the nanoseconds and seconds registers. (R393) -/
  | timeNowRead (req : Requester) (addr : Nat)
  /-- IRQ_HOLDOFF_EXPIRY: At the end of a vector's hold-off, one MSI-X message is sent if its pending bit is set. (R409) -/
  | irqHoldoffExpiry (fn vec : Nat)
  /-- GLB_PANEL_CFG_WRITE: A write sets a panel's enable and its context and queue-pair quotas, or is refused with GLB_EVENT.QUOTA_REFUSED. (R402) -/
  | glbPanelCfgWrite (req : Requester) (panel : Nat) (value : Word)
  /-- PANEL_RESET: PNL_CTRL.RESET refuses the panel's new work, aborts its epochs, closes its sessions, empties its keys and renews its KEK. (R405) -/
  | panelReset (req : Requester) (panel : Nat)
  /-- PANEL_RESET_DONE: The panel reset completes within 5 ms: STATE becomes ACTIVE or DISABLED and RESET_DONE is set. (R405) -/
  | panelResetDone (panel : Nat)
  /-- SMBUS_BLOCK_READ: The board controller reads a GLB register over SMBus, giving the word offset divided by 4 as the command code. (R413) -/
  | smbusBlockRead (code : Nat)
  /-- SMBUS_SQC_CLEAR: The only SMBus write accepted is an SQC clear of GLB_EVENT. (R413) -/
  | smbusSqcClear (value : Word)
  /-- FLASH_ERASE: SEC_FLASH_CMD ERASE starts the erase of a 64 KiB sector, or is refused for a protected, misaligned or out-of-range address. (R423) -/
  | flashErase (req : Requester)
  /-- FLASH_PROGRAM: SEC_FLASH_CMD PROGRAM writes the staged 256 B page to flash, or is refused. (R423) -/
  | flashProgram (req : Requester)
  /-- FLASH_READ: SEC_FLASH_CMD READ returns one flash word in SEC_FLASH_RDATA. (R424) -/
  | flashRead (req : Requester)
  /-- FLASH_DONE: A flash command completes: BUSY clears and FLASH_DONE is set, with FLASH_ERR when ERR is not 0x00. (R424) -/
  | flashDone (fail : Bool)
  /-- RAISE_MINVER: SEC_CMD.RAISE_MINVER raises SEC_PAT_MINVER permanently in fuses, or is refused for a value out of range. (R423) -/
  | raiseMinver (req : Requester)
  /-- ALARM: A voltage, clock or temperature glitch, a mesh break, a debug unlock attempt or a lifecycle change erases every key and KEK and latches the alarm. (R375) -/
  | alarm (cause : Nat)
  /-- SEAM_STITCH_NOP: The NOP stitch does nothing. (R90) -/
  | stitchNop (eng slot : Nat)
  /-- END: The END stitch completes the invocation once its Remnant writes, Pleat requests and emitted streams have all been accepted. (R104) -/
  | stitchEnd (eng slot : Nat)
  /-- SETL: The SETL stitch sets a loop counter to START and TRIPS. (R100) -/
  | stitchSetl (eng slot : Nat)
  /-- LOAD: The LOAD stitch loads one vector from ACC, rounded to FMT_A, or raw from the scratch area. (R93) -/
  | stitchLoad (eng slot : Nat) (u : Option Upset)
  /-- STORE: The STORE stitch writes all 256 lanes of SRC_A raw to a vector of the scratch area. (R93) -/
  | stitchStore (eng slot : Nat) (u : Option Upset)
  /-- IOTA: The IOTA stitch writes element indices into the lanes, offset to the bucket when BUCKET is set. (R94) -/
  | stitchIota (eng slot : Nat)
  /-- UNPACK: The UNPACK stitch loads one vector of the current contribution raw. (R93) -/
  | stitchUnpack (eng : Nat) (slot : Watched)
  /-- PACK: The PACK stitch appends register lanes, or rounded ACC vectors, to the value or index part of the output stream. (R102) -/
  | stitchPack (eng slot : Nat) (u : Option Upset)
  /-- WIDEN: The WIDEN stitch widens SRC_A exactly to FP32 or INT32. (R38) -/
  | stitchWiden (eng : Nat) (slot : Watched)
  /-- NARROW: The NARROW stitch narrows site values with their residuals and updates the Remnant store when REM is set. (R65) -/
  | stitchNarrow (eng : Nat) (slot : Watched)
  /-- SUM: The SUM stitch adds the input into ACC, a register into ACC, or two registers, under the chunk's mode. (R46) -/
  | stitchSum (eng slot : Nat) (u : Option Upset)
  /-- SCALE: The SCALE stitch multiplies lanes by a scale, truncating the product toward zero. (R61) -/
  | stitchScale (eng slot : Nat) (u : Option Upset)
  /-- GATHER: The GATHER stitch gathers elements of IN, ACC or the scratch area at the indices held in SRC_B. (R99) -/
  | stitchGather (eng slot : Nat) (u : Option Upset)
  /-- SORT: The SORT stitch sorts keys together with their indices into a register pair. (R96) -/
  | stitchSort (eng slot : Nat)
  /-- TOPK: The TOPK stitch merges pairs into the running best K held in a register pair. (R97) -/
  | stitchTopk (eng slot : Nat)
  /-- FILTER: The FILTER stitch keeps and compacts the lanes whose keys pass the threshold. (R98) -/
  | stitchFilter (eng slot : Nat)
  /-- CHECK: The CHECK stitch waits for the input CRC, or checks that the indices of SRC_A are strictly ascending and in range. (R107) -/
  | stitchCheck (eng slot : Nat)
  /-- EMIT: The EMIT stitch sends the output stream UP, NEXT, SPAN or DOWN, split into datagrams, and starts a new empty stream. (R103) -/
  | stitchEmit (eng slot : Nat)
  /-- WAIT: The WAIT stitch stalls until the selected IN, REM, PLT and OUT conditions hold. (R106) -/
  | stitchWait (eng slot : Nat)
  /-- BRANCH: The BRANCH stitch loops backward on a counter, or falls through. (R100) -/
  | stitchBranch (eng slot : Nat)
  /-- STITCH_STALL_RELEASE: A stitch stalled on sources not yet ready, or on a WAIT condition, issues once the stall clears. (R81) -/
  | stitchStallRelease (eng : Nat) (slot : Watched)
  /-- ARRIVE_DISPATCH: A free stage slot dispatches a queued ARRIVE invocation, chosen by the panel-weighted rule. (R79) -/
  | arriveDispatch (eng slot panel : Nat)
  /-- DONE_DISPATCH: When a chunk's contributor count is reached, its DONE invocation is dispatched, subject to the Remnant ordering. (R79) -/
  | doneDispatch (eng slot panel : Nat)
  /-- ARRIVE_RESUME: A held ARRIVE invocation resumes once the whole CONTRIB message has arrived and passed its checks and CRC. (R105) -/
  | arriveResume (eng slot : Nat)
  /-- USED_TALLY_HALVING: At each whole microsecond the engine halves every panel's used tally. (R112) -/
  | usedTallyHalving (eng : Nat)
  /-- RING_TRANSFER_ARRIVE: A Seam ring transfer reaches the next-stage context and counts as one contribution. (R87) -/
  | ringTransferArrive (k : Nat)
  /-- REMNANT_ACCESS_DONE: A Remnant read or write paced by the share completes, releasing the NARROW or WAIT that waits for it. (R106) -/
  | remnantAccessDone
  /-- SP_DATA_WRITE: A write to SEAM_SP_DATA writes a scratch word, or is refused while bound or beyond the area, and advances SEAM_SP_ADDR. (R85) -/
  | spDataWrite (req : Requester) (eng : Watched) (value : Word)
  /-- SP_DATA_READ: A read of SEAM_SP_DATA returns the scratch word, or 0 beyond the area, and advances SEAM_SP_ADDR. (R114) -/
  | spDataRead (req : Requester) (eng : Watched)
  /-- COMMIT: SEAM_SLOT_CTRL.COMMIT starts the CRC and checker on the standby page, or is refused while busy. (R110) -/
  | slotCommit (req : Requester) (i : Nat)
  /-- CLEAR: SEAM_SLOT_CTRL.CLEAR zeroes the standby page, unless the slot is busy. (R109) -/
  | slotClear (req : Requester) (i : Nat)
  /-- SLOT_CHECK_DONE: The commit check ends: the page becomes active with GEN advanced, or ERR_CAUSE and ERR_INDEX are recorded. (R110) -/
  | slotCheckDone (i : Nat)
  /-- CTX_BIND_APPLY: A held SEAM_CTX_BIND write is applied once the context has no open chunk, or refused by firmware for a cycle or over-long chain. (R117) -/
  | ctxBindApply (k : Nat)
  /-- CONTRIB: An SCP CONTRIB datagram is parsed, checked and either accepted into its chunk or refused. (R129) -/
  | contrib (d : Datagram)
  /-- RESULT: A RESULT from the parent is checked, then held in reference-counted cells for delivery. (R130) -/
  | result (d : Datagram)
  /-- NACK: A child gateway receiving a NACK takes the action that its cause requires. (R132) -/
  | nackMsg (d : Datagram)
  /-- ABORT: A received ABORT aborts the epoch and every later open epoch and is passed on everywhere except back toward its sender. (R138) -/
  | abortMsg (d : Datagram)
  /-- CLOSE: A received CLOSE, or CLOSE tack, closes the epoch at a child gateway. (R137) -/
  | closeMsg (d : Datagram)
  /-- CREDIT: A TACK CREDIT raises the child's credit limit and releases UP output that it held. (R143) -/
  | creditMsg (d : Datagram)
  /-- BARRIER: A TACK BARRIER is counted once per rank, and the stage sends BARRIER up when all ranks have arrived. (R141) -/
  | barrierMsg (d : Datagram)
  /-- RELEASE: A TACK RELEASE travels down the tree and is sent to the endpoints. (R141) -/
  | releaseMsg (d : Datagram)
  /-- RESUME: A TACK RESUME lets a held collective reissue its aborted work. (R139) -/
  | resumeMsg (d : Datagram)
  /-- MISS_TIMER_EXPIRY: At each multiple of MISS_TO, NACK MISSING goes to missing ranks, and after MISS_LIMIT rounds the epoch aborts. (R145) -/
  | missTimerExpiry (bolt : Nat)
  /-- OPEN: CCO_CMD OPEN copies a collective descriptor and opens the collective, treating its Remnant region as R181 sets out. (R134) -/
  | openCommand (req : Requester) (view : Nat)
  /-- RETIRE: CCO_CMD RETIRE aborts open epochs, waits for bolts and writes to finish, then frees the collective's resources. (R162) -/
  | retireCommand (req : Requester) (view : Nat)
  /-- STANDIN: CCO_CMD STANDIN puts a spare in for a rank in later epochs and raises the rank map generation. (R150) -/
  | standinCommand (req : Requester) (view : Nat)
  /-- ABORT_COMMAND: CCO_CMD ABORT aborts an epoch of the collective with cause HOST. (R138) -/
  | abortCommand (req : Requester) (view : Nat)
  /-- QP_RESET: CCO_CMD QP_RESET returns a delivery queue pair from error with a new START_PSN. (R159) -/
  | qpReset (req : Requester) (view : Nat)
  /-- RESUME_COMMAND: CCO_CMD RESUME sends TACK RESUME for an epoch. (R161) -/
  | resumeCommand (req : Requester) (view : Nat)
  /-- CMD_DONE: A CCO command completes: its result is written, BUSY clears and CMD_DONE is set. (R162) -/
  | cmdDone (view : Nat)
  /-- RDMA_ACK: A RoCEv2 Acknowledge is processed, cell counts are decremented and the write with immediate is completed. (R155) -/
  | rdmaAck (qpn psn : Nat)
  /-- RDMA_NAK: A PSN sequence error, RNR, remote access error or remote operational error NAK leads to a retry or to the error state. (R155) -/
  | rdmaNak (qpn psn : Nat) (kind : NakKind)
  /-- RDMA_ACK_TIMEOUT: The local ACK timeout expires and the write is retried, or its retry count is exhausted. (R156) -/
  | rdmaAckTimeout (qpn : Nat)
  /-- RDMA_IGNORED_PACKET: Requests arriving on delivery queue pairs, CNPs and ECN marks are dropped or ignored and counted. (R155) -/
  | rdmaIgnoredPacket (port : Nat)
  /-- CLOSE_TACK_RECEIVE: A CLOSE tack from a peer site root is held, answered, or completes the set that lets the site commit. (R179) -/
  | closeTackReceive (panel : Nat) (coll : Word) (site epoch : Nat)
  /-- CLOSE_TACK_REPEAT: While an epoch is closing, the CLOSE tack is repeated every MISS_TO, or every 2 ms, to peers that have not answered. (R179) -/
  | closeTackRepeat (panel : Nat) (coll : Word) (epoch : Nat)
  /-- SPAN_WINDOW_OPEN: An armed span window opens at T0 + n × Tc, and queued span segments that fit may leave. (R184) -/
  | spanWindowOpen (win : Nat)
  /-- SPAN_WINDOW_CLOSE: A span window closes at T0 + n × Tc + Td, and LEFTOVER is set if segments remain queued. (R185) -/
  | spanWindowClose (win : Nat)
  /-- PLT_LOAD: PLT_CMD LOAD copies and checks a codebook, computes its norms and fingerprint and marks the slot VALID. (R202) -/
  | pltLoad (req : Requester) (slot : Nat)
  /-- PLT_CLEAR: PLT_CMD CLEAR empties a codebook slot whose REF count is zero. (R203) -/
  | pltClear (req : Requester) (slot : Nat)
  /-- PLT_CMD_DONE: A PLT command completes with its result, and CMD_DONE is set. (R212) -/
  | pltCmdDone
  /-- PLEAT_BLOCK_RETURN: An encoder array returns a block's codes and residuals, releasing the stitches that wait for it. (R209) -/
  | pleatBlockReturn (k : Nat)
  /-- PLEAT_DECODE_DONE: A decoder finishes a block, and the contribution is dispatched once every block has been decoded. (R206) -/
  | pleatDecodeDone (group dec : Nat)
  /-- FRAME_RECEIVE: A frame on a fabric port is classified, policed, charged, looked up and queued, or dropped. (R221) -/
  | frameReceive (f : RxFrame)
  /-- PFC_RECEIVE: A received PFC frame pauses or releases classes at the egress. (R231) -/
  | pfcReceive (port : Nat) (quanta : List (Option Nat))
  /-- FRAME_TRANSMIT: The egress scheduler starts the next eligible frame by strict priority and deficit round robin. (R234) -/
  | frameTransmit (port panel phase : Nat)
  /-- PFC_REFRESH: While occupancy stays at or above XON, the XOFF frame is refreshed every half quanta. (R228) -/
  | pfcRefresh (port cls : Nat)
  /-- FRAME_AGE_OUT: A head frame older than its class limit is discarded, and for TC1–TC3 and TC7 STUCK is raised. (R232) -/
  | frameAgeOut (inp cls dest : Nat)
  /-- LINK_UP: A port's link comes up with the FEC locked, and the port starts carrying frames. (R218) -/
  | linkUp (port : Nat)
  /-- LINK_DOWN: A port's link goes down and LINK_CHANGE is set. (R249) -/
  | linkDown (port : Nat)
  /-- FPORT_QD_MODE_WRITE: A write sets a quadrant's port mode and retrains its lanes, or is refused while ports or circuits use it. (R217) -/
  | fportQdModeWrite (req : Requester) (q : Nat) (value : Word)
  /-- FPORT_CTRL_WRITE: A write enables a port or sets its panel and class selection, with refusals for lane conflicts and panel changes. (R218) -/
  | fportCtrlWrite (req : Requester) (port : Nat) (value : Word)
  /-- SW_LIMIT_WRITE: A write to SW_LIMIT or SW_PFC is refused when it breaks the cell sums or the XON and XOFF limits. (R224) -/
  | swLimitWrite (req : Requester) (pfc : Bool) (port cls : Nat) (value : Word)
  /-- FDB_WRITE: SW_FDB_CMD WRITE installs a forwarding entry. (R221) -/
  | fdbWrite (req : Requester)
  /-- FDB_DELETE: SW_FDB_CMD DELETE removes a forwarding entry. (R221) -/
  | fdbDelete (req : Requester)
  /-- TM_POL_WRITE: Any write to a policer's registers refills its bucket. (R233) -/
  | tmPolWrite (req : Requester) (reg port cls : Nat) (value : Word)
  /-- TM_SHP_WRITE: A write to a shaper's registers sets its bucket full or empty at the queue's packet boundary. (R236) -/
  | tmShpWrite (req : Requester) (reg port cls : Nat) (value : Word)
  /-- GCL_COMMIT: TM_GCL_CMD COMMIT checks the standby gate list and accepts it or records ERR. (R238) -/
  | gclCommit (req : Requester) (port : Nat)
  /-- GCL_STOP: TM_GCL_CMD STOP ends the running gate list at its next cycle start. (R253) -/
  | gclStop (req : Requester) (port : Nat)
  /-- GCL_SWAP: An accepted gate list replaces the running one at the next cycle start. (R238) -/
  | gclSwap (port : Nat)
  /-- GCL_ENTRY_EXPIRY: An entry's interval ends and the gate state of the next entry takes effect. (R237) -/
  | gclEntryExpiry (port : Nat)
  /-- BAST_CIRC_CFG_WRITE: A write enables, disables or changes a circuit, starting a 1 µs relock, or is refused under R243. (R244) -/
  | bastCircCfgWrite (req : Requester) (circ : Nat) (value : Word)
  /-- RELOCK_DONE: A circuit's relock completes; STATE reads UP and RELOCK_DONE is set. (R244) -/
  | relockDone (circ : Nat)
  /-- LOSS_OF_LOCK: A PASS circuit whose source loses lock squelches its output and enters LOSS_OF_LOCK. (R244) -/
  | lossOfLock (circ : Nat)
  /-- LOCK_RETURN: A circuit returns to UP by itself when its source's lock returns. (R244) -/
  | lockReturn (circ : Nat)
  /-- BAST_RX_CFG_WRITE: A write configures a tack receiver, or is refused for a lane conflict. (R243) -/
  | bastRxCfgWrite (req : Requester) (rx : Nat) (value : Word)
  /-- TACK_WORD_RECEIVE: A tack word with a good CRC is checked and acted on once per SRC and SEQ. (R246) -/
  | tackWordReceive (rx : Nat) (word : BitVec 256)
  /-- TACK_RX_ALIGN: A receiver locks to word alignment after 4 consecutive words with a correct SYNC. (R246) -/
  | tackRxAlign (rx : Nat)
  /-- TACK_RX_ALIGN_LOSS: A receiver loses alignment after 4 consecutive words without a correct SYNC. (R246) -/
  | tackRxAlignLoss (rx : Nat)
  /-- BOBBIN_GRANT: A unit waiting for a bobbin receives one when it frees. (R262) -/
  | bobbinGrant
  /-- RING_REFILL_DONE: A read of 128 handles from a free-store ring into the cache completes. (R261) -/
  | ringRefillDone (spool : Nat) (lost : List Nat)
  /-- MEM_PANEL_QUOTA_WRITE: A write sets a panel's HBM quota, or is refused with QUOTA_REFUSED. (R270) -/
  | memPanelQuotaWrite (req : Requester) (panel : Nat) (value : Word)
  /-- APERTURE_READ: A read through the HBM aperture returns a device word, or raises a bus error with APT_FAULT. (R271) -/
  | apertureRead (req : Requester) (addr : Nat)
  /-- APERTURE_WRITE: A write through the HBM aperture stores a device word, or raises a bus error with APT_FAULT. (R271) -/
  | apertureWrite (req : Requester) (addr : Nat) (value : Word)
  /-- SCRUB_READ: Patrol scrub reads the next 64 B and writes back corrected words unless a foreground write intervenes. (R276) -/
  | scrubRead (first second : Ecc)
  /-- SCRUB_PERIOD_EXPIRY: The scrub period ends with the pass unfinished: SCRUB_BEHIND is set and scrub runs at level 3. (R276) -/
  | scrubPeriodExpiry
  /-- SEGMENT_TRANSMIT: A session transmits a segment under a new TXC, with a SEQ assigned on first transmission, within window, credit and span window. (R290) -/
  | segmentTransmit (sess : Nat)
  /-- DATA: A received DATA segment is checked, verified, held or delivered in order, and acknowledged. (R291) -/
  | dataSegment (seg : RxSegment)
  /-- SPAN_CHUNK_DELIVER: An in-order SPAN chunk is delivered to the Level 3 stage once that stage holds its reservation. (R295) -/
  | spanChunkDeliver (sess : Nat)
  /-- ACK: A received ACK frees acknowledged slots and triggers fast retransmission of gaps. (R293) -/
  | ackSegment (seg : RxSegment)
  /-- ACK_TIMER_EXPIRY: ACK_INT passes with DATA accepted since the last ACK, and an ACK is sent. (R292) -/
  | ackTimerExpiry (sess : Nat)
  /-- RTX_TIMER_EXPIRY: A held segment unacknowledged for 2 × RTT is retransmitted, or faults the session after RTX_MAX. (R293) -/
  | rtxTimerExpiry (sess : Nat) (seq : Word)
  /-- STALL_TIMEOUT: CUM_ACK has not advanced for STALL_TO with segments outstanding, and the session faults or ends its drain. (R302) -/
  | stallTimeout (sess : Nat)
  /-- PACK_HOLD_EXPIRY: SELV_PACK_HOLD passes since the first chunk or byte joined an open segment, and the segment is sealed. (R285) -/
  | packHoldExpiry (sess : Nat)
  /-- OPEN_SEGMENT: A received OPEN is answered with OPEN_ACK, and a newer GEN is adopted. (R299) -/
  | openSegment (seg : RxSegment)
  /-- OPEN_ACK: A received OPEN_ACK moves the session to OPEN once it has also sent one. (R299) -/
  | openAck (seg : RxSegment)
  /-- CLOSE_SEGMENT: A received CLOSE discards the queue, sends CLOSE once and closes the session. (R303) -/
  | closeSegment (seg : RxSegment)
  /-- OPEN_REPEAT: Every 1 ms in OPENING the session sends OPEN again. (R299) -/
  | openRepeat (sess : Nat)
  /-- CLOSE_REPEAT: After its drain a closing session sends CLOSE three times 1 ms apart and then closes. (R303) -/
  | closeRepeat (sess : Nat)
  /-- SESSION_ADMIT: Sessions leave ADMIT in entry order, up to 256 per millisecond, and enter OPENING. (R300) -/
  | sessionAdmit
  /-- SESS_OPEN: SELV_SESS_CTRL.OPEN requests a session open, entering KEYWAIT or ADMIT. (R299) -/
  | sessOpen (req : Requester) (sess : Nat)
  /-- SESS_CLOSE: SELV_SESS_CTRL.CLOSE moves a session to CLOSING. (R303) -/
  | sessClose (req : Requester) (sess : Nat)
  /-- SELV_SESS_CFG_WRITE: A write configures a session, or is refused when it changes KIND, PANEL or LGRP while the session is not CLOSED. (R311) -/
  | selvSessCfgWrite (req : Requester) (sess : Nat) (value : Word)
  /-- TWIN_COPY_START: Each twin period the active starts a new copy of its session records and abandons an unacknowledged copy. (R304) -/
  | twinCopyStart
  /-- RECORDS: The standby writes received session records to its incoming page. (R304) -/
  | twinRecords (copySeq : Word) (recs : List TwinRec)
  /-- TWIN_COMMIT: The standby checks the count and CRC, adopts the page and answers COMMIT_ACK, or sets TWIN_FAIL. (R304) -/
  | twinCommit (copySeq : Word) (count : Nat) (crc : Word)
  /-- COMMIT_ACK: The active's reservation advances to the acknowledged copy's TXC_RESV. (R305) -/
  | commitAck (copySeq : Word)
  /-- TWIN_AUTO_TAKEOVER: With AUTO set and four periods without a twin datagram, the standby takes over. (R306) -/
  | twinAutoTakeover
  /-- TAKEOVER: SELV_TWIN_CMD.TAKEOVER opens the sessions of the complete page at GEN plus one. (R306) -/
  | takeover (req : Requester)
  /-- LINE_FRAME_RECEIVE: A received Selvedge frame is aligned and its overhead, defects and cells processed. (R328) -/
  | lineFrameReceive (ch : Nat) (f : RxLineFrame)
  /-- LINE_FRAME_TRANSMIT: Each frame period the framer fills the slots with segment, idle and control cells and sends the overhead. (R317) -/
  | lineFrameTransmit (group phase : Nat)
  /-- CONTROL_CELL_RECEIVE: A tack in a control cell is acted on once per SRC and SEQ from WORK or PROT. (R331) -/
  | controlCellReceive (ch typ : Nat) (word : BitVec 256)
  /-- CM_COMMIT: LINE_GRP_CM_CTRL.COMMIT starts the check of the standby connection-memory pages. (R322) -/
  | cmCommit (req : Requester) (group : Nat)
  /-- CM_CLEAR: LINE_GRP_CM_CTRL.CLEAR zeroes the standby pages and clears SB_VALID. (R322) -/
  | cmClear (req : Requester) (group : Nat)
  /-- CM_CHECK_DONE: The connection-memory check ends, setting SB_VALID or recording ERR. (R322) -/
  | cmCheckDone (group : Nat)
  /-- ADD: LINE_CH_CMD ADD starts adding a member with MSTATE ADD and idle cells. (R326) -/
  | memberAdd (req : Requester) (ch : Nat)
  /-- REMOVE: LINE_CH_CMD REMOVE starts the planned removal of a member. (R327) -/
  | memberRemove (req : Requester) (ch : Nat)
  /-- LINE_CH_CFG_WRITE: A write joins a channel to a group, or is refused for a duplicate MID, an absent die or a change while enabled. (R313) -/
  | lineChCfgWrite (req : Requester) (ch : Nat) (value : Word)
  /-- LINE_GRP_CFG_WRITE: A write configures a group, or is refused when it changes MODE or GID while channels are enabled. (R336) -/
  | lineGrpCfgWrite (req : Requester) (group : Nat) (value : Word)
  /-- WTR_EXPIRY: With REVERT set, WORK free of defects for WTR seconds returns the time source to WORK. (R331) -/
  | wtrExpiry (group : Nat)
  /-- OPT_BAND_WRITE: A write to OPT_BAND sets the band and starts a cold fitting, or is refused while channels are enabled. (R339) -/
  | optBandWrite (req : Requester) (die : Nat) (value : Word)
  /-- REFIT: OPT_FIT_CMD.REFIT starts a cold fitting, or is refused while channels are lit. (R345) -/
  | refit (req : Requester) (die : Nat)
  /-- FIT_COMB_LOCK: The comb locks to the band and the ring sweep begins. (R345) -/
  | fitCombLock (die setpoint : Nat)
  /-- FIT_COMB_TIMEOUT: The comb fails to lock within 1,000 ms and the whole die fails fitting. (R346) -/
  | fitCombTimeout (die : Nat)
  /-- FIT_SWEEP_DONE: The heater sweep ends, rotations are chosen and the rings are moved to lock. (R345) -/
  | fitSweepDone (die : Nat) (sweep : List (List (Option Nat)))
  /-- FIT_DONE: Fitting completes, STATE reads DONE and the retention store is written. (R345) -/
  | fitDone (die : Nat) (lost : List Nat)
  /-- TUNING_PERIOD: Each 1 ms tuning period the ring and bias loops update and received power is measured. (R348) -/
  | tuningPeriod (die bias : Nat) (temp : Int) (chans : List OptMeas)
  /-- RING_LOCK_LOSS: A ring whose error exceeds ±3 GHz for 5 periods loses lock and starts a warm refit. (R348) -/
  | ringLockLoss (ch : Nat) (transmit : Bool)
  /-- RX_LOCK: Receive rings move onto the far-end pilot when it arrives and set RX_LOCK. (R345) -/
  | rxLock (ch : Nat)
  /-- OPT_CH_CTRL_WRITE: A write lights or darkens a channel with a launch ramp, or refuses EN on FIT_FAIL. (R340) -/
  | optChCtrlWrite (req : Requester) (ch : Nat) (value : Word)
  /-- LAUNCH_RAMP_DONE: The 10 ms launch ramp ends and LIGHT reads lit or dark. (R340) -/
  | launchRampDone (ch : Nat)
  /-- LOS_SET: Received power below LOS_SET or an absent pilot declares LOS within 10 µs. (R350) -/
  | losSet (ch : Nat) (power : Int) (pilot : Bool)
  /-- LOS_CLEARED: Power at or above LOS_CLR with RX_LOCK for 1 ms clears LOS. (R350) -/
  | losCleared (ch : Nat) (power : Int)
  /-- OPT_CH_LOS_THR_WRITE: A threshold write is refused unless LOS_CLR is at least LOS_SET + 1.0 dB, and changes no state by itself. (R350) -/
  | optChLosThrWrite (req : Requester) (ch : Nat) (value : Word)
  /-- CAL: OPT_CH_CMD.CAL marks a channel as needing calibration. (R353) -/
  | calCommand (req : Requester) (ch : Nat)
  /-- CAL_PERIOD_EXPIRY: CAL_PERIOD passes since the last calibration, and CAL_PENDING is set. (R353) -/
  | calPeriodExpiry (ch : Nat)
  /-- CAL_START: At a tuning period the oldest pending channel with headroom starts calibration. (R354) -/
  | calStart (die : Nat)
  /-- CAL_FORCED: A channel pending for 10 s is calibrated regardless of headroom. (R355) -/
  | calForced (ch : Nat)
  /-- CAL_PATTERN_END: The 20 ms calibration pattern ends and frames resume. (R356) -/
  | calPatternEnd (ch : Nat)
  /-- SWITCH: THM_SESS_CMD.SWITCH switches to the next key at the next segment, or is refused. (R366) -/
  | keySwitch (req : Requester) (sess : Nat)
  /-- CLEAR_RETIRED: THM_SESS_CMD.CLEAR_RETIRED empties the session's retired slot. (R368) -/
  | clearRetired (req : Requester) (sess : Nat)
  /-- GO: THM_KLD_CMD.GO starts a wrapped key load and sets BUSY. (R370) -/
  | kldGo (req : Requester) (group : Nat)
  /-- KEY_LOAD_COMPLETE: The load is unwrapped and checked, the slot is written or the load refused, and BUSY clears. (R371) -/
  | keyLoadComplete (group : Nat) (plain : Option (List Byte))
  /-- PPS_EDGE: A PPS_IN rising edge with a good ToD message gives a time sample. (R380) -/
  | ppsEdge (phase : Nat)
  /-- TOD_MESSAGE: A ToD message is checked and kept for the next edge, or discarded and counted. (R381) -/
  | todMessage (msg : List Byte)
  /-- SYNC: A Sync on the slave port gives an offset sample used for qualification, tracking or jump detection. (R383) -/
  | ptpSync (m : PtpSyncMsg)
  /-- FOLLOW_UP: A Follow_Up completes a two-step Sync sample. (R387) -/
  | followUp (port seq sender origin : Nat) (corr : Int)
  /-- DELAY_REQ: A Delay_Req on a master port is answered with a Delay_Resp, or dropped before TRACKING. (R390) -/
  | delayReq (port domain seq sender phase : Nat)
  /-- DELAY_RESP: A Delay_Resp completes the delay measurement on the slave port. (R386) -/
  | delayResp (port seq received : Nat) (corr : Int)
  /-- ANNOUNCE: An Announce feeds the best master clock algorithm. (R387) -/
  | announce (port domain : Nat) (d : PtpData)
  /-- PTP_UNSUPPORTED: Peer-delay, management and other unsupported PTP messages are dropped and counted. (R386) -/
  | ptpUnsupported (port : Nat)
  /-- PTP_SYNC_SEND: Master ports send one-step Sync and Announce each interval while TRACKING or in HOLDOVER. (R388) -/
  | ptpSyncSend (port phase : Nat)
  /-- REF_LOST: No sample for 3 × I makes the reference lost and enters HOLDOVER, or discards samples in ACQUIRE. (R384) -/
  | refLost
  /-- RESTEP: TIME_CMD.RESTEP moves the time base to ACQUIRE, or is refused while a window or gate list is armed. (R385) -/
  | restep (req : Requester)
  /-- TIME_CFG_WRITE: A change of REF_SRC or UP_PORT in TRACKING enters HOLDOVER at the next tick. (R385) -/
  | timeCfgWrite (req : Requester) (value : Word)
  /-- LINE_TIME_AVERAGE: Every second the line offset and delay averages are published and LINE_DIVERGE checked. (R391) -/
  | lineTimeAverage (group : Nat)
  /-- CTX_WATCHDOG_EXPIRY: A context's progress watchdog expires and causes an engine fault. (R429) -/
  | ctxWatchdogExpiry (ctx : Nat)
  /-- ENGINE_RESET_DONE: The engine reset completes and the trials of the suspects begin. (R431) -/
  | engineResetDone (eng : Nat)
  /-- TRIAL_TIMEOUT: TRIAL_TO passes without a fault, the suspect passes and the next is tried. (R434) -/
  | trialTimeout (eng : Nat)
  /-- PORT_STALL: A class paused for HLT_PORT_STALL is declared stalled and, with STALL_ACT, its frames are discarded. (R430) -/
  | portStall (port cls : Nat)
  /-- TX_HANG: A port with an eligible class and no frame started for 1 ms triggers domain recovery of its quadrant. (R430) -/
  | txHang (port : Nat)
  /-- CTL_WDOG: 100 ms without a firmware heartbeat triggers device recovery. (R440) -/
  | ctlWdog
  /-- DEV_RECOVER: HLT_CMD.DEV_RECOVER starts device recovery. (R439) -/
  | devRecover (req : Requester)
  /-- DEVICE_RECOVERY_DONE: Device recovery completes and long-haul service returns. (R439) -/
  | deviceRecoveryDone
  /-- UNFENCE: HLT_CMD.UNFENCE runs the engine's self-test and returns it to NORMAL on a pass. (R436) -/
  | unfence (req : Requester) (eng : Nat) (pass : Bool)
  /-- DOM_RECOVER: HLT_CMD.DOM_RECOVER drains, resets and powers a domain back on. (R441) -/
  | domRecover (req : Requester) (dom : Nat)
  /-- DOMAIN_OFF: PWR_DOM_CMD.OFF puts a domain in DRAINING, or is refused. (R441) -/
  | domainOff (req : Requester) (dom : Nat)
  /-- DOMAIN_ON: PWR_DOM_CMD.ON powers a domain on, or is refused. (R442) -/
  | domainOn (req : Requester) (dom : Nat)
  /-- DRAIN_TIMEOUT: After 100 µs of draining, remaining work is dropped, bolts are NACKed with DOMAIN_OFF and the domain is switched off. (R441) -/
  | drainTimeout (dom : Nat)
  /-- DOMAIN_ON_DONE: A domain returns to service after its return time. (R442) -/
  | domainOnDone (dom : Nat)
  /-- SWATCH_LOG_COPY: The gateway copies the oldest uncopied swatch to the flash log in the background. (R462) -/
  | swatchLogCopy (eraseOk programOk : Bool)
  /-- OBS_REFRESH: Every 1 ms the observation area's header and filter table are refreshed. (R457) -/
  | obsRefresh
  /-- SAT_PERIOD_EXPIRY: Every SAT_PERIOD a SATURATION record is written to the device ring. (R461) -/
  | satPeriodExpiry
  /-- DBG_PNL_OBS_WRITE: A write places a panel's observation area and initialises its header, or is refused. (R457) -/
  | dbgPnlObsWrite (req : Requester) (panel : Nat) (value : Word)
  /-- ENG_TEST: BIST_CMD ENG_TEST tests a fenced engine. (R465) -/
  | engTest (req : Requester) (eng : Nat)
  /-- EXTENDED: BIST_CMD EXTENDED runs the extended tests where the lifecycle allows. (R466) -/
  | bistExtended (req : Requester)
  /-- BIST_DONE: A BIST run ends with PASS, REPAIRED or FAIL. (R465) -/
  | bistDone (units : List BistReport)
  /-- THERM_ALERT_ASSERT: A die sensor above 105 °C asserts THERM_ALERT_N. (R486) -/
  | thermAlertAssert (die : Nat) (temp : BitVec 16)
  /-- THERM_ALERT_RELEASE: Every sensor below 100 °C for 1 ms releases THERM_ALERT_N. (R486) -/
  | thermAlertRelease (temps : List (BitVec 16))
  /-- VMON_WARN: A monitored rail outside ±5 % for 1 µs sets CLK_EVENT.VMON_WARN. (R485) -/
  | vmonWarn (rail mv : Nat)
  /-- SERDES_REF_LOSS: Loss of SERDES_REFCLKd makes IO die d's lanes lose lock and its ports go link-down. (R479) -/
  | serdesRefLoss (die : Nat)
  /-- PFC_PAUSE_EXPIRY: The pause time set by a received PFC frame for a class runs out with no refresh within one refresh interval, so the class becomes eligible again and any STALL_ACT discarding stops. (R430) -/
  | pfcPauseExpiry (port cls : Nat)
  /-- SERDES_REF_RETURN: SERDES_REFCLKd returns within its limits, CLK_STATUS.SERDES_REF_OK for IO die d is set again and the lanes of that die can relock and retrain. (R479) -/
  | serdesRefReturn (die : Nat)
  /-- PERST_N_RELEASE: Release of PERST_N lets the PCIe endpoint leave reset and train its link again. (R480) -/
  | perstNRelease
  /-- DELAY_REQ_SEND: On its slave port the gateway, as a boundary clock under the delay request-response profile, sends a Delay_Req whose answer completes the path-delay measurement. (R386) -/
  | delayReqSend (port phase : Nat)
  /-- RAISE_MINVER_DONE: Fuse programming for an accepted RAISE_MINVER ends, SEC_CMD_STATUS.BUSY clears and the result, MINVER_RAISED or fuse failure 0x03, is written. (R424) -/
  | raiseMinverDone (fail : Bool)
  deriving DecidableEq, Repr

end Sys2Proof
end

