-- ==== Sys2Proof/Decode.lean ====
section
/-! DEFINITION. Commands spelt as words.  The table of operations and events gives its rows no bits: every command comes from outside as a
term, and no word spells one. -/

namespace Sys2Proof

/-- The command that a word spells by the table's bits: none, because no row has bits. -/
def decodeTableWord (nbits w : Nat) : Option Instr :=
  match nbits, w with
  | _, _ => none

end Sys2Proof
end

