-- ==== Sys2Proof/Config.lean ====
section
/-! DEFINITION. What the spec leaves open: free values, constants without a body, so that no proof can lean on one.
Log entry 2 says how `State.fresh` selects among them. -/

namespace Sys2Proof

/-- A free number, one for each value of the counter `State.fresh` (log 2). -/
opaque Config.freeNat : Nat → Nat

/-- A free word, one for each value of the counter `State.fresh` (log 2). -/
opaque Config.freeWord : Nat → Word

/-- The bits of a key encryption key of the n-th encapsulation, as a number below 2 ^ 256 (R369, log 2). -/
opaque Config.kek : Nat → BitVec 256

/-- Word `i` of the ciphertext that the n-th encapsulation publishes (R369, log 2). -/
opaque Config.kemCt : Nat → Nat → Word

/-- Full segments that the receive store of a session holds; the spec does not divide the skew region among sessions
(R268, R294, log 28). -/
opaque Config.recvStore : Nat → Nat

/-- Transfers of one engine that the Seam ring holds before it back-pressures, less one: the spec gives no number (R87, log 83). -/
opaque Config.ringRoom : Nat

/-- The copy of a codebook slot that a 32 B block of the codebook region belongs to, copy `n % 2` of slot `n / 2` with `n` taken modulo 512; the
spec does not place the slots within the region (R268, log 74). -/
opaque Config.codebookCopy : Nat → Nat

/-- Contributions the parent's stage expects, less one: the child's descriptor does not say, and every CONTRIB it sends carries the number
(R121, R134, log 32). -/
opaque Config.parentCount : Word → Nat

/-- The fabric port by which an address is reached: no register holds the gateway's routes (R220, R221, log 85). -/
opaque Config.route : Nat → Nat

/-- Byte `i` of the Ethernet, IP and UDP headers and the FCS of a frame of the gateway's own: no register holds its addresses (R119, log 85). -/
opaque Config.headerByte : Nat → Byte

/-- The panel that a collective has on the gateway or site at an address: the sender's descriptor does not say (R29, R121, R245, log 34). -/
opaque Config.peerPanel : Word → Nat → Nat

/-- The ICRC of a RoCEv2 packet, by its destination queue pair, PSN and payload: it covers addresses that no register holds (R155, log 85). -/
opaque Config.icrc : Nat → Nat → List Byte → Word

/-- The element size of a collective's results, as a power of two, at a gateway without a Level 3 context, whose descriptor does not say (R156, log 48). -/
opaque Config.resultSize : Word → Nat

/-- The 64 KiB place of the skew region where a frame of a member waits: the spec gives the region no layout (R268, R325, log 87). -/
opaque Config.skewPlace : Nat → Nat → Nat

end Sys2Proof
end

