-- ==== Sys2Proof/Machine/Bits.lean ====
section
/-! DEFINITION. Bit-field and byte-order helpers shared by every register and message. -/

namespace Sys2Proof.Machine

/-- Bits [hi:lo] of a word, as a number. -/
def bf (w : Word) (hi lo : Nat) : Nat := (w.toNat / pow2 lo) % pow2 (hi + 1 - lo)

/-- Bit `i` of a word. -/
def bit (w : Word) (i : Nat) : Bool := w.getLsbD i

/-- 1 for true. -/
def b2n (b : Bool) : Nat := if b then 1 else 0

/-- The word with bits [hi:lo] replaced by `v`. -/
def putBf (w : Word) (hi lo v : Nat) : Word :=
  BitVec.ofNat 32 (w.toNat - bf w hi lo * pow2 lo + (v % pow2 (hi + 1 - lo)) * pow2 lo)

/-- A number read as two's complement of `n` bits. -/
def toSigned (n v : Nat) : Int := if v < pow2 (n - 1) then (v : Int) else (v : Int) - (pow2 n : Int)

/-- An integer as two's complement of `n` bits. -/
def ofSigned (n : Nat) (v : Int) : Nat := (v % (pow2 n : Int)).toNat

/-- The `n` low bytes of a number, lowest address first (little-endian). -/
def leBytes : Nat → Nat → List Byte
  | 0, _ => []
  | n + 1, v => BitVec.ofNat 8 v :: leBytes n (v / 256)

/-- The number a list of bytes spells, lowest address first (little-endian). -/
def leNat : List Byte → Nat
  | [] => 0
  | b :: bs => b.toNat + 256 * leNat bs

/-- The number a list of bytes spells, most significant first (network order). -/
def beNat (bs : List Byte) : Nat := leNat bs.reverse

/-- The `n` low bytes of a number, most significant first (network order). -/
def beBytes (n v : Nat) : List Byte := (leBytes n v).reverse

/-- Bytes `[off, off + n)` of a list; absent bytes read 0. -/
def slice (bs : List Byte) (off n : Nat) : List Byte :=
  let t := (bs.drop off).take n
  t ++ List.replicate (n - t.length) 0

/-- A little-endian field of a list of bytes. -/
def leField (bs : List Byte) (off n : Nat) : Nat := leNat (slice bs off n)

/-- A little-endian 32-bit field of a list of bytes. -/
def leWord (bs : List Byte) (off : Nat) : Word := BitVec.ofNat 32 (leField bs off 4)

/-- The 32-bit words of a list of bytes, little-endian. -/
def leWords : List Byte → List Word
  | a :: b :: c :: d :: t => BitVec.ofNat 32 (leNat [a, b, c, d]) :: leWords t
  | _ => []

/-- The bytes of a word, little-endian. -/
def wordBytes (w : Word) : List Byte := leBytes 4 w.toNat

/-- One bit of CRC-32C, reflected polynomial 0x82F6_3B78 (R124). -/
def crc32cBit (c : Nat) : Nat := if c % 2 = 1 then Nat.xor (c / 2) 0x82F63B78 else c / 2

/-- One byte of CRC-32C (R124). -/
def crc32cByte (c : Nat) (b : Byte) : Nat :=
  (List.range 8).foldl (fun c _ => crc32cBit c) (Nat.xor c b.toNat)

/-- CRC-32C of a list of bytes (R124): initial value and final XOR 0xFFFF_FFFF. -/
def crc32c (bs : List Byte) : Word :=
  BitVec.ofNat 32 (Nat.xor (bs.foldl crc32cByte 0xFFFFFFFF) 0xFFFFFFFF)

/-- Puts an element in its place in a list in ascending order of `key`, before its equals. -/
def insertBy {α : Type} (key : α → Nat) (x : α) : List α → List α
  | [] => [x]
  | y :: ys => if key x ≤ key y then x :: y :: ys else y :: insertBy key x ys

/-- A list in ascending order of `key`, equals in the order they stood. -/
def sortBy {α : Type} (key : α → Nat) (l : List α) : List α := l.foldr (insertBy key) []

/-- Keeps the first occurrence of each element. -/
def dedup {α : Type} [DecidableEq α] : List α → List α
  | [] => []
  | x :: xs => x :: (dedup xs).filter (· ≠ x)

end Sys2Proof.Machine
end

