-- ==== Sys2Proof/Machine/Tab.lean ====
section
/-! DEFINITION. The operations over sparse tables: read, write, and the canonical form every write keeps. -/

namespace Sys2Proof.Machine

/-- The value a table holds at key `i`; `d` where nothing is listed. -/
def tabGet {α : Type} (d : α) : Tab α → Nat → α
  | [], _ => d
  | (k, v) :: t, i => if i = k then v else tabGet d t i

/-- The table with value `v` at key `i`.  Writing the default removes the entry, so that equal
contents are equal lists. -/
def tabSet {α : Type} [DecidableEq α] (d : α) : Tab α → Nat → α → Tab α
  | [], i, v => if v = d then [] else [(i, v)]
  | (k, w) :: t, i, v =>
    if i < k then (if v = d then (k, w) :: t else (i, v) :: (k, w) :: t)
    else if i = k then (if v = d then t else (i, v) :: t)
    else (k, w) :: tabSet d t i v

/-- The canonical form, above a bound: keys strictly rising from `lo` on, no entry equal to the default. -/
def tabWfFrom {α : Type} [DecidableEq α] (d : α) : Nat → Tab α → Bool
  | _, [] => true
  | lo, (k, v) :: t => decide (lo ≤ k) && decide (v ≠ d) && tabWfFrom d (k + 1) t

/-- The canonical form of a table. -/
def tabWf {α : Type} [DecidableEq α] (d : α) (t : Tab α) : Bool := tabWfFrom d 0 t

/-- The table with the value at key `i` changed by `f`. -/
def tabMod {α : Type} [DecidableEq α] (d : α) (t : Tab α) (i : Nat) (f : α → α) : Tab α :=
  tabSet d t i (f (tabGet d t i))

/-- The keys listed in a table. -/
def tabKeys {α : Type} (t : Tab α) : List Nat := t.map Prod.fst

/-- Writes a list of values at consecutive keys from `i` on. -/
def tabSetList {α : Type} [DecidableEq α] (d : α) (t : Tab α) (i : Nat) : List α → Tab α
  | [] => t
  | v :: vs => tabSetList d (tabSet d t i v) (i + 1) vs

/-- Reads `n` values at consecutive keys from `i` on. -/
def tabGetList {α : Type} (d : α) (t : Tab α) (i : Nat) : Nat → List α
  | 0 => []
  | n + 1 => tabGet d t i :: tabGetList d t (i + 1) n

/-- The table without the entries whose key satisfies `p`. -/
def tabDrop {α : Type} (t : Tab α) (p : Nat → Bool) : Tab α := t.filter (fun e => !(p e.1))

end Sys2Proof.Machine
end

