-- ==== Sys2Proof/Machine/Regs.lean ====
section
/-! DEFINITION. The register map: one name for each register of the manual, with its block, offset, array shape,
access code, writable fields and reset value, taken from the register tables of the chapters. -/

namespace Sys2Proof.Machine

/-- The blocks of the address map (R394), and the PNL slice of a panel window (R403). -/
inductive Blk where
  | GLB | PWR | CLK | SEC | THM | TIME | FPORT | SW | TM | BAST | SEAM | CCO | PLT | BOB | MEM | SELV | LINE | OPT | DBG | BIST | HLT | PNL
  deriving DecidableEq, Repr

/-- The access codes of R18.  `cnt` is a stored 64-bit counter (R398); `cntv` a 64-bit pair computed from other state. -/
inductive Acc where
  | rw | rws | ro | wo | sqc | cnt | cntv
  deriving DecidableEq, Repr

/-- A writable field: its bits, and the range of values it accepts where the manual states one.
A range that starts below zero is of a two's complement field. -/
structure Field where
  hi : Nat
  lo : Nat
  rng : Option (Int × Int)
  deriving DecidableEq, Repr

/-- One register: its block, the offset of its first word, the strides and counts of its arrays (outermost first),
its access code, its writable fields (reserved bits read 0, R19), its reset value, and whether each panel and the
physical function has one of its own (P-marked registers, R161; MEM_EVENT and aperture registers, R280). -/
structure RegRow where
  blk : Blk
  off : Nat
  dims : List (Nat × Nat)
  acc : Acc
  fields : List Field
  reset : Nat
  view : Bool
  deriving DecidableEq, Repr

/-- The registers by the manual's names. -/
inductive Rid where
  | GLB_ID | GLB_BLOCK_STATUS | GLB_EVENT | GLB_STATUS | GLB_STRAP | GLB_STRAP_SMP | GLB_PAT_STATUS | GLB_PAT_VERSION | GLB_READY_MS | GLB_BUSERR_ADDR | GLB_BUSERR_INFO | GLB_IRQ_HOLDOFF | GLB_PANEL_CFG | GLB_PANEL_STATUS
  | PWR_BLOCK_STATUS | PWR_EVENT | PWR_DOM_CMD | PWR_DOM_STATUS | PWR_CNT_ABSENT | PWR_CNT_DRAIN_DROP
  | CLK_BLOCK_STATUS | CLK_EVENT | CLK_STATUS | CLK_TEMP | CLK_TEMP_MAX | CLK_VMON
  | SEC_BLOCK_STATUS | SEC_EVENT | SEC_LIFECYCLE | SEC_PAT_MINVER | SEC_CMD | SEC_CMD_ARG | SEC_CMD_STATUS | SEC_FLASH_ADDR | SEC_FLASH_CMD | SEC_FLASH_STATUS | SEC_FLASH_SIZE | SEC_FLASH_RDATA | SEC_FLASH_DATA
  | THM_BLOCK_STATUS | THM_EVENT | THM_ALARM | THM_CNT_ENC_SEG | THM_CNT_DEC_SEG | THM_CNT_TAG_FAIL | THM_CNT_PREEMPT | THM_CNT_KLD_REFUSED | THM_CNT_SWITCH_REFUSED | THM_CNT_NOKEY | THM_KLD_W | THM_KLD_CMD | THM_KLD_STATUS | THM_KEK_STATUS | THM_KLD_SEQ | THM_KEK_CT | THM_SESS_CFG | THM_SESS_KEY | THM_SESS_USE | THM_SESS_CMD
  | TIME_BLOCK_STATUS | TIME_EVENT | TIME_CFG | TIME_STATUS | TIME_CMD | TIME_NOW_FRAC | TIME_NOW_NS | TIME_NOW_SEC_LO | TIME_NOW_SEC_HI | TIME_OFFSET | TIME_FREQ | TIME_FREQ_TRIM | TIME_UTC_OFS | TIME_LINE_THR | TIME_CNT_TOD_BAD | TIME_CNT_OUTLIER | TIME_PORT_CFG | TIME_PORT_ING_LAT | TIME_PORT_EGR_LAT | TIME_PORT_STATE | TIME_PORT_CNT_DROP | TIME_LINE_ASYM | TIME_LINE_OFS | TIME_LINE_DELAY
  | FPORT_BLOCK_STATUS | FPORT_EVENT | FPORT_QD_MODE | FPORT_PRE_READY_DROP | FPORT_CTRL | FPORT_STATUS | FPORT_PCP_MAP | FPORT_DSCP_MAP | FPORT_CNT_RX_FRAMES | FPORT_CNT_TX_FRAMES | FPORT_CNT_RX_BYTES | FPORT_CNT_TX_BYTES | FPORT_CNT_FCS_ERR | FPORT_CNT_STOMP | FPORT_CNT_FEC_CORR | FPORT_CNT_FEC_UNCORR | FPORT_CNT_PAUSE_VIOL | FPORT_CNT_PFC_TX | FPORT_CNT_PFC_RX | FPORT_CNT_GPAUSE
  | SW_BLOCK_STATUS | SW_EVENT | SW_BUF_SUM | SW_PANEL_CELLS | SW_FDB_KEY_LO | SW_FDB_KEY_HI | SW_FDB_DEST | SW_FDB_CMD | SW_FDB_STATUS | SW_CNT_AGED | SW_CNT_FLUSH | SW_CNT_NO_ENTRY | SW_CNT_CLASS_OFF | SW_LIMIT | SW_PFC | SW_OCC | SW_CT
  | TM_BLOCK_STATUS | TM_EVENT | TM_SPW_CTRL | TM_SPW_BASE_NS | TM_SPW_BASE_SEC_LO | TM_SPW_BASE_SEC_HI | TM_SPW_CYCLE | TM_SPW_OPEN | TM_SPW_STATUS | TM_SPW_EVENT | TM_SPW_CNT_OPEN | TM_POL_CTRL | TM_POL_RATE | TM_POL_BURST | TM_SHP_CTRL | TM_SHP_RATE | TM_SHP_BURST | TM_SCH_WT | TM_CNT_POL_DROP | TM_GCL_CMD | TM_GCL_STATUS | TM_GCL_SB_LEN | TM_GCL_SB_CYCLE | TM_GCL_SB_BASE_NS | TM_GCL_SB_BASE_SEC_LO | TM_GCL_SB_BASE_SEC_HI | TM_GCL_SB_ENTRY | TM_GCL_ENTRY
  | BAST_BLOCK_STATUS | BAST_EVENT | BAST_GWID | BAST_CIRC_CFG | BAST_CIRC_STATUS | BAST_CIRC_PEER | BAST_CNT_TX | BAST_RX_CFG | BAST_RX_STATUS | BAST_CNT_RX | BAST_CNT_RX_CRC
  | SEAM_BLOCK_STATUS | SEAM_ENG_EVENT | SEAM_SP_ADDR | SEAM_SP_DATA | SEAM_PANEL_WT | SEAM_CNT_INVOKE | SEAM_CNT_ISSUE | SEAM_CNT_STALL | SEAM_CNT_IDX_OOR | SEAM_SLOT_CTRL | SEAM_SLOT_STATUS | SEAM_SLOT_SBCFG | SEAM_SLOT_CFG | SEAM_SLOT_SBCRC | SEAM_CTX_ARITH | SEAM_CTX_BIND | SEAM_CTX_STATUS | SEAM_CTX_EVENT | SEAM_CTX_FCAUSE | SEAM_SB_PAGE | SEAM_ACT_PAGE
  | CCO_BLOCK_STATUS | CCO_EVENT | CCO_CFG | CCO_CMD_ADDR_LO | CCO_CMD_ADDR_HI | CCO_CMD | CCO_CMD_STATUS | CCO_UDP_PORT | CCO_MISS_CFG | CCO_SLG_CFG | CCO_RING_BASE_LO | CCO_RING_BASE_HI | CCO_CNT_DEEP | CCO_CNT_DUP | CCO_CNT_RDMA_IGN | CCO_CNT_NACK | CCO_CNT_ABORT | CCO_SLG_ENTRY
  | PLT_BLOCK_STATUS | PLT_EVENT | PLT_CMD_ADDR_LO | PLT_CMD_ADDR_HI | PLT_CMD | PLT_CMD_STATUS | PLT_PANEL_MAXQ | PLT_CNT_ENC_BLK | PLT_CNT_DEC_BLK | PLT_CNT_ENC_SAT | PLT_CNT_CB_MISMATCH | PLT_CTX_CB | PLT_CB_STATUS | PLT_CB_FP
  | BOB_BLOCK_STATUS | BOB_EVENT | BOB_CELL_FREE | BOB_PF_HANDLE | BOB_PF_INFO | BOB_SPOOL_COUNT | BOB_SPOOL_PRIV | BOB_SPOOL_FREE | BOB_SPOOL_PFREE | BOB_SPOOL_CACHE | BOB_CNT_PTR_FAULT | BOB_CNT_OUTGROW | BOB_CNT_NO_BOBBIN | BOB_CNT_PRIV_FALLBACK | BOB_CNT_RING_LOST
  | MEM_BLOCK_STATUS | MEM_EVENT | MEM_LAYOUT | MEM_APT_BASE_LO | MEM_APT_BASE_HI | MEM_UE_ADDR_LO | MEM_UE_ADDR_HI | MEM_SCRUB_CFG | MEM_SCRUB_POS | MEM_PANEL_QUOTA | MEM_CNT_CE | MEM_CNT_UE | MEM_CNT_RD_BYTES | MEM_CNT_WR_BYTES | MEM_REM_SHARE | MEM_REM_CNT_RD | MEM_REM_CNT_WR | MEM_REM_CNT_THR
  | SELV_BLOCK_STATUS | SELV_EVENT | SELV_RTX_SLOTS | SELV_RTX_USED | SELV_ACK_CFG | SELV_PACK_HOLD | SELV_TWIN_CFG | SELV_TWIN_IP | SELV_TWIN_PERIOD | SELV_TWIN_RESV | SELV_TWIN_STATUS | SELV_TWIN_CMD | SELV_TWIN_SEQ | SELV_CNT_TX_SEG | SELV_CNT_RX_SEG | SELV_CNT_RTX_SEG | SELV_CNT_RX_BAD | SELV_CNT_RX_NOSESS | SELV_CNT_EARLY | SELV_CNT_TAG_FAIL | SELV_CNT_OLD_GEN | SELV_CNT_REPLAY | SELV_CNT_DUP | SELV_CNT_RX_DISCARD | SELV_CNT_NO_COLL | SELV_CNT_GEN_DISCARD | SELV_SESS_CFG | SELV_SESS_PEER | SELV_SESS_RTT | SELV_SESS_WIN | SELV_SESS_STALL | SELV_SESS_CTRL | SELV_SESS_STATUS | SELV_SESS_EVENT | SELV_SESS_SNDNXT | SELV_SESS_SNDUNA | SELV_SESS_RCVNXT | SELV_SESS_FCAUSE | SELV_SESS_TXC
  | LINE_BLOCK_STATUS | LINE_EVENT | LINE_SKEW_USED | LINE_GRP_CFG | LINE_GRP_PROT | LINE_GRP_SKEW_BUF | LINE_GRP_STATUS | LINE_GRP_EVENT | LINE_GRP_TX_ACTIVE | LINE_GRP_RX_ACTIVE | LINE_GRP_SKEW | LINE_GRP_CM_CTRL | LINE_GRP_CM_STATUS | LINE_GRP_CM_SBCRC | LINE_GRP_CM_SBGEN | LINE_GRP_CM_GEN | LINE_GRP_CNT_TX_DATA | LINE_GRP_CNT_TX_IDLE | LINE_GRP_CNT_RX_DATA | LINE_GRP_CNT_LOST | LINE_GRP_CNT_HUNT | LINE_GRP_CNT_SLOT_MISMATCH | LINE_CH_CFG | LINE_CH_CMD | LINE_CH_STATUS | LINE_CH_EVENT | LINE_CH_TTI | LINE_CH_CNT_FEC_CORR | LINE_CH_CNT_FEC_UNCORR | LINE_CH_CNT_DEFECT | LINE_CM_TX_SB | LINE_CM_RX_SB | LINE_CM_TX_ACT | LINE_CM_RX_ACT
  | OPT_BLOCK_STATUS | OPT_EVENT | OPT_STATUS | OPT_BAND | OPT_FIT_CFG | OPT_FIT_CMD | OPT_FIT_STATUS | OPT_LASER_BIAS | OPT_DIE_TEMP | OPT_CAL_CFG | OPT_CAL_STATUS | OPT_CNT_CAL | OPT_CNT_CAL_FORCED | OPT_CH_CTRL | OPT_CH_LOS_THR | OPT_CH_STATUS | OPT_CH_EVENT | OPT_CH_RXPWR | OPT_CH_CMD | OPT_CH_CNT_LOS
  | DBG_BLOCK_STATUS | DBG_EVENT | DBG_TRACE_CFG | DBG_DEV_RING_HEAD | DBG_LOG_STATUS | DBG_LOG_MAXERASE | DBG_CNT_TRACE_REC | DBG_CNT_TRACE_LOST | DBG_CNT_LOG_WRITE | DBG_CNT_LOG_ERASE | DBG_PNL_FLAG | DBG_PNL_OBS | DBG_FILT_KEY | DBG_FILT_MASK | DBG_FILT_CTRL | DBG_FILT_CNT
  | BIST_BLOCK_STATUS | BIST_EVENT | BIST_STATUS | BIST_CMD | BIST_CMD_STATUS | BIST_RESULT | BIST_SIG
  | HLT_BLOCK_STATUS | HLT_EVENT | HLT_CFG | HLT_PORT_STALL | HLT_CMD | HLT_RECOV_STATUS | HLT_LAST_FAULT | HLT_ENG_STATE | HLT_SWATCH_SEQ | HLT_SWATCH_FLASH | HLT_TRIAL | HLT_CNT_ENG_FAULT | HLT_CNT_VERDICT | HLT_CNT_TRANSIENT | HLT_CNT_SUBSYS | HLT_CNT_DEVICE | HLT_CNT_PORT_STALL
  | PNL_ID | PNL_BLOCK_STATUS | PNL_EVENT | PNL_STATUS | PNL_CTRL | PNL_CTX_QUOTA | PNL_QP_QUOTA | PNL_BUSERR
  deriving DecidableEq, Repr

/-- The number a register's storage is keyed by. -/
def ridNum (r : Rid) : Nat := r.ctorIdx

/-- The register tables of the manual (R71, R114, R161, R183, R187, R212, R213, R251-R254, R279, R280, R310, R311,
R335, R336, R358, R377, R393, R404, R410, R424, R446, R448, R468, R470, R492). -/
def ridRow : Rid → RegRow
  | .GLB_ID => ⟨.GLB, 0x0, [], .ro, [], 0x0, false⟩  -- R10
  | .GLB_BLOCK_STATUS => ⟨.GLB, 0x4, [], .ro, [], 0x0, false⟩  -- R410
  | .GLB_EVENT => ⟨.GLB, 0x8, [], .sqc, [], 0x0, false⟩  -- R410
  | .GLB_STATUS => ⟨.GLB, 0xC, [], .ro, [], 0x0, false⟩  -- R411
  | .GLB_STRAP => ⟨.GLB, 0x10, [], .ro, [], 0x0, false⟩  -- R410
  | .GLB_STRAP_SMP => ⟨.GLB, 0x14, [(0x4, 3)], .ro, [], 0x0, false⟩  -- R410
  | .GLB_PAT_STATUS => ⟨.GLB, 0x20, [], .ro, [], 0x0, false⟩  -- R410
  | .GLB_PAT_VERSION => ⟨.GLB, 0x24, [], .ro, [], 0x0, false⟩  -- R410
  | .GLB_READY_MS => ⟨.GLB, 0x28, [], .ro, [], 0x0, false⟩  -- R410
  | .GLB_BUSERR_ADDR => ⟨.GLB, 0x30, [], .ro, [], 0x0, false⟩  -- R410
  | .GLB_BUSERR_INFO => ⟨.GLB, 0x34, [], .ro, [], 0x0, false⟩  -- R410
  | .GLB_IRQ_HOLDOFF => ⟨.GLB, 0x40, [], .rw, [⟨15, 0, some (0, 10000)⟩], 0x2, false⟩  -- R410
  | .GLB_PANEL_CFG => ⟨.GLB, 0x100, [(0x8, 16)], .rw, [⟨31, 31, none⟩, ⟨25, 16, some (0, 512)⟩, ⟨14, 0, some (0, 16384)⟩], 0x0, false⟩  -- R402
  | .GLB_PANEL_STATUS => ⟨.GLB, 0x104, [(0x8, 16)], .ro, [], 0x0, false⟩  -- R410
  | .PWR_BLOCK_STATUS => ⟨.PWR, 0x0, [], .ro, [], 0x0, false⟩  -- R448
  | .PWR_EVENT => ⟨.PWR, 0x4, [], .sqc, [], 0x0, false⟩  -- R448
  | .PWR_DOM_CMD => ⟨.PWR, 0x100, [(0x4, 24)], .wo, [], 0x0, false⟩  -- R448
  | .PWR_DOM_STATUS => ⟨.PWR, 0x200, [(0x4, 24)], .ro, [], 0x0, false⟩  -- R448
  | .PWR_CNT_ABSENT => ⟨.PWR, 0x1000, [], .cnt, [], 0x0, false⟩  -- R448
  | .PWR_CNT_DRAIN_DROP => ⟨.PWR, 0x1100, [(0x8, 24)], .cnt, [], 0x0, false⟩  -- R448
  | .CLK_BLOCK_STATUS => ⟨.CLK, 0x0, [], .ro, [], 0x0, false⟩  -- R492
  | .CLK_EVENT => ⟨.CLK, 0x4, [], .sqc, [], 0x0, false⟩  -- R492
  | .CLK_STATUS => ⟨.CLK, 0x8, [], .ro, [], 0x0, false⟩  -- R492
  | .CLK_TEMP => ⟨.CLK, 0x100, [(0x4, 6)], .ro, [], 0x0, false⟩  -- R492
  | .CLK_TEMP_MAX => ⟨.CLK, 0x120, [], .ro, [], 0x0, false⟩  -- R492
  | .CLK_VMON => ⟨.CLK, 0x200, [(0x4, 4)], .ro, [], 0x0, false⟩  -- R492
  | .SEC_BLOCK_STATUS => ⟨.SEC, 0x0, [], .ro, [], 0x0, false⟩  -- R424
  | .SEC_EVENT => ⟨.SEC, 0x4, [], .sqc, [], 0x0, false⟩  -- R424
  | .SEC_LIFECYCLE => ⟨.SEC, 0x8, [], .ro, [], 0x0, false⟩  -- R424
  | .SEC_PAT_MINVER => ⟨.SEC, 0xC, [], .ro, [], 0x0, false⟩  -- R424
  | .SEC_CMD => ⟨.SEC, 0x10, [], .wo, [], 0x0, false⟩  -- R424
  | .SEC_CMD_ARG => ⟨.SEC, 0x14, [], .rw, [⟨31, 0, none⟩], 0x0, false⟩  -- R424
  | .SEC_CMD_STATUS => ⟨.SEC, 0x18, [], .ro, [], 0x0, false⟩  -- R424
  | .SEC_FLASH_ADDR => ⟨.SEC, 0x20, [], .rw, [⟨31, 0, none⟩], 0x0, false⟩  -- R424
  | .SEC_FLASH_CMD => ⟨.SEC, 0x24, [], .wo, [], 0x0, false⟩  -- R424
  | .SEC_FLASH_STATUS => ⟨.SEC, 0x28, [], .ro, [], 0x0, false⟩  -- R424
  | .SEC_FLASH_SIZE => ⟨.SEC, 0x2C, [], .ro, [], 0x0, false⟩  -- R424
  | .SEC_FLASH_RDATA => ⟨.SEC, 0x30, [], .ro, [], 0x0, false⟩  -- R424
  | .SEC_FLASH_DATA => ⟨.SEC, 0x100, [(0x4, 64)], .rw, [⟨31, 0, none⟩], 0x0, false⟩  -- R424
  | .THM_BLOCK_STATUS => ⟨.THM, 0x0, [], .ro, [], 0x0, false⟩  -- R377
  | .THM_EVENT => ⟨.THM, 0x4, [], .sqc, [], 0x0, false⟩  -- R377
  | .THM_ALARM => ⟨.THM, 0x8, [], .ro, [], 0x0, false⟩  -- R377
  | .THM_CNT_ENC_SEG => ⟨.THM, 0x100, [], .cnt, [], 0x0, false⟩  -- R377
  | .THM_CNT_DEC_SEG => ⟨.THM, 0x108, [], .cnt, [], 0x0, false⟩  -- R377
  | .THM_CNT_TAG_FAIL => ⟨.THM, 0x110, [], .cnt, [], 0x0, false⟩  -- R377
  | .THM_CNT_PREEMPT => ⟨.THM, 0x118, [], .cnt, [], 0x0, false⟩  -- R377
  | .THM_CNT_KLD_REFUSED => ⟨.THM, 0x120, [], .cnt, [], 0x0, false⟩  -- R377
  | .THM_CNT_SWITCH_REFUSED => ⟨.THM, 0x128, [], .cnt, [], 0x0, false⟩  -- R377
  | .THM_CNT_NOKEY => ⟨.THM, 0x130, [], .cnt, [], 0x0, false⟩  -- R377
  | .THM_KLD_W => ⟨.THM, 0x10000, [(0x1000, 17), (0x4, 14)], .wo, [], 0x0, false⟩  -- R377
  | .THM_KLD_CMD => ⟨.THM, 0x10038, [(0x1000, 17)], .wo, [], 0x0, false⟩  -- R377
  | .THM_KLD_STATUS => ⟨.THM, 0x1003C, [(0x1000, 17)], .ro, [], 0x0, false⟩  -- R377
  | .THM_KEK_STATUS => ⟨.THM, 0x10040, [(0x1000, 17)], .ro, [], 0x0, false⟩  -- R377
  | .THM_KLD_SEQ => ⟨.THM, 0x10044, [(0x1000, 17)], .ro, [], 0x0, false⟩  -- R377
  | .THM_KEK_CT => ⟨.THM, 0x10800, [(0x1000, 17), (0x4, 392)], .ro, [], 0x0, false⟩  -- R377
  | .THM_SESS_CFG => ⟨.THM, 0x40000, [(0x10, 4096)], .rws, [⟨0, 0, none⟩], 0x0, false⟩  -- R377
  | .THM_SESS_KEY => ⟨.THM, 0x40004, [(0x10, 4096)], .ro, [], 0x0, false⟩  -- R378
  | .THM_SESS_USE => ⟨.THM, 0x40008, [(0x10, 4096)], .cntv, [], 0x0, false⟩  -- R377
  | .THM_SESS_CMD => ⟨.THM, 0x50000, [(0x4, 4096)], .wo, [], 0x0, false⟩  -- R377
  | .TIME_BLOCK_STATUS => ⟨.TIME, 0x0, [], .ro, [], 0x0, false⟩  -- R393
  | .TIME_EVENT => ⟨.TIME, 0x4, [], .sqc, [], 0x0, false⟩  -- R393
  | .TIME_CFG => ⟨.TIME, 0x8, [], .rws, [⟨1, 0, some (0, 2)⟩, ⟨11, 4, none⟩, ⟨12, 12, none⟩, ⟨23, 16, none⟩], 0x1000, false⟩  -- R393
  | .TIME_STATUS => ⟨.TIME, 0xC, [], .ro, [], 0x0, false⟩  -- R393
  | .TIME_CMD => ⟨.TIME, 0x10, [], .wo, [], 0x0, false⟩  -- R393
  | .TIME_NOW_FRAC => ⟨.TIME, 0x20, [], .ro, [], 0x0, false⟩  -- R393
  | .TIME_NOW_NS => ⟨.TIME, 0x24, [], .ro, [], 0x0, false⟩  -- R393
  | .TIME_NOW_SEC_LO => ⟨.TIME, 0x28, [], .ro, [], 0x0, false⟩  -- R393
  | .TIME_NOW_SEC_HI => ⟨.TIME, 0x2C, [], .ro, [], 0x0, false⟩  -- R393
  | .TIME_OFFSET => ⟨.TIME, 0x30, [], .ro, [], 0x0, false⟩  -- R393
  | .TIME_FREQ => ⟨.TIME, 0x38, [], .cntv, [], 0x0, false⟩  -- R393
  | .TIME_FREQ_TRIM => ⟨.TIME, 0x40, [], .rws, [⟨20, 0, some (-858993, 858993)⟩], 0x0, false⟩  -- R393
  | .TIME_UTC_OFS => ⟨.TIME, 0x44, [], .ro, [], 0x0, false⟩  -- R393
  | .TIME_LINE_THR => ⟨.TIME, 0x48, [], .rw, [⟨15, 0, none⟩], 0x64, false⟩  -- R393
  | .TIME_CNT_TOD_BAD => ⟨.TIME, 0x100, [], .cnt, [], 0x0, false⟩  -- R393
  | .TIME_CNT_OUTLIER => ⟨.TIME, 0x108, [], .cnt, [], 0x0, false⟩  -- R393
  | .TIME_PORT_CFG => ⟨.TIME, 0x10000, [(0x20, 256)], .rws, [⟨0, 0, none⟩, ⟨2, 1, some (0, 2)⟩, ⟨7, 4, some (-7, 1)⟩], 0xC0, false⟩  -- R393
  | .TIME_PORT_ING_LAT => ⟨.TIME, 0x10004, [(0x20, 256)], .rws, [⟨31, 0, none⟩], 0x0, false⟩  -- R393
  | .TIME_PORT_EGR_LAT => ⟨.TIME, 0x10008, [(0x20, 256)], .rws, [⟨31, 0, none⟩], 0x0, false⟩  -- R393
  | .TIME_PORT_STATE => ⟨.TIME, 0x1000C, [(0x20, 256)], .ro, [], 0x0, false⟩  -- R393
  | .TIME_PORT_CNT_DROP => ⟨.TIME, 0x10010, [(0x20, 256)], .cnt, [], 0x0, false⟩  -- R393
  | .TIME_LINE_ASYM => ⟨.TIME, 0x20000, [(0x20, 64)], .rws, [⟨31, 0, none⟩], 0x0, false⟩  -- R393
  | .TIME_LINE_OFS => ⟨.TIME, 0x20004, [(0x20, 64)], .ro, [], 0x0, false⟩  -- R393
  | .TIME_LINE_DELAY => ⟨.TIME, 0x20008, [(0x20, 64)], .ro, [], 0x0, false⟩  -- R393
  | .FPORT_BLOCK_STATUS => ⟨.FPORT, 0x0, [], .ro, [], 0x0, false⟩  -- R251
  | .FPORT_EVENT => ⟨.FPORT, 0x4, [], .sqc, [], 0x0, false⟩  -- R251
  | .FPORT_QD_MODE => ⟨.FPORT, 0x10, [(0x4, 8)], .rw, [⟨1, 0, some (0, 2)⟩], 0x1, false⟩  -- R251
  | .FPORT_PRE_READY_DROP => ⟨.FPORT, 0x100, [], .cnt, [], 0x0, false⟩  -- R251
  | .FPORT_CTRL => ⟨.FPORT, 0x10000, [(0x100, 256)], .rws, [⟨31, 31, none⟩, ⟨27, 24, none⟩, ⟨8, 8, none⟩, ⟨0, 0, none⟩], 0x1, false⟩  -- R251
  | .FPORT_STATUS => ⟨.FPORT, 0x10004, [(0x100, 256)], .ro, [], 0x0, false⟩  -- R251
  | .FPORT_PCP_MAP => ⟨.FPORT, 0x10008, [(0x100, 256)], .rws, [⟨23, 0, none⟩], 0xFAC688, false⟩  -- R251
  | .FPORT_DSCP_MAP => ⟨.FPORT, 0x10040, [(0x100, 256), (0x4, 8)], .rws, [⟨23, 0, none⟩], 0x0, false⟩  -- R251
  | .FPORT_CNT_RX_FRAMES => ⟨.FPORT, 0x10080, [(0x100, 256)], .cnt, [], 0x0, false⟩  -- R251
  | .FPORT_CNT_TX_FRAMES => ⟨.FPORT, 0x10088, [(0x100, 256)], .cnt, [], 0x0, false⟩  -- R251
  | .FPORT_CNT_RX_BYTES => ⟨.FPORT, 0x10090, [(0x100, 256)], .cnt, [], 0x0, false⟩  -- R251
  | .FPORT_CNT_TX_BYTES => ⟨.FPORT, 0x10098, [(0x100, 256)], .cnt, [], 0x0, false⟩  -- R251
  | .FPORT_CNT_FCS_ERR => ⟨.FPORT, 0x100A0, [(0x100, 256)], .cnt, [], 0x0, false⟩  -- R251
  | .FPORT_CNT_STOMP => ⟨.FPORT, 0x100A8, [(0x100, 256)], .cnt, [], 0x0, false⟩  -- R251
  | .FPORT_CNT_FEC_CORR => ⟨.FPORT, 0x100B0, [(0x100, 256)], .cnt, [], 0x0, false⟩  -- R251
  | .FPORT_CNT_FEC_UNCORR => ⟨.FPORT, 0x100B8, [(0x100, 256)], .cnt, [], 0x0, false⟩  -- R251
  | .FPORT_CNT_PAUSE_VIOL => ⟨.FPORT, 0x100C0, [(0x100, 256)], .cnt, [], 0x0, false⟩  -- R251
  | .FPORT_CNT_PFC_TX => ⟨.FPORT, 0x100C8, [(0x100, 256)], .cnt, [], 0x0, false⟩  -- R251
  | .FPORT_CNT_PFC_RX => ⟨.FPORT, 0x100D0, [(0x100, 256)], .cnt, [], 0x0, false⟩  -- R251
  | .FPORT_CNT_GPAUSE => ⟨.FPORT, 0x100D8, [(0x100, 256)], .cnt, [], 0x0, false⟩  -- R251
  | .SW_BLOCK_STATUS => ⟨.SW, 0x0, [], .ro, [], 0x0, false⟩  -- R252
  | .SW_EVENT => ⟨.SW, 0x4, [], .sqc, [], 0x0, false⟩  -- R252
  | .SW_BUF_SUM => ⟨.SW, 0x10, [], .ro, [], 0x0, false⟩  -- R252
  | .SW_PANEL_CELLS => ⟨.SW, 0x100, [(0x4, 16)], .rw, [⟨18, 0, none⟩], 0x6000, false⟩  -- R252
  | .SW_FDB_KEY_LO => ⟨.SW, 0x200, [], .rw, [⟨31, 0, none⟩], 0x0, false⟩  -- R252
  | .SW_FDB_KEY_HI => ⟨.SW, 0x204, [], .rw, [⟨15, 0, none⟩, ⟨27, 16, none⟩], 0x0, false⟩  -- R252
  | .SW_FDB_DEST => ⟨.SW, 0x208, [], .rw, [⟨15, 15, none⟩, ⟨14, 14, none⟩, ⟨11, 0, none⟩], 0x0, false⟩  -- R252
  | .SW_FDB_CMD => ⟨.SW, 0x20C, [], .wo, [], 0x0, false⟩  -- R252
  | .SW_FDB_STATUS => ⟨.SW, 0x210, [], .ro, [], 0x0, false⟩  -- R252
  | .SW_CNT_AGED => ⟨.SW, 0x1000, [(0x8, 8)], .cnt, [], 0x0, false⟩  -- R252
  | .SW_CNT_FLUSH => ⟨.SW, 0x1040, [(0x8, 8)], .cnt, [], 0x0, false⟩  -- R252
  | .SW_CNT_NO_ENTRY => ⟨.SW, 0x1080, [], .cnt, [], 0x0, false⟩  -- R252
  | .SW_CNT_CLASS_OFF => ⟨.SW, 0x1088, [], .cnt, [], 0x0, false⟩  -- R252
  | .SW_LIMIT => ⟨.SW, 0x10000, [(0x40, 256), (0x8, 8)], .rws, [⟨18, 0, none⟩], 0x0, false⟩  -- R252
  | .SW_PFC => ⟨.SW, 0x10004, [(0x40, 256), (0x8, 8)], .rws, [⟨11, 0, none⟩, ⟨27, 16, none⟩], 0x400000, false⟩  -- R252
  | .SW_OCC => ⟨.SW, 0x20000, [(0x20, 256), (0x4, 8)], .ro, [], 0x0, false⟩  -- R252
  | .SW_CT => ⟨.SW, 0x30000, [(0x4, 256)], .rws, [⟨7, 0, none⟩], 0xFF, false⟩  -- R252
  | .TM_BLOCK_STATUS => ⟨.TM, 0x0, [], .ro, [], 0x0, false⟩  -- R253
  | .TM_EVENT => ⟨.TM, 0x4, [], .sqc, [], 0x0, false⟩  -- R253
  | .TM_SPW_CTRL => ⟨.TM, 0x10000, [(0x40, 16)], .rws, [⟨11, 8, none⟩, ⟨1, 1, none⟩, ⟨0, 0, none⟩], 0x2, false⟩  -- R187
  | .TM_SPW_BASE_NS => ⟨.TM, 0x10004, [(0x40, 16)], .rws, [⟨29, 0, some (0, 999999999)⟩], 0x0, false⟩  -- R187
  | .TM_SPW_BASE_SEC_LO => ⟨.TM, 0x10008, [(0x40, 16)], .rws, [⟨31, 0, none⟩], 0x0, false⟩  -- R187
  | .TM_SPW_BASE_SEC_HI => ⟨.TM, 0x1000C, [(0x40, 16)], .rws, [⟨15, 0, none⟩], 0x0, false⟩  -- R187
  | .TM_SPW_CYCLE => ⟨.TM, 0x10010, [(0x40, 16)], .rws, [⟨26, 0, some (125, 125000000)⟩], 0x0, false⟩  -- R187
  | .TM_SPW_OPEN => ⟨.TM, 0x10014, [(0x40, 16)], .rws, [⟨26, 0, some (125, 125000000)⟩], 0x0, false⟩  -- R187
  | .TM_SPW_STATUS => ⟨.TM, 0x10018, [(0x40, 16)], .ro, [], 0x0, false⟩  -- R187
  | .TM_SPW_EVENT => ⟨.TM, 0x1001C, [(0x40, 16)], .sqc, [], 0x0, false⟩  -- R187
  | .TM_SPW_CNT_OPEN => ⟨.TM, 0x10020, [(0x40, 16)], .cnt, [], 0x0, false⟩  -- R187
  | .TM_POL_CTRL => ⟨.TM, 0x40000, [(0x100, 256), (0x10, 8)], .rws, [⟨0, 0, none⟩], 0x0, false⟩  -- R253
  | .TM_POL_RATE => ⟨.TM, 0x40004, [(0x100, 256), (0x10, 8)], .rws, [⟨23, 0, some (1, 16000)⟩], 0x0, false⟩  -- R253
  | .TM_POL_BURST => ⟨.TM, 0x40008, [(0x100, 256), (0x10, 8)], .rws, [⟨23, 0, some (144, 16777215)⟩], 0x0, false⟩  -- R253
  | .TM_SHP_CTRL => ⟨.TM, 0x60000, [(0x100, 256), (0x10, 8)], .rws, [⟨0, 0, none⟩, ⟨1, 1, none⟩], 0x2, false⟩  -- R253
  | .TM_SHP_RATE => ⟨.TM, 0x60004, [(0x100, 256), (0x10, 8)], .rws, [⟨23, 0, some (1, 16000)⟩], 0x0, false⟩  -- R253
  | .TM_SHP_BURST => ⟨.TM, 0x60008, [(0x100, 256), (0x10, 8)], .rws, [⟨23, 0, some (144, 16777215)⟩], 0x0, false⟩  -- R253
  | .TM_SCH_WT => ⟨.TM, 0x80000, [(0x40, 256), (0x4, 5)], .rws, [⟨7, 0, some (1, 255)⟩, ⟨27, 16, none⟩], 0x400010, false⟩  -- R253
  | .TM_CNT_POL_DROP => ⟨.TM, 0x90000, [(0x80, 256), (0x8, 8)], .cnt, [], 0x0, false⟩  -- R253
  | .TM_GCL_CMD => ⟨.TM, 0x100000, [(0x1000, 256)], .wo, [], 0x0, false⟩  -- R253
  | .TM_GCL_STATUS => ⟨.TM, 0x100004, [(0x1000, 256)], .ro, [], 0x0, false⟩  -- R253
  | .TM_GCL_SB_LEN => ⟨.TM, 0x100008, [(0x1000, 256)], .rw, [⟨8, 0, none⟩], 0x0, false⟩  -- R238, R253: an unusable length is refused at COMMIT
  | .TM_GCL_SB_CYCLE => ⟨.TM, 0x10000C, [(0x1000, 256)], .rw, [⟨26, 0, some (125, 125000000)⟩], 0x0, false⟩  -- R253
  | .TM_GCL_SB_BASE_NS => ⟨.TM, 0x100010, [(0x1000, 256)], .rw, [⟨29, 0, some (0, 999999999)⟩], 0x0, false⟩  -- R253
  | .TM_GCL_SB_BASE_SEC_LO => ⟨.TM, 0x100014, [(0x1000, 256)], .rw, [⟨31, 0, none⟩], 0x0, false⟩  -- R253
  | .TM_GCL_SB_BASE_SEC_HI => ⟨.TM, 0x100018, [(0x1000, 256)], .rw, [⟨15, 0, none⟩], 0x0, false⟩  -- R253
  | .TM_GCL_SB_ENTRY => ⟨.TM, 0x100400, [(0x1000, 256), (0x4, 256)], .rw, [⟨31, 24, none⟩, ⟨23, 0, some (1, 16777215)⟩], 0x0, false⟩  -- R253
  | .TM_GCL_ENTRY => ⟨.TM, 0x100800, [(0x1000, 256), (0x4, 256)], .ro, [], 0x0, false⟩  -- R253
  | .BAST_BLOCK_STATUS => ⟨.BAST, 0x0, [], .ro, [], 0x0, false⟩  -- R254
  | .BAST_EVENT => ⟨.BAST, 0x4, [], .sqc, [], 0x0, false⟩  -- R254
  | .BAST_GWID => ⟨.BAST, 0x8, [], .rw, [⟨15, 0, none⟩], 0x0, false⟩  -- R254
  | .BAST_CIRC_CFG => ⟨.BAST, 0x1000, [(0x20, 32)], .rw, [⟨31, 31, none⟩, ⟨30, 29, some (0, 1)⟩, ⟨24, 16, none⟩, ⟨8, 0, none⟩], 0x0, false⟩  -- R254
  | .BAST_CIRC_STATUS => ⟨.BAST, 0x1004, [(0x20, 32)], .ro, [], 0x0, false⟩  -- R254
  | .BAST_CIRC_PEER => ⟨.BAST, 0x1008, [(0x20, 32), (0x4, 4)], .rw, [⟨31, 0, none⟩], 0x0, false⟩  -- R254
  | .BAST_CNT_TX => ⟨.BAST, 0x1018, [(0x20, 32)], .cnt, [], 0x0, false⟩  -- R254
  | .BAST_RX_CFG => ⟨.BAST, 0x2000, [(0x20, 32)], .rw, [⟨31, 31, none⟩, ⟨30, 30, none⟩, ⟨8, 0, none⟩], 0x0, false⟩  -- R254
  | .BAST_RX_STATUS => ⟨.BAST, 0x2004, [(0x20, 32)], .ro, [], 0x0, false⟩  -- R254
  | .BAST_CNT_RX => ⟨.BAST, 0x2008, [(0x20, 32)], .cnt, [], 0x0, false⟩  -- R254
  | .BAST_CNT_RX_CRC => ⟨.BAST, 0x2010, [(0x20, 32)], .cnt, [], 0x0, false⟩  -- R254
  | .SEAM_BLOCK_STATUS => ⟨.SEAM, 0x0, [(0x80000, 32)], .ro, [], 0x0, false⟩  -- R114
  | .SEAM_ENG_EVENT => ⟨.SEAM, 0x4, [(0x80000, 32)], .sqc, [], 0x0, false⟩  -- R114
  | .SEAM_SP_ADDR => ⟨.SEAM, 0x10, [(0x80000, 32)], .rw, [⟨31, 28, none⟩, ⟨22, 2, none⟩], 0x0, false⟩  -- R114
  | .SEAM_SP_DATA => ⟨.SEAM, 0x14, [(0x80000, 32)], .rw, [⟨31, 0, none⟩], 0x0, false⟩  -- R114
  | .SEAM_PANEL_WT => ⟨.SEAM, 0x40, [(0x80000, 32), (0x4, 4)], .rw, [⟨31, 0, none⟩], 0x01010101, false⟩  -- R114
  | .SEAM_CNT_INVOKE => ⟨.SEAM, 0x100, [(0x80000, 32)], .cnt, [], 0x0, false⟩  -- R114
  | .SEAM_CNT_ISSUE => ⟨.SEAM, 0x108, [(0x80000, 32)], .cnt, [], 0x0, false⟩  -- R114
  | .SEAM_CNT_STALL => ⟨.SEAM, 0x110, [(0x80000, 32)], .cnt, [], 0x0, false⟩  -- R114
  | .SEAM_CNT_IDX_OOR => ⟨.SEAM, 0x118, [(0x80000, 32)], .cnt, [], 0x0, false⟩  -- R114
  | .SEAM_SLOT_CTRL => ⟨.SEAM, 0x800, [(0x80000, 32), (0x20, 8)], .wo, [], 0x0, false⟩  -- R114
  | .SEAM_SLOT_STATUS => ⟨.SEAM, 0x804, [(0x80000, 32), (0x20, 8)], .ro, [], 0x0, false⟩  -- R116
  | .SEAM_SLOT_SBCFG => ⟨.SEAM, 0x808, [(0x80000, 32), (0x20, 8)], .rw, [⟨19, 16, some (0, 10)⟩, ⟨15, 8, none⟩, ⟨7, 0, none⟩], 0x0, false⟩  -- R115
  | .SEAM_SLOT_CFG => ⟨.SEAM, 0x80C, [(0x80000, 32), (0x20, 8)], .ro, [], 0x0, false⟩  -- R115
  | .SEAM_SLOT_SBCRC => ⟨.SEAM, 0x810, [(0x80000, 32), (0x20, 8)], .rw, [⟨31, 0, none⟩], 0x0, false⟩  -- R114
  | .SEAM_CTX_ARITH => ⟨.SEAM, 0x1000, [(0x80000, 32), (0x40, 16)], .rws, [⟨11, 8, none⟩, ⟨3, 2, none⟩, ⟨0, 0, none⟩], 0xC, false⟩  -- R71
  | .SEAM_CTX_BIND => ⟨.SEAM, 0x1004, [(0x80000, 32), (0x40, 16)], .rws, [⟨31, 31, none⟩, ⟨30, 27, none⟩, ⟨26, 24, none⟩, ⟨23, 23, none⟩, ⟨22, 18, none⟩, ⟨17, 14, none⟩, ⟨10, 0, some (0, 1535)⟩], 0x0, false⟩  -- R117
  | .SEAM_CTX_STATUS => ⟨.SEAM, 0x1008, [(0x80000, 32), (0x40, 16)], .ro, [], 0x0, false⟩  -- R118
  | .SEAM_CTX_EVENT => ⟨.SEAM, 0x100C, [(0x80000, 32), (0x40, 16)], .sqc, [], 0x0, false⟩  -- R118
  | .SEAM_CTX_FCAUSE => ⟨.SEAM, 0x1010, [(0x80000, 32), (0x40, 16)], .ro, [], 0x0, false⟩  -- R114
  | .SEAM_SB_PAGE => ⟨.SEAM, 0x10000, [(0x80000, 32), (0x800, 8), (0x4, 512)], .rw, [⟨31, 0, none⟩], 0x0, false⟩  -- R114
  | .SEAM_ACT_PAGE => ⟨.SEAM, 0x18000, [(0x80000, 32), (0x800, 8), (0x4, 512)], .ro, [], 0x0, false⟩  -- R114
  | .CCO_BLOCK_STATUS => ⟨.CCO, 0x0, [], .ro, [], 0x0, false⟩  -- R161
  | .CCO_EVENT => ⟨.CCO, 0x4, [], .sqc, [], 0x0, true⟩  -- R161
  | .CCO_CFG => ⟨.CCO, 0x8, [], .rws, [⟨0, 0, none⟩], 0x0, false⟩  -- R161
  | .CCO_CMD_ADDR_LO => ⟨.CCO, 0x10, [], .rw, [⟨31, 0, none⟩], 0x0, true⟩  -- R161
  | .CCO_CMD_ADDR_HI => ⟨.CCO, 0x14, [], .rw, [⟨31, 0, none⟩], 0x0, true⟩  -- R161
  | .CCO_CMD => ⟨.CCO, 0x18, [], .wo, [], 0x0, true⟩  -- R161
  | .CCO_CMD_STATUS => ⟨.CCO, 0x1C, [], .ro, [], 0x0, true⟩  -- R161
  | .CCO_UDP_PORT => ⟨.CCO, 0x20, [], .rws, [⟨15, 0, none⟩], 0xB810, false⟩  -- R161
  | .CCO_MISS_CFG => ⟨.CCO, 0x24, [], .rws, [⟨15, 0, none⟩, ⟨19, 16, none⟩], 0x807D0, true⟩  -- R161
  | .CCO_SLG_CFG => ⟨.CCO, 0x28, [], .rws, [⟨7, 0, none⟩, ⟨12, 8, some (10, 20)⟩], 0xE40, true⟩  -- R161
  | .CCO_RING_BASE_LO => ⟨.CCO, 0x30, [], .rw, [⟨31, 0, none⟩], 0x0, true⟩  -- R161
  | .CCO_RING_BASE_HI => ⟨.CCO, 0x34, [], .rw, [⟨31, 0, none⟩], 0x0, true⟩  -- R161
  | .CCO_CNT_DEEP => ⟨.CCO, 0x100, [], .cnt, [], 0x0, false⟩  -- R161
  | .CCO_CNT_DUP => ⟨.CCO, 0x108, [], .cnt, [], 0x0, true⟩  -- R161
  | .CCO_CNT_RDMA_IGN => ⟨.CCO, 0x110, [], .cnt, [], 0x0, true⟩  -- R161
  | .CCO_CNT_NACK => ⟨.CCO, 0x1000, [(0x8, 256)], .cnt, [], 0x0, true⟩  -- R161
  | .CCO_CNT_ABORT => ⟨.CCO, 0x2000, [(0x8, 256)], .cnt, [], 0x0, true⟩  -- R161
  | .CCO_SLG_ENTRY => ⟨.CCO, 0x10000, [(0x4, 4)], .ro, [], 0x0, true⟩  -- R161; its index i = 0 alone (log 84)
  | .PLT_BLOCK_STATUS => ⟨.PLT, 0x0, [], .ro, [], 0x0, false⟩  -- R212
  | .PLT_EVENT => ⟨.PLT, 0x4, [], .sqc, [], 0x0, false⟩  -- R212
  | .PLT_CMD_ADDR_LO => ⟨.PLT, 0x10, [], .rw, [⟨31, 0, none⟩], 0x0, false⟩  -- R212
  | .PLT_CMD_ADDR_HI => ⟨.PLT, 0x14, [], .rw, [⟨31, 0, none⟩], 0x0, false⟩  -- R212
  | .PLT_CMD => ⟨.PLT, 0x18, [], .wo, [], 0x0, false⟩  -- R212
  | .PLT_CMD_STATUS => ⟨.PLT, 0x1C, [], .ro, [], 0x0, false⟩  -- R212
  | .PLT_PANEL_MAXQ => ⟨.PLT, 0x40, [(0x4, 16)], .rws, [⟨9, 0, some (1, 512)⟩], 0x200, false⟩  -- R212
  | .PLT_CNT_ENC_BLK => ⟨.PLT, 0x100, [], .cnt, [], 0x0, false⟩  -- R212
  | .PLT_CNT_DEC_BLK => ⟨.PLT, 0x108, [], .cnt, [], 0x0, false⟩  -- R212
  | .PLT_CNT_ENC_SAT => ⟨.PLT, 0x110, [], .cnt, [], 0x0, false⟩  -- R212
  | .PLT_CNT_CB_MISMATCH => ⟨.PLT, 0x118, [], .cnt, [], 0x0, false⟩  -- R212
  | .PLT_CTX_CB => ⟨.PLT, 0x1000, [(0x40, 32), (0x4, 16)], .rws, [⟨31, 31, none⟩, ⟨7, 0, none⟩], 0x0, false⟩  -- R213
  | .PLT_CB_STATUS => ⟨.PLT, 0x2000, [(0x10, 256)], .ro, [], 0x0, false⟩  -- R214
  | .PLT_CB_FP => ⟨.PLT, 0x2004, [(0x10, 256)], .ro, [], 0x0, false⟩  -- R212
  | .BOB_BLOCK_STATUS => ⟨.BOB, 0x0, [], .ro, [], 0x0, false⟩  -- R279
  | .BOB_EVENT => ⟨.BOB, 0x4, [], .sqc, [], 0x0, false⟩  -- R279
  | .BOB_CELL_FREE => ⟨.BOB, 0x10, [], .ro, [], 0x0, false⟩  -- R279
  | .BOB_PF_HANDLE => ⟨.BOB, 0x20, [], .ro, [], 0x0, false⟩  -- R279
  | .BOB_PF_INFO => ⟨.BOB, 0x24, [], .ro, [], 0x0, false⟩  -- R279
  | .BOB_SPOOL_COUNT => ⟨.BOB, 0x100, [(0x20, 6)], .ro, [], 0x0, false⟩  -- R279
  | .BOB_SPOOL_PRIV => ⟨.BOB, 0x104, [(0x20, 6)], .ro, [], 0x0, false⟩  -- R279
  | .BOB_SPOOL_FREE => ⟨.BOB, 0x108, [(0x20, 6)], .ro, [], 0x0, false⟩  -- R279
  | .BOB_SPOOL_PFREE => ⟨.BOB, 0x10C, [(0x20, 6)], .ro, [], 0x0, false⟩  -- R279
  | .BOB_SPOOL_CACHE => ⟨.BOB, 0x110, [(0x20, 6)], .ro, [], 0x0, false⟩  -- R279
  | .BOB_CNT_PTR_FAULT => ⟨.BOB, 0x1000, [], .cnt, [], 0x0, false⟩  -- R279
  | .BOB_CNT_OUTGROW => ⟨.BOB, 0x1008, [], .cnt, [], 0x0, false⟩  -- R279
  | .BOB_CNT_NO_BOBBIN => ⟨.BOB, 0x1010, [], .cnt, [], 0x0, false⟩  -- R279
  | .BOB_CNT_PRIV_FALLBACK => ⟨.BOB, 0x1018, [], .cnt, [], 0x0, false⟩  -- R279
  | .BOB_CNT_RING_LOST => ⟨.BOB, 0x1020, [], .cnt, [], 0x0, false⟩  -- R279
  | .MEM_BLOCK_STATUS => ⟨.MEM, 0x0, [], .ro, [], 0x0, false⟩  -- R280
  | .MEM_EVENT => ⟨.MEM, 0x4, [], .sqc, [], 0x0, true⟩  -- R280
  | .MEM_LAYOUT => ⟨.MEM, 0x10, [], .ro, [], 0x0, false⟩  -- R280
  | .MEM_APT_BASE_LO => ⟨.MEM, 0x20, [], .rw, [⟨31, 22, none⟩], 0x0, true⟩  -- R280
  | .MEM_APT_BASE_HI => ⟨.MEM, 0x24, [], .rw, [⟨7, 0, none⟩], 0x0, true⟩  -- R280
  | .MEM_UE_ADDR_LO => ⟨.MEM, 0x30, [], .ro, [], 0x0, false⟩  -- R280
  | .MEM_UE_ADDR_HI => ⟨.MEM, 0x34, [], .ro, [], 0x0, false⟩  -- R280
  | .MEM_SCRUB_CFG => ⟨.MEM, 0x40, [], .rw, [⟨7, 0, some (1, 168)⟩], 0x18, false⟩  -- R280
  | .MEM_SCRUB_POS => ⟨.MEM, 0x44, [], .ro, [], 0x0, false⟩  -- R280
  | .MEM_PANEL_QUOTA => ⟨.MEM, 0x100, [(0x4, 16)], .rw, [⟨31, 16, none⟩, ⟨15, 0, none⟩], 0x0, false⟩  -- R280
  | .MEM_CNT_CE => ⟨.MEM, 0x1000, [(0x40, 8)], .cnt, [], 0x0, false⟩  -- R280
  | .MEM_CNT_UE => ⟨.MEM, 0x1008, [(0x40, 8)], .cnt, [], 0x0, false⟩  -- R280
  | .MEM_CNT_RD_BYTES => ⟨.MEM, 0x1010, [(0x40, 8)], .cnt, [], 0x0, false⟩  -- R280
  | .MEM_CNT_WR_BYTES => ⟨.MEM, 0x1018, [(0x40, 8)], .cnt, [], 0x0, false⟩  -- R280
  | .MEM_REM_SHARE => ⟨.MEM, 0x8000, [], .rws, [⟨5, 0, some (1, 48)⟩], 0x20, false⟩  -- R183
  | .MEM_REM_CNT_RD => ⟨.MEM, 0x8008, [], .cnt, [], 0x0, false⟩  -- R183
  | .MEM_REM_CNT_WR => ⟨.MEM, 0x8010, [], .cnt, [], 0x0, false⟩  -- R183
  | .MEM_REM_CNT_THR => ⟨.MEM, 0x8018, [], .cnt, [], 0x0, false⟩  -- R183
  | .SELV_BLOCK_STATUS => ⟨.SELV, 0x0, [], .ro, [], 0x0, false⟩  -- R310
  | .SELV_EVENT => ⟨.SELV, 0x4, [], .sqc, [], 0x0, false⟩  -- R310
  | .SELV_RTX_SLOTS => ⟨.SELV, 0x10, [], .ro, [], 0x0, false⟩  -- R310
  | .SELV_RTX_USED => ⟨.SELV, 0x14, [], .ro, [], 0x0, false⟩  -- R310
  | .SELV_ACK_CFG => ⟨.SELV, 0x20, [], .rws, [⟨11, 0, some (1, 1000)⟩, ⟨23, 16, some (1, 255)⟩], 0x400014, false⟩  -- R310
  | .SELV_PACK_HOLD => ⟨.SELV, 0x24, [], .rws, [⟨15, 0, some (100, 50000)⟩], 0x7D0, false⟩  -- R310
  | .SELV_TWIN_CFG => ⟨.SELV, 0x40, [], .rw, [⟨31, 31, none⟩, ⟨30, 30, none⟩, ⟨29, 29, none⟩, ⟨15, 0, none⟩], 0xB811, false⟩  -- R310
  | .SELV_TWIN_IP => ⟨.SELV, 0x44, [(0x4, 4)], .rw, [⟨31, 0, none⟩], 0x0, false⟩  -- R310
  | .SELV_TWIN_PERIOD => ⟨.SELV, 0x54, [], .rw, [⟨15, 0, some (100, 10000)⟩], 0x3E8, false⟩  -- R310
  | .SELV_TWIN_RESV => ⟨.SELV, 0x58, [], .rw, [⟨28, 0, some (65536, 268435456)⟩], 0x400000, false⟩  -- R310
  | .SELV_TWIN_STATUS => ⟨.SELV, 0x5C, [], .ro, [], 0x0, false⟩  -- R310
  | .SELV_TWIN_CMD => ⟨.SELV, 0x60, [], .wo, [], 0x0, false⟩  -- R310
  | .SELV_TWIN_SEQ => ⟨.SELV, 0x64, [], .ro, [], 0x0, false⟩  -- R310
  | .SELV_CNT_TX_SEG => ⟨.SELV, 0x100, [], .cnt, [], 0x0, false⟩  -- R310
  | .SELV_CNT_RX_SEG => ⟨.SELV, 0x108, [], .cnt, [], 0x0, false⟩  -- R310
  | .SELV_CNT_RTX_SEG => ⟨.SELV, 0x110, [], .cnt, [], 0x0, false⟩  -- R310
  | .SELV_CNT_RX_BAD => ⟨.SELV, 0x118, [], .cnt, [], 0x0, false⟩  -- R310
  | .SELV_CNT_RX_NOSESS => ⟨.SELV, 0x120, [], .cnt, [], 0x0, false⟩  -- R310
  | .SELV_CNT_EARLY => ⟨.SELV, 0x128, [], .cnt, [], 0x0, false⟩  -- R310
  | .SELV_CNT_TAG_FAIL => ⟨.SELV, 0x130, [], .cnt, [], 0x0, false⟩  -- R310
  | .SELV_CNT_OLD_GEN => ⟨.SELV, 0x138, [], .cnt, [], 0x0, false⟩  -- R310
  | .SELV_CNT_REPLAY => ⟨.SELV, 0x140, [], .cnt, [], 0x0, false⟩  -- R310
  | .SELV_CNT_DUP => ⟨.SELV, 0x148, [], .cnt, [], 0x0, false⟩  -- R310
  | .SELV_CNT_RX_DISCARD => ⟨.SELV, 0x150, [], .cnt, [], 0x0, false⟩  -- R310
  | .SELV_CNT_NO_COLL => ⟨.SELV, 0x158, [], .cnt, [], 0x0, false⟩  -- R310
  | .SELV_CNT_GEN_DISCARD => ⟨.SELV, 0x160, [], .cnt, [], 0x0, false⟩  -- R310
  | .SELV_SESS_CFG => ⟨.SELV, 0x10000, [(0x40, 4096)], .rws, [⟨31, 31, none⟩, ⟨30, 27, none⟩, ⟨26, 25, some (0, 1)⟩, ⟨21, 16, none⟩, ⟨7, 0, none⟩], 0x0, false⟩  -- R311
  | .SELV_SESS_PEER => ⟨.SELV, 0x10004, [(0x40, 4096)], .rws, [⟨11, 0, none⟩], 0x0, false⟩  -- R310
  | .SELV_SESS_RTT => ⟨.SELV, 0x10008, [(0x40, 4096)], .rws, [⟨15, 0, some (100, 50000)⟩], 0x61A8, false⟩  -- R310
  | .SELV_SESS_WIN => ⟨.SELV, 0x1000C, [(0x40, 4096)], .rws, [⟨24, 0, some (1, 16777216)⟩], 0x1000000, false⟩  -- R310
  | .SELV_SESS_STALL => ⟨.SELV, 0x10010, [(0x40, 4096)], .rws, [⟨15, 0, some (10, 10000)⟩, ⟨23, 16, some (1, 255)⟩], 0x1000C8, false⟩  -- R310
  | .SELV_SESS_CTRL => ⟨.SELV, 0x10014, [(0x40, 4096)], .wo, [], 0x0, false⟩  -- R310
  | .SELV_SESS_STATUS => ⟨.SELV, 0x10018, [(0x40, 4096)], .ro, [], 0x0, false⟩  -- R310
  | .SELV_SESS_EVENT => ⟨.SELV, 0x1001C, [(0x40, 4096)], .sqc, [], 0x0, false⟩  -- R310
  | .SELV_SESS_SNDNXT => ⟨.SELV, 0x10020, [(0x40, 4096)], .ro, [], 0x0, false⟩  -- R310
  | .SELV_SESS_SNDUNA => ⟨.SELV, 0x10024, [(0x40, 4096)], .ro, [], 0x0, false⟩  -- R310
  | .SELV_SESS_RCVNXT => ⟨.SELV, 0x10028, [(0x40, 4096)], .ro, [], 0x0, false⟩  -- R310
  | .SELV_SESS_FCAUSE => ⟨.SELV, 0x1002C, [(0x40, 4096)], .ro, [], 0x0, false⟩  -- R310
  | .SELV_SESS_TXC => ⟨.SELV, 0x10030, [(0x40, 4096)], .cntv, [], 0x0, false⟩  -- R310
  | .LINE_BLOCK_STATUS => ⟨.LINE, 0x0, [], .ro, [], 0x0, false⟩  -- R335
  | .LINE_EVENT => ⟨.LINE, 0x4, [], .sqc, [], 0x0, false⟩  -- R335
  | .LINE_SKEW_USED => ⟨.LINE, 0x10, [], .ro, [], 0x0, false⟩  -- R335
  | .LINE_GRP_CFG => ⟨.LINE, 0x10000, [(0x100, 64)], .rws, [⟨31, 31, none⟩, ⟨30, 30, none⟩, ⟨15, 0, none⟩], 0x0, false⟩  -- R336
  | .LINE_GRP_PROT => ⟨.LINE, 0x10004, [(0x100, 64)], .rws, [⟨31, 31, none⟩, ⟨30, 30, none⟩, ⟨23, 16, some (1, 255)⟩, ⟨13, 8, none⟩, ⟨5, 0, none⟩], 0x3C0000, false⟩  -- R335
  | .LINE_GRP_SKEW_BUF => ⟨.LINE, 0x10008, [(0x100, 64)], .rws, [⟨9, 0, some (0, 512)⟩], 0x0, false⟩  -- R335
  | .LINE_GRP_STATUS => ⟨.LINE, 0x1000C, [(0x100, 64)], .ro, [], 0x0, false⟩  -- R335
  | .LINE_GRP_EVENT => ⟨.LINE, 0x10010, [(0x100, 64)], .sqc, [], 0x0, false⟩  -- R335
  | .LINE_GRP_TX_ACTIVE => ⟨.LINE, 0x10018, [(0x100, 64)], .cntv, [], 0x0, false⟩  -- R335
  | .LINE_GRP_RX_ACTIVE => ⟨.LINE, 0x10020, [(0x100, 64)], .cntv, [], 0x0, false⟩  -- R335
  | .LINE_GRP_SKEW => ⟨.LINE, 0x10028, [(0x100, 64)], .ro, [], 0x0, false⟩  -- R335
  | .LINE_GRP_CM_CTRL => ⟨.LINE, 0x10030, [(0x100, 64)], .wo, [], 0x0, false⟩  -- R335
  | .LINE_GRP_CM_STATUS => ⟨.LINE, 0x10034, [(0x100, 64)], .ro, [], 0x0, false⟩  -- R337
  | .LINE_GRP_CM_SBCRC => ⟨.LINE, 0x10038, [(0x100, 64)], .rw, [⟨31, 0, none⟩], 0x0, false⟩  -- R335
  | .LINE_GRP_CM_SBGEN => ⟨.LINE, 0x1003C, [(0x100, 64)], .rw, [⟨15, 0, none⟩], 0x0, false⟩  -- R335
  | .LINE_GRP_CM_GEN => ⟨.LINE, 0x10040, [(0x100, 64)], .ro, [], 0x0, false⟩  -- R335
  | .LINE_GRP_CNT_TX_DATA => ⟨.LINE, 0x10048, [(0x100, 64)], .cnt, [], 0x0, false⟩  -- R335
  | .LINE_GRP_CNT_TX_IDLE => ⟨.LINE, 0x10050, [(0x100, 64)], .cnt, [], 0x0, false⟩  -- R335
  | .LINE_GRP_CNT_RX_DATA => ⟨.LINE, 0x10058, [(0x100, 64)], .cnt, [], 0x0, false⟩  -- R335
  | .LINE_GRP_CNT_LOST => ⟨.LINE, 0x10060, [(0x100, 64)], .cnt, [], 0x0, false⟩  -- R335
  | .LINE_GRP_CNT_HUNT => ⟨.LINE, 0x10068, [(0x100, 64)], .cnt, [], 0x0, false⟩  -- R335
  | .LINE_GRP_CNT_SLOT_MISMATCH => ⟨.LINE, 0x10070, [(0x100, 64)], .cnt, [], 0x0, false⟩  -- R335
  | .LINE_CH_CFG => ⟨.LINE, 0x20000, [(0x40, 64)], .rws, [⟨31, 31, none⟩, ⟨29, 24, none⟩, ⟨21, 16, none⟩], 0x0, false⟩  -- R335
  | .LINE_CH_CMD => ⟨.LINE, 0x20004, [(0x40, 64)], .wo, [], 0x0, false⟩  -- R335
  | .LINE_CH_STATUS => ⟨.LINE, 0x20008, [(0x40, 64)], .ro, [], 0x3000000, false⟩  -- R337
  | .LINE_CH_EVENT => ⟨.LINE, 0x2000C, [(0x40, 64)], .sqc, [], 0x0, false⟩  -- R335
  | .LINE_CH_TTI => ⟨.LINE, 0x20010, [(0x40, 64), (0x4, 4)], .ro, [], 0x0, false⟩  -- R335
  | .LINE_CH_CNT_FEC_CORR => ⟨.LINE, 0x20020, [(0x40, 64)], .cnt, [], 0x0, false⟩  -- R335
  | .LINE_CH_CNT_FEC_UNCORR => ⟨.LINE, 0x20028, [(0x40, 64)], .cnt, [], 0x0, false⟩  -- R335
  | .LINE_CH_CNT_DEFECT => ⟨.LINE, 0x20030, [(0x40, 64)], .cnt, [], 0x0, false⟩  -- R335
  | .LINE_CM_TX_SB => ⟨.LINE, 0x100000, [(0x4000, 64), (0x4, 640)], .rw, [⟨31, 31, none⟩, ⟨11, 0, none⟩], 0x0, false⟩  -- R335
  | .LINE_CM_RX_SB => ⟨.LINE, 0x101000, [(0x4000, 64), (0x4, 640)], .rw, [⟨31, 31, none⟩, ⟨11, 0, none⟩], 0x0, false⟩  -- R335
  | .LINE_CM_TX_ACT => ⟨.LINE, 0x102000, [(0x4000, 64), (0x4, 640)], .ro, [], 0x0, false⟩  -- R335
  | .LINE_CM_RX_ACT => ⟨.LINE, 0x103000, [(0x4000, 64), (0x4, 640)], .ro, [], 0x0, false⟩  -- R335
  | .OPT_BLOCK_STATUS => ⟨.OPT, 0x0, [(0x100000, 4)], .ro, [], 0x0, false⟩  -- R358
  | .OPT_EVENT => ⟨.OPT, 0x4, [(0x100000, 4)], .sqc, [], 0x0, false⟩  -- R358
  | .OPT_STATUS => ⟨.OPT, 0x8, [(0x100000, 4)], .ro, [], 0x0, false⟩  -- R358
  | .OPT_BAND => ⟨.OPT, 0x10, [(0x100000, 4)], .rws, [⟨9, 0, some (0, 768)⟩], 0x0, false⟩  -- R358
  | .OPT_FIT_CFG => ⟨.OPT, 0x14, [(0x100000, 4)], .rw, [⟨0, 0, none⟩], 0x1, false⟩  -- R358
  | .OPT_FIT_CMD => ⟨.OPT, 0x18, [(0x100000, 4)], .wo, [], 0x0, false⟩  -- R358
  | .OPT_FIT_STATUS => ⟨.OPT, 0x1C, [(0x100000, 4)], .ro, [], 0x0, false⟩  -- R358
  | .OPT_LASER_BIAS => ⟨.OPT, 0x20, [(0x100000, 4)], .ro, [], 0x0, false⟩  -- R358
  | .OPT_DIE_TEMP => ⟨.OPT, 0x24, [(0x100000, 4)], .ro, [], 0x0, false⟩  -- R358
  | .OPT_CAL_CFG => ⟨.OPT, 0x30, [(0x100000, 4)], .rw, [⟨16, 0, some (60, 86400)⟩], 0xE10, false⟩  -- R358
  | .OPT_CAL_STATUS => ⟨.OPT, 0x34, [(0x100000, 4)], .ro, [], 0x0, false⟩  -- R358
  | .OPT_CNT_CAL => ⟨.OPT, 0x100, [(0x100000, 4)], .cnt, [], 0x0, false⟩  -- R358
  | .OPT_CNT_CAL_FORCED => ⟨.OPT, 0x108, [(0x100000, 4)], .cnt, [], 0x0, false⟩  -- R358
  | .OPT_CH_CTRL => ⟨.OPT, 0x1000, [(0x100000, 4), (0x40, 16)], .rws, [⟨31, 31, none⟩, ⟨25, 24, some (0, 2)⟩, ⟨15, 0, some (-60, 30)⟩], 0x0, false⟩  -- R359
  | .OPT_CH_LOS_THR => ⟨.OPT, 0x1004, [(0x100000, 4), (0x40, 16)], .rws, [⟨31, 16, none⟩, ⟨15, 0, none⟩], 0xFF2EFF10, false⟩  -- R358
  | .OPT_CH_STATUS => ⟨.OPT, 0x1008, [(0x100000, 4), (0x40, 16)], .ro, [], 0x1, false⟩  -- R360
  | .OPT_CH_EVENT => ⟨.OPT, 0x100C, [(0x100000, 4), (0x40, 16)], .sqc, [], 0x0, false⟩  -- R358
  | .OPT_CH_RXPWR => ⟨.OPT, 0x1010, [(0x100000, 4), (0x40, 16)], .ro, [], 0x0, false⟩  -- R358
  | .OPT_CH_CMD => ⟨.OPT, 0x1014, [(0x100000, 4), (0x40, 16)], .wo, [], 0x0, false⟩  -- R358
  | .OPT_CH_CNT_LOS => ⟨.OPT, 0x1018, [(0x100000, 4), (0x40, 16)], .cnt, [], 0x0, false⟩  -- R358
  | .DBG_BLOCK_STATUS => ⟨.DBG, 0x0, [], .ro, [], 0x0, false⟩  -- R468
  | .DBG_EVENT => ⟨.DBG, 0x4, [], .sqc, [], 0x0, false⟩  -- R468
  | .DBG_TRACE_CFG => ⟨.DBG, 0x8, [], .rw, [⟨23, 16, some (1, 255)⟩, ⟨13, 8, some (1, 16)⟩, ⟨1, 1, none⟩, ⟨0, 0, none⟩], 0x640200, false⟩  -- R469
  | .DBG_DEV_RING_HEAD => ⟨.DBG, 0x10, [], .cnt, [], 0x0, false⟩  -- R468
  | .DBG_LOG_STATUS => ⟨.DBG, 0x20, [], .ro, [], 0x0, false⟩  -- R468
  | .DBG_LOG_MAXERASE => ⟨.DBG, 0x24, [], .ro, [], 0x0, false⟩  -- R468
  | .DBG_CNT_TRACE_REC => ⟨.DBG, 0x100, [], .cnt, [], 0x0, false⟩  -- R468
  | .DBG_CNT_TRACE_LOST => ⟨.DBG, 0x108, [], .cnt, [], 0x0, false⟩  -- R468
  | .DBG_CNT_LOG_WRITE => ⟨.DBG, 0x110, [], .cnt, [], 0x0, false⟩  -- R468
  | .DBG_CNT_LOG_ERASE => ⟨.DBG, 0x118, [], .cnt, [], 0x0, false⟩  -- R468
  | .DBG_PNL_FLAG => ⟨.DBG, 0x200, [(0x40, 16), (0x8, 5)], .cnt, [], 0x0, false⟩  -- R468
  | .DBG_PNL_OBS => ⟨.DBG, 0x800, [(0x4, 16)], .rw, [⟨31, 16, none⟩, ⟨15, 0, none⟩], 0x0, false⟩  -- R468
  | .DBG_FILT_KEY => ⟨.DBG, 0x1000, [(0x10, 256)], .rw, [⟨31, 0, none⟩], 0x0, false⟩  -- R468
  | .DBG_FILT_MASK => ⟨.DBG, 0x1004, [(0x10, 256)], .rw, [⟨31, 0, none⟩], 0x0, false⟩  -- R468
  | .DBG_FILT_CTRL => ⟨.DBG, 0x1008, [(0x10, 256)], .rw, [⟨31, 31, none⟩, ⟨30, 30, none⟩, ⟨3, 0, none⟩], 0x0, false⟩  -- R468
  | .DBG_FILT_CNT => ⟨.DBG, 0x2000, [(0x20, 256), (0x8, 4)], .cnt, [], 0x0, false⟩  -- R468
  | .BIST_BLOCK_STATUS => ⟨.BIST, 0x0, [], .ro, [], 0x0, false⟩  -- R470
  | .BIST_EVENT => ⟨.BIST, 0x4, [], .sqc, [], 0x0, false⟩  -- R470
  | .BIST_STATUS => ⟨.BIST, 0x8, [], .ro, [], 0x0, false⟩  -- R470
  | .BIST_CMD => ⟨.BIST, 0xC, [], .wo, [], 0x0, false⟩  -- R470
  | .BIST_CMD_STATUS => ⟨.BIST, 0x10, [], .ro, [], 0x0, false⟩  -- R470
  | .BIST_RESULT => ⟨.BIST, 0x100, [(0x4, 41)], .ro, [], 0x0, false⟩  -- R470
  | .BIST_SIG => ⟨.BIST, 0x400, [(0x8, 41)], .cntv, [], 0x0, false⟩  -- R470
  | .HLT_BLOCK_STATUS => ⟨.HLT, 0x0, [], .ro, [], 0x0, false⟩  -- R446
  | .HLT_EVENT => ⟨.HLT, 0x4, [], .sqc, [], 0x0, false⟩  -- R446
  | .HLT_CFG => ⟨.HLT, 0x8, [], .rws, [⟨24, 24, none⟩, ⟨23, 12, some (1, 1000)⟩, ⟨9, 0, some (1, 1000)⟩], 0x1032032, false⟩  -- R447
  | .HLT_PORT_STALL => ⟨.HLT, 0xC, [], .rws, [⟨10, 0, some (1, 2000)⟩], 0x64, false⟩  -- R446
  | .HLT_CMD => ⟨.HLT, 0x10, [], .wo, [], 0x0, false⟩  -- R446
  | .HLT_RECOV_STATUS => ⟨.HLT, 0x14, [], .ro, [], 0x0, false⟩  -- R446
  | .HLT_LAST_FAULT => ⟨.HLT, 0x18, [], .ro, [], 0x0, false⟩  -- R446
  | .HLT_ENG_STATE => ⟨.HLT, 0x20, [(0x4, 2)], .ro, [], 0x0, false⟩  -- R446
  | .HLT_SWATCH_SEQ => ⟨.HLT, 0x30, [], .ro, [], 0x0, false⟩  -- R446
  | .HLT_SWATCH_FLASH => ⟨.HLT, 0x34, [], .ro, [], 0x0, false⟩  -- R446
  | .HLT_TRIAL => ⟨.HLT, 0x100, [(0x4, 32)], .ro, [], 0x0, false⟩  -- R446
  | .HLT_CNT_ENG_FAULT => ⟨.HLT, 0x1000, [], .cnt, [], 0x0, false⟩  -- R446
  | .HLT_CNT_VERDICT => ⟨.HLT, 0x1008, [], .cnt, [], 0x0, false⟩  -- R446
  | .HLT_CNT_TRANSIENT => ⟨.HLT, 0x1010, [], .cnt, [], 0x0, false⟩  -- R446
  | .HLT_CNT_SUBSYS => ⟨.HLT, 0x1018, [], .cnt, [], 0x0, false⟩  -- R446
  | .HLT_CNT_DEVICE => ⟨.HLT, 0x1020, [], .cnt, [], 0x0, false⟩  -- R446
  | .HLT_CNT_PORT_STALL => ⟨.HLT, 0x1028, [], .cnt, [], 0x0, false⟩  -- R446
  | .PNL_ID => ⟨.PNL, 0x0, [(0x1000000, 16)], .ro, [], 0x0, false⟩  -- R404
  | .PNL_BLOCK_STATUS => ⟨.PNL, 0x4, [(0x1000000, 16)], .ro, [], 0x0, false⟩  -- R404
  | .PNL_EVENT => ⟨.PNL, 0x8, [(0x1000000, 16)], .sqc, [], 0x0, false⟩  -- R404
  | .PNL_STATUS => ⟨.PNL, 0xC, [(0x1000000, 16)], .ro, [], 0x0, false⟩  -- R404
  | .PNL_CTRL => ⟨.PNL, 0x10, [(0x1000000, 16)], .wo, [], 0x0, false⟩  -- R404
  | .PNL_CTX_QUOTA => ⟨.PNL, 0x14, [(0x1000000, 16)], .ro, [], 0x0, false⟩  -- R404
  | .PNL_QP_QUOTA => ⟨.PNL, 0x18, [(0x1000000, 16)], .ro, [], 0x0, false⟩  -- R404
  | .PNL_BUSERR => ⟨.PNL, 0x20, [(0x1000000, 16)], .ro, [], 0x0, false⟩  -- R404

/-- The registers of the GLB window. -/
def ridsGLB : List Rid :=
  [.GLB_ID, .GLB_BLOCK_STATUS, .GLB_EVENT, .GLB_STATUS, .GLB_STRAP, .GLB_STRAP_SMP, .GLB_PAT_STATUS, .GLB_PAT_VERSION, .GLB_READY_MS, .GLB_BUSERR_ADDR, .GLB_BUSERR_INFO, .GLB_IRQ_HOLDOFF, .GLB_PANEL_CFG, .GLB_PANEL_STATUS]

/-- The registers of the PWR window. -/
def ridsPWR : List Rid :=
  [.PWR_BLOCK_STATUS, .PWR_EVENT, .PWR_DOM_CMD, .PWR_DOM_STATUS, .PWR_CNT_ABSENT, .PWR_CNT_DRAIN_DROP]

/-- The registers of the CLK window. -/
def ridsCLK : List Rid :=
  [.CLK_BLOCK_STATUS, .CLK_EVENT, .CLK_STATUS, .CLK_TEMP, .CLK_TEMP_MAX, .CLK_VMON]

/-- The registers of the SEC window. -/
def ridsSEC : List Rid :=
  [.SEC_BLOCK_STATUS, .SEC_EVENT, .SEC_LIFECYCLE, .SEC_PAT_MINVER, .SEC_CMD, .SEC_CMD_ARG, .SEC_CMD_STATUS, .SEC_FLASH_ADDR, .SEC_FLASH_CMD, .SEC_FLASH_STATUS, .SEC_FLASH_SIZE, .SEC_FLASH_RDATA, .SEC_FLASH_DATA]

/-- The registers of the THM window. -/
def ridsTHM : List Rid :=
  [.THM_BLOCK_STATUS, .THM_EVENT, .THM_ALARM, .THM_CNT_ENC_SEG, .THM_CNT_DEC_SEG, .THM_CNT_TAG_FAIL, .THM_CNT_PREEMPT, .THM_CNT_KLD_REFUSED, .THM_CNT_SWITCH_REFUSED, .THM_CNT_NOKEY, .THM_KLD_W, .THM_KLD_CMD, .THM_KLD_STATUS, .THM_KEK_STATUS, .THM_KLD_SEQ, .THM_KEK_CT, .THM_SESS_CFG, .THM_SESS_KEY, .THM_SESS_USE, .THM_SESS_CMD]

/-- The registers of the TIME window. -/
def ridsTIME : List Rid :=
  [.TIME_BLOCK_STATUS, .TIME_EVENT, .TIME_CFG, .TIME_STATUS, .TIME_CMD, .TIME_NOW_FRAC, .TIME_NOW_NS, .TIME_NOW_SEC_LO, .TIME_NOW_SEC_HI, .TIME_OFFSET, .TIME_FREQ, .TIME_FREQ_TRIM, .TIME_UTC_OFS, .TIME_LINE_THR, .TIME_CNT_TOD_BAD, .TIME_CNT_OUTLIER, .TIME_PORT_CFG, .TIME_PORT_ING_LAT, .TIME_PORT_EGR_LAT, .TIME_PORT_STATE, .TIME_PORT_CNT_DROP, .TIME_LINE_ASYM, .TIME_LINE_OFS, .TIME_LINE_DELAY]

/-- The registers of the FPORT window. -/
def ridsFPORT : List Rid :=
  [.FPORT_BLOCK_STATUS, .FPORT_EVENT, .FPORT_QD_MODE, .FPORT_PRE_READY_DROP, .FPORT_CTRL, .FPORT_STATUS, .FPORT_PCP_MAP, .FPORT_DSCP_MAP, .FPORT_CNT_RX_FRAMES, .FPORT_CNT_TX_FRAMES, .FPORT_CNT_RX_BYTES, .FPORT_CNT_TX_BYTES, .FPORT_CNT_FCS_ERR, .FPORT_CNT_STOMP, .FPORT_CNT_FEC_CORR, .FPORT_CNT_FEC_UNCORR, .FPORT_CNT_PAUSE_VIOL, .FPORT_CNT_PFC_TX, .FPORT_CNT_PFC_RX, .FPORT_CNT_GPAUSE]

/-- The registers of the SW window. -/
def ridsSW : List Rid :=
  [.SW_BLOCK_STATUS, .SW_EVENT, .SW_BUF_SUM, .SW_PANEL_CELLS, .SW_FDB_KEY_LO, .SW_FDB_KEY_HI, .SW_FDB_DEST, .SW_FDB_CMD, .SW_FDB_STATUS, .SW_CNT_AGED, .SW_CNT_FLUSH, .SW_CNT_NO_ENTRY, .SW_CNT_CLASS_OFF, .SW_LIMIT, .SW_PFC, .SW_OCC, .SW_CT]

/-- The registers of the TM window. -/
def ridsTM : List Rid :=
  [.TM_BLOCK_STATUS, .TM_EVENT, .TM_SPW_CTRL, .TM_SPW_BASE_NS, .TM_SPW_BASE_SEC_LO, .TM_SPW_BASE_SEC_HI, .TM_SPW_CYCLE, .TM_SPW_OPEN, .TM_SPW_STATUS, .TM_SPW_EVENT, .TM_SPW_CNT_OPEN, .TM_POL_CTRL, .TM_POL_RATE, .TM_POL_BURST, .TM_SHP_CTRL, .TM_SHP_RATE, .TM_SHP_BURST, .TM_SCH_WT, .TM_CNT_POL_DROP, .TM_GCL_CMD, .TM_GCL_STATUS, .TM_GCL_SB_LEN, .TM_GCL_SB_CYCLE, .TM_GCL_SB_BASE_NS, .TM_GCL_SB_BASE_SEC_LO, .TM_GCL_SB_BASE_SEC_HI, .TM_GCL_SB_ENTRY, .TM_GCL_ENTRY]

/-- The registers of the BAST window. -/
def ridsBAST : List Rid :=
  [.BAST_BLOCK_STATUS, .BAST_EVENT, .BAST_GWID, .BAST_CIRC_CFG, .BAST_CIRC_STATUS, .BAST_CIRC_PEER, .BAST_CNT_TX, .BAST_RX_CFG, .BAST_RX_STATUS, .BAST_CNT_RX, .BAST_CNT_RX_CRC]

/-- The registers of the SEAM window. -/
def ridsSEAM : List Rid :=
  [.SEAM_BLOCK_STATUS, .SEAM_ENG_EVENT, .SEAM_SP_ADDR, .SEAM_SP_DATA, .SEAM_PANEL_WT, .SEAM_CNT_INVOKE, .SEAM_CNT_ISSUE, .SEAM_CNT_STALL, .SEAM_CNT_IDX_OOR, .SEAM_SLOT_CTRL, .SEAM_SLOT_STATUS, .SEAM_SLOT_SBCFG, .SEAM_SLOT_CFG, .SEAM_SLOT_SBCRC, .SEAM_CTX_ARITH, .SEAM_CTX_BIND, .SEAM_CTX_STATUS, .SEAM_CTX_EVENT, .SEAM_CTX_FCAUSE, .SEAM_SB_PAGE, .SEAM_ACT_PAGE]

/-- The registers of the CCO window. -/
def ridsCCO : List Rid :=
  [.CCO_BLOCK_STATUS, .CCO_EVENT, .CCO_CFG, .CCO_CMD_ADDR_LO, .CCO_CMD_ADDR_HI, .CCO_CMD, .CCO_CMD_STATUS, .CCO_UDP_PORT, .CCO_MISS_CFG, .CCO_SLG_CFG, .CCO_RING_BASE_LO, .CCO_RING_BASE_HI, .CCO_CNT_DEEP, .CCO_CNT_DUP, .CCO_CNT_RDMA_IGN, .CCO_CNT_NACK, .CCO_CNT_ABORT, .CCO_SLG_ENTRY]

/-- The registers of the PLT window. -/
def ridsPLT : List Rid :=
  [.PLT_BLOCK_STATUS, .PLT_EVENT, .PLT_CMD_ADDR_LO, .PLT_CMD_ADDR_HI, .PLT_CMD, .PLT_CMD_STATUS, .PLT_PANEL_MAXQ, .PLT_CNT_ENC_BLK, .PLT_CNT_DEC_BLK, .PLT_CNT_ENC_SAT, .PLT_CNT_CB_MISMATCH, .PLT_CTX_CB, .PLT_CB_STATUS, .PLT_CB_FP]

/-- The registers of the BOB window. -/
def ridsBOB : List Rid :=
  [.BOB_BLOCK_STATUS, .BOB_EVENT, .BOB_CELL_FREE, .BOB_PF_HANDLE, .BOB_PF_INFO, .BOB_SPOOL_COUNT, .BOB_SPOOL_PRIV, .BOB_SPOOL_FREE, .BOB_SPOOL_PFREE, .BOB_SPOOL_CACHE, .BOB_CNT_PTR_FAULT, .BOB_CNT_OUTGROW, .BOB_CNT_NO_BOBBIN, .BOB_CNT_PRIV_FALLBACK, .BOB_CNT_RING_LOST]

/-- The registers of the MEM window. -/
def ridsMEM : List Rid :=
  [.MEM_BLOCK_STATUS, .MEM_EVENT, .MEM_LAYOUT, .MEM_APT_BASE_LO, .MEM_APT_BASE_HI, .MEM_UE_ADDR_LO, .MEM_UE_ADDR_HI, .MEM_SCRUB_CFG, .MEM_SCRUB_POS, .MEM_PANEL_QUOTA, .MEM_CNT_CE, .MEM_CNT_UE, .MEM_CNT_RD_BYTES, .MEM_CNT_WR_BYTES, .MEM_REM_SHARE, .MEM_REM_CNT_RD, .MEM_REM_CNT_WR, .MEM_REM_CNT_THR]

/-- The registers of the SELV window. -/
def ridsSELV : List Rid :=
  [.SELV_BLOCK_STATUS, .SELV_EVENT, .SELV_RTX_SLOTS, .SELV_RTX_USED, .SELV_ACK_CFG, .SELV_PACK_HOLD, .SELV_TWIN_CFG, .SELV_TWIN_IP, .SELV_TWIN_PERIOD, .SELV_TWIN_RESV, .SELV_TWIN_STATUS, .SELV_TWIN_CMD, .SELV_TWIN_SEQ, .SELV_CNT_TX_SEG, .SELV_CNT_RX_SEG, .SELV_CNT_RTX_SEG, .SELV_CNT_RX_BAD, .SELV_CNT_RX_NOSESS, .SELV_CNT_EARLY, .SELV_CNT_TAG_FAIL, .SELV_CNT_OLD_GEN, .SELV_CNT_REPLAY, .SELV_CNT_DUP, .SELV_CNT_RX_DISCARD, .SELV_CNT_NO_COLL, .SELV_CNT_GEN_DISCARD, .SELV_SESS_CFG, .SELV_SESS_PEER, .SELV_SESS_RTT, .SELV_SESS_WIN] ++
  [.SELV_SESS_STALL, .SELV_SESS_CTRL, .SELV_SESS_STATUS, .SELV_SESS_EVENT, .SELV_SESS_SNDNXT, .SELV_SESS_SNDUNA, .SELV_SESS_RCVNXT, .SELV_SESS_FCAUSE, .SELV_SESS_TXC]

/-- The registers of the LINE window. -/
def ridsLINE : List Rid :=
  [.LINE_BLOCK_STATUS, .LINE_EVENT, .LINE_SKEW_USED, .LINE_GRP_CFG, .LINE_GRP_PROT, .LINE_GRP_SKEW_BUF, .LINE_GRP_STATUS, .LINE_GRP_EVENT, .LINE_GRP_TX_ACTIVE, .LINE_GRP_RX_ACTIVE, .LINE_GRP_SKEW, .LINE_GRP_CM_CTRL, .LINE_GRP_CM_STATUS, .LINE_GRP_CM_SBCRC, .LINE_GRP_CM_SBGEN, .LINE_GRP_CM_GEN, .LINE_GRP_CNT_TX_DATA, .LINE_GRP_CNT_TX_IDLE, .LINE_GRP_CNT_RX_DATA, .LINE_GRP_CNT_LOST, .LINE_GRP_CNT_HUNT, .LINE_GRP_CNT_SLOT_MISMATCH, .LINE_CH_CFG, .LINE_CH_CMD, .LINE_CH_STATUS, .LINE_CH_EVENT, .LINE_CH_TTI, .LINE_CH_CNT_FEC_CORR, .LINE_CH_CNT_FEC_UNCORR, .LINE_CH_CNT_DEFECT] ++
  [.LINE_CM_TX_SB, .LINE_CM_RX_SB, .LINE_CM_TX_ACT, .LINE_CM_RX_ACT]

/-- The registers of the OPT window. -/
def ridsOPT : List Rid :=
  [.OPT_BLOCK_STATUS, .OPT_EVENT, .OPT_STATUS, .OPT_BAND, .OPT_FIT_CFG, .OPT_FIT_CMD, .OPT_FIT_STATUS, .OPT_LASER_BIAS, .OPT_DIE_TEMP, .OPT_CAL_CFG, .OPT_CAL_STATUS, .OPT_CNT_CAL, .OPT_CNT_CAL_FORCED, .OPT_CH_CTRL, .OPT_CH_LOS_THR, .OPT_CH_STATUS, .OPT_CH_EVENT, .OPT_CH_RXPWR, .OPT_CH_CMD, .OPT_CH_CNT_LOS]

/-- The registers of the DBG window. -/
def ridsDBG : List Rid :=
  [.DBG_BLOCK_STATUS, .DBG_EVENT, .DBG_TRACE_CFG, .DBG_DEV_RING_HEAD, .DBG_LOG_STATUS, .DBG_LOG_MAXERASE, .DBG_CNT_TRACE_REC, .DBG_CNT_TRACE_LOST, .DBG_CNT_LOG_WRITE, .DBG_CNT_LOG_ERASE, .DBG_PNL_FLAG, .DBG_PNL_OBS, .DBG_FILT_KEY, .DBG_FILT_MASK, .DBG_FILT_CTRL, .DBG_FILT_CNT]

/-- The registers of the BIST window. -/
def ridsBIST : List Rid :=
  [.BIST_BLOCK_STATUS, .BIST_EVENT, .BIST_STATUS, .BIST_CMD, .BIST_CMD_STATUS, .BIST_RESULT, .BIST_SIG]

/-- The registers of the HLT window. -/
def ridsHLT : List Rid :=
  [.HLT_BLOCK_STATUS, .HLT_EVENT, .HLT_CFG, .HLT_PORT_STALL, .HLT_CMD, .HLT_RECOV_STATUS, .HLT_LAST_FAULT, .HLT_ENG_STATE, .HLT_SWATCH_SEQ, .HLT_SWATCH_FLASH, .HLT_TRIAL, .HLT_CNT_ENG_FAULT, .HLT_CNT_VERDICT, .HLT_CNT_TRANSIENT, .HLT_CNT_SUBSYS, .HLT_CNT_DEVICE, .HLT_CNT_PORT_STALL]

/-- The registers of the PNL window. -/
def ridsPNL : List Rid :=
  [.PNL_ID, .PNL_BLOCK_STATUS, .PNL_EVENT, .PNL_STATUS, .PNL_CTRL, .PNL_CTX_QUOTA, .PNL_QP_QUOTA, .PNL_BUSERR]

/-- The registers of a block. -/
def blkRids : Blk → List Rid
  | .GLB => ridsGLB
  | .PWR => ridsPWR
  | .CLK => ridsCLK
  | .SEC => ridsSEC
  | .THM => ridsTHM
  | .TIME => ridsTIME
  | .FPORT => ridsFPORT
  | .SW => ridsSW
  | .TM => ridsTM
  | .BAST => ridsBAST
  | .SEAM => ridsSEAM
  | .CCO => ridsCCO
  | .PLT => ridsPLT
  | .BOB => ridsBOB
  | .MEM => ridsMEM
  | .SELV => ridsSELV
  | .LINE => ridsLINE
  | .OPT => ridsOPT
  | .DBG => ridsDBG
  | .BIST => ridsBIST
  | .HLT => ridsHLT
  | .PNL => ridsPNL

end Sys2Proof.Machine
end

