-- ==== Sys2Proof/Machine/Units.lean ====
section
/-! DEFINITION. The state of each unit of the gateway, as plain data: start-up, flash, pins, panels, power domains,
health and recovery, observation, self-test, bobbins and HBM.  Each structure's docstring names the rules that give it. -/

namespace Sys2Proof.Machine

/-- What the gateway sends to its surroundings. -/
inductive Out where
  /-- an MSI-X message of function `fn` (0 the physical function, n + 1 virtual function n), vector `vec` (R401) -/
  | msix (fn vec : Nat)
  /-- an SMBus answer to a Block Read (R413) -/
  | smbus (v : Word)
  /-- a departing Sync, one-step: port, sequence, originTimestamp with its correction, in 2^-16 ns (R390) -/
  | ptpSync (port seq : Nat) (origin : Int)
  /-- an Announce: port, sequence, dataset, UTC offset and leap flags (R388) -/
  | ptpAnnounce (port seq : Nat) (d : PtpData) (utc : BitVec 18)
  /-- a Delay_Req on the slave port (R386) -/
  | ptpDelayReq (port seq : Nat)
  /-- a Delay_Resp: port, sequence and sender of its request, receive timestamp in 2^-16 ns (R390) -/
  | ptpDelayResp (port seq sender : Nat) (received : Int)
  /-- a Selvedge segment leaves for the line behind the 64 bytes of its header, encrypted and tagged under a key and a salt (R283, R284, R361) -/
  | segment (sess : Nat) (hdr : SegHdr) (payload : List Byte) (key : BitVec 256) (salt : Word)
  /-- a twin datagram to an address and UDP port: its header and records (R304) -/
  | twin (ip port : Nat) (data : List Byte)
  /-- a PFC frame of port, class and quanta (R228) -/
  | pfc (port cls quanta : Nat)
  /-- a frame leaves a port, with its FCS inverted where `stomp` (R227) -/
  | frame (port : Nat) (data : List Byte) (stomp : Bool)
  /-- three identical tack words leave an ORIG circuit (R246) -/
  | tackWord (circ : Nat) (w : BitVec 256)
  /-- from here on an ORIG circuit sends this IDLE word between tacks (R246) -/
  | tackIdle (circ : Nat) (w : BitVec 256)
  /-- the 1,536 overhead bytes of a frame leaving a channel, scrambled; its slots carry the segments sent, encrypted (R314, R315) -/
  | lineFrame (ch : Nat) (head : List Byte)
  /-- a control cell leaves in slot 79 of a channel (R330) -/
  | controlCell (ch : Nat) (cell : List Byte)
  /-- an SCP datagram to an address and UDP port on a class: header and payload (R119-R123) -/
  | scp (ip port tc : Nat) (data : List Byte)
  /-- a RoCEv2 packet of a delivery queue pair: address, UDP source port, P_KEY, destination QP, packet kind (0 First, 1 Middle, 2 Last,
  3 Only), PSN, remote address and key, length of the write, immediate data, payload, ICRC (R155-R157) -/
  | rdma (ip sport pkey qpn kind psn va : Nat) (rkey : Word) (len : Nat) (imm : Option Word) (payload : List Byte) (icrc : Word)
  deriving DecidableEq, Repr

/-- An SQC register: its sequence and its event bits (R18). -/
structure EvReg where
  seq : BitVec 8
  bits : BitVec 24
  deriving DecidableEq, Repr

/-- The latch of one requester: the counter its last low-word read was of, and the high word latched (R398). -/
structure Latch where
  rid : Nat
  idx : Nat
  hi : Word
  deriving DecidableEq, Repr

/-- One MSI-X vector: within its hold-off, pending, masked (R401, R409). -/
structure VecSt where
  fired : Bool
  pend : Bool
  masked : Bool
  deriving DecidableEq, Repr

/-- The record of a bus error (R397, R404, R410). -/
structure BusErr where
  addr : Word
  write : Bool
  who : BitVec 16
  deriving DecidableEq, Repr

/-- What the last read command answered (R396): a word, or a bus error, which a host sees as a completer abort
and a control core as an access fault. -/
inductive Response where
  | none
  | word (v : Word)
  | busError
  deriving DecidableEq, Repr

/-- One section of a Pattern image: its type, its APPLY value and its bytes (R418, R419). -/
structure Section where
  typ : Nat
  apply : Nat
  bytes : List Byte
  deriving DecidableEq, Repr

/-- Start-up: pins PORST_N and PERST_N, straps, lifecycle, boot stage, image in use (R406, R410-R425, R478, R480). -/
structure Boot where
  porst : Bool
  perst : Bool
  numVfs : Nat
  variant : BitVec 4
  stepping : BitVec 4
  stage : BitVec 4
  safeCause : BitVec 4
  samples : List (List StrapLevel)
  strap : BitVec 8
  strapFault : BitVec 8
  lifecycle : BitVec 4
  patSlotB : Bool
  fallback : Bool
  errA : Byte
  errB : Byte
  errSect : Byte
  patVersion : Word
  minver : Word
  sections : List Section
  readyFabric : BitVec 16
  readyLong : BitVec 16
  recovering : Bool
  secBusy : Bool
  secResult : Byte
  secValue : Word
  deriving DecidableEq, Repr

/-- The flash operation in progress (R423, R424). -/
inductive FlashOp where
  | idle
  | erase (addr : Nat)
  | program (addr : Nat) (page : List Word)
  | read (addr : Nat)
  | refused (e : Byte)
  deriving DecidableEq, Repr

/-- The flash device and its command registers (R415, R416, R423, R424), and its swatch log (R462, R463): the sector opened last since
start-up, with the records in it, whether the log is worn. -/
structure Flash where
  cells : Tab Byte
  sizeMiB : Nat
  slow : Bool
  busy : Bool
  err : Byte
  op : FlashOp
  rdata : Word
  logSect : Option Nat
  logRecs : Nat
  logWorn : Bool
  deriving DecidableEq, Repr

/-- Sensors, rails, clocks and the thermal alert pin (R479, R485, R486, R492). -/
structure Pins where
  temps : Tab (BitVec 16)
  tempMax : BitVec 16
  thermAlert : Bool
  vmon : Tab (BitVec 16)
  rootLock : Bool
  refLost : BitVec 4
  deriving DecidableEq, Repr

/-- PNL_STATUS.STATE (R404). -/
inductive PanelState where
  | disabled | active | resetting | faulted
  deriving DecidableEq, Repr

/-- One panel: its state and FCAUSE (R404, R435). -/
structure Panel where
  state : PanelState
  fcause : Byte
  deriving DecidableEq, Repr

/-- PWR_DOM_STATUS.STATE (R448). -/
inductive DomState where
  | off | on | draining | resetting | starting | absent
  deriving DecidableEq, Repr

/-- One power domain: its state, the cause of the last refusal, whether its power-down belongs to a domain recovery,
and the time of its last recovery in microseconds (R440, R441, R448). -/
structure PwrDom where
  state : DomState
  cause : Byte
  recovery : Bool
  lastRecov : Option Nat
  deriving DecidableEq, Repr

/-- HLT_RECOV_STATUS, HLT_LAST_FAULT and the swatch numbers (R432, R433, R446). -/
structure Health where
  tier : BitVec 3
  dom : Nat
  durMs : BitVec 16
  startUs : Nat
  lastEng : Nat
  lastCtx : Nat
  detectors : Byte
  swatchSeq : Word
  swatchFlash : Word
  deriving DecidableEq, Repr

/-- One trace record before it is laid out (R454). -/
structure TraceRec where
  typ : Nat
  panel : Nat
  unit : Nat
  stage : Nat
  chalk : Word
  time : Dword
  coll : Word
  epoch : Word
  chunk : Word
  arg : Word
  deriving DecidableEq, Repr

/-- A unit's trace FIFO of 64 records and the records it has dropped since the last LOST record (R453). -/
structure TraceFifo where
  recs : List TraceRec
  lost : Nat
  deriving DecidableEq, Repr

/-- The observation area of a panel: records written, records lost, next mailbox number, PSEQ (R457). -/
structure PnlObs where
  head : Dword
  lost : Dword
  swNext : Word
  pseq : Dword
  deriving DecidableEq, Repr

/-- Saturation accounting of one resource: limited intervals and all intervals of the period (R461). -/
structure SatAcc where
  limited : Nat
  now : Bool
  deriving DecidableEq, Repr

/-- Observation: FIFOs by unit code, panel areas, saturation accounting (R453-R461). -/
structure Obs where
  fifos : Tab TraceFifo
  areas : Tab PnlObs
  sat : Tab SatAcc
  satIntervals : Nat
  deriving DecidableEq, Repr

/-- What a BIST run in progress tests (R465, R466, R470). -/
inductive BistRun where
  | idle
  | engTest (e : Nat)
  | extended
  deriving DecidableEq, Repr

/-- One unit's result: NOT_RUN, PASS, REPAIRED or FAIL, the spare rows and columns used, the signature (R464, R465, R470). -/
structure BistUnit where
  result : BitVec 2
  spares : Byte
  sig : Dword
  deriving DecidableEq, Repr

/-- Self-test (R464-R466, R470). -/
structure Bist where
  units : Tab BistUnit
  firstFail : Byte
  run : BistRun
  cmdResult : Byte
  deriving DecidableEq, Repr

/-- One spool: COUNT, PRIV, handles allocated (indices rising), handles lost, handles in the cache, ring reads
outstanding (R256-R261, R277). -/
structure Spool where
  count : Nat
  priv : Nat
  taken : List Nat
  lost : List Nat
  cache : Nat
  reads : Nat
  deriving DecidableEq, Repr

/-- A unit that waits for a bobbin: its spool, its unit code, the part of the unit that waits (a stage slot), and the
privileged flag (R262). -/
structure BobWait where
  spool : Nat
  unit : Nat
  sub : Nat
  priv : Bool
  deriving DecidableEq, Repr

/-- The bobbin manager: spools, cells in use, units waiting, last pointer fault, and the units whose pointer faults have not been acted on
yet (R255-R266, R279, R440). -/
structure Bob where
  spools : Tab Spool
  cellsUsed : Nat
  waits : List BobWait
  pfHandle : Word
  pfInfo : Word
  escal : List Nat
  deriving DecidableEq, Repr

/-- A correction that patrol scrub has read and not yet written back: its 64 B unit and the 32 B blocks corrected (R276). -/
structure ScrubWb where
  block : Nat
  words : List Nat
  deriving DecidableEq, Repr

/-- HBM: contents, uncorrectable 32 B blocks, the last uncorrectable read, region sizes, patrol scrub, and whether the control complex store has read
uncorrectable since the last microsecond (R267-R278, R440). -/
structure Mem where
  cells : Tab Byte
  ue : List Nat
  ueAddr : BitVec 40
  ueRegion : Byte
  rtxGiB : Nat
  skewGiB : Nat
  scrubBlock : Nat
  scrubPass : Bool
  scrubUrgent : Bool
  scrubWb : Option ScrubWb
  ctlUe : Bool
  deriving DecidableEq, Repr

/-- TIME_STATUS.STATE (R382). -/
inductive TimeMode where
  | freerun | acquire | tracking | holdover
  deriving DecidableEq, Repr

/-- A good ToD message kept for the next edge: TAI seconds, UTC offset and leap flags (R381). -/
structure Tod where
  sec : Nat
  utc : BitVec 18
  deriving DecidableEq, Repr

/-- The PTP data of a port: portState, best Announce received, a two-step Sync that waits for its Follow_Up
(sequence, sender, receive time, correction), the last Sync's corrected origin and receive time, the Delay_Req in
flight (sequence, departure), the measured path delay, the next sequence number, the microsecond in which the kept Announce came or listening
began.  Times are in 2^-16 ns (R386-R390). -/
structure PtpPort where
  state : Nat
  best : Option PtpData
  pend : Option (Nat × Nat × Int × Int)
  last : Option (Int × Int)
  dreq : Option (Nat × Int)
  delay : Int
  seq : Nat
  heardUs : Nat
  deriving DecidableEq, Repr

/-- Line time of a group: sums and count of this second's measurements, published offset in 1/16 ns and delay in ns (R391). -/
structure LineTime where
  sumOfs : Int
  sumDelay : Int
  count : Nat
  ofs : Int
  delay : Int
  deriving DecidableEq, Repr

/-- The time base (R379-R393): served time in 2^-48 ns, state, frequencies in 2^-48, samples and runs. -/
structure TimeSt where
  now : Nat
  mode : TimeMode
  everLocked : Bool
  stepCnt : Byte
  rate : Int
  est : Int
  phase : Int
  offset : Int
  utc : BitVec 18
  tod : Option Tod
  ppsLast : Option Nat
  ppsSec : Option Nat
  ppsRun : Nat
  samples : List Int
  outRun : Nat
  retRun : Nat
  hist : List (Nat × Int)
  trackStart : Nat
  noServe : Bool
  ports : Tab PtpPort
  line : Tab LineTime
  deriving DecidableEq, Repr

/-- The time base at reset: FREERUN from 0 s (R382). -/
def TimeSt.reset : TimeSt :=
  { now := 0, mode := .freerun, everLocked := false, stepCnt := 0, rate := 0, est := 0, phase := 0, offset := 0,
    utc := 0, tod := none, ppsLast := none, ppsSec := none, ppsRun := 0, samples := [], outRun := 0, retRun := 0,
    hist := [], trackStart := 0, noServe := false, ports := [], line := [] }

/-- The state of a key slot (R364). -/
inductive SlotState where
  | empty | valid | retired
  deriving DecidableEq, Repr

/-- One key slot (R364-R368): key, salts, uses, highest TXC accepted, KEY_NEAR given, loaded since the session last
transmitted, VALID at a twin takeover (R290). -/
structure KeySlot where
  state : SlotState
  key : BitVec 256
  txSalt : Word
  rxSalt : Word
  use : Nat
  hiTxc : Option Nat
  near : Bool
  fresh : Bool
  atTakeover : Bool
  deriving DecidableEq, Repr

/-- One key-load group (R369-R371): whether the image gave it an encapsulation key, its KEK, the number of the
encapsulation whose ciphertext is published, THM_KLD_SEQ, the wrapped words written, BUSY and the last result. -/
structure KeyGroup where
  hasEk : Bool
  kek : Option (BitVec 256)
  ct : Option Nat
  seq : Word
  words : Tab Word
  busy : Bool
  result : Byte
  deriving DecidableEq, Repr

/-- Thimble's record of a session: whether slot 2s + 1 is active, consecutive tag failures, a SWITCH that waits for the
next segment (R366, R374, R378). -/
structure ThmSess where
  active1 : Bool
  tagFail : Nat
  switchReq : Bool
  deriving DecidableEq, Repr

/-- A bulk lane at work (R372, R373): session, urgency, bytes to process, and whether it holds a suspension. -/
structure LaneJob where
  sess : Nat
  urgent : Bool
  bytes : Nat
  suspended : Bool
  deriving DecidableEq, Repr

/-- Thimble (R361-R378): key slots, groups, sessions, THM_ALARM, bulk lanes. -/
structure Thimble where
  slots : Tab KeySlot
  groups : Tab KeyGroup
  sess : Tab ThmSess
  alarm : Word
  lanes : Tab (Option LaneJob)
  deriving DecidableEq, Repr

/-- SELV_SESS_STATUS.STATE (R298). -/
inductive SessState where
  | closed | keywait | admission | opening | open | closing | keyStop | fault
  deriving DecidableEq, Repr

/-- A DATA segment that has no SEQ yet (R285-R288): chunk fields and payload; `npart` counts the parts of a split chunk;
`slot` is its retransmit slot, `win` the span window it leaves in. -/
structure DataSeg where
  coll : Word
  epoch : Nat
  firstChunk : Nat
  present : BitVec 16
  fmt : Nat
  part : Nat
  npart : Nat
  cflags : List Byte
  payload : List Byte
  slot : Nat
  win : Option Nat
  tc0 : Bool
  deriving DecidableEq, Repr

/-- A transmitted DATA segment not yet acknowledged (R288, R293): its SEQ, when it was last sent (µs), how often,
and whether a retransmission is due. -/
structure HeldSeg where
  seq : Word
  seg : DataSeg
  lastUs : Nat
  sent : Nat
  due : Bool
  deriving DecidableEq, Repr

/-- A DATA segment in the receive store (R294): its SEQ and contents. -/
structure StoredSeg where
  seq : Word
  hdr : SegHdr
  payload : List Byte
  deriving DecidableEq, Repr

/-- One Selvedge session (R281-R309).  `accepted` counts DATA accepted since the last ACK, `dlv` the chunks delivered of the
segment being delivered. -/
structure SelvSess where
  state : SessState
  prev : SessState
  gen : BitVec 16
  started : Bool
  sndNxt : Word
  sndUna : Word
  txc : Nat
  rcvNxt : Word
  rcvExp : Word
  rwndEnd : Word
  peerRwnd : Word
  openSeg : Option DataSeg
  queue : List DataSeg
  held : List HeldSeg
  store : List StoredSeg
  parts : List Byte
  dlv : Nat
  oackSent : Bool
  oackRecv : Bool
  closesLeft : Nat
  accepted : Nat
  fcause : Byte
  stream : List Byte
  resync : Bool
  resv : Option Nat
  deriving DecidableEq, Repr

/-- The twin (R304-R307): on the active COPY_SEQ, whether a copy is being sent and what it will reserve, the last copy
acknowledged; on the standby the incoming page and the complete page with their numbers; `alone` says that it took over and no copy of its own has
been acknowledged since (log 79). -/
structure Twin where
  copySeq : Word
  busy : Bool
  resv : List (Nat × Nat)
  acked : Word
  incomingSeq : Word
  incoming : List TwinRec
  page : Option (List TwinRec)
  pageSeq : Word
  alone : Bool
  deriving DecidableEq, Repr

/-- Selvedge (R281-R311): sessions, admission order, retransmit slots in use, sessions that reopen when PD18 returns (R442), twin. -/
structure Selv where
  sess : Tab SelvSess
  admission : List Nat
  slots : List Nat
  reopen : List Nat
  twin : Twin
  deriving DecidableEq, Repr

/-- A session at reset: CLOSED, nothing sent or received, GEN 0 (R299; log 1). -/
def SelvSess.reset : SelvSess :=
  { state := .closed, prev := .closed, gen := 0, started := false, sndNxt := 0, sndUna := 0, txc := 0, rcvNxt := 0,
    rcvExp := 0, rwndEnd := 0, peerRwnd := 0, openSeg := none, queue := [], held := [], store := [], parts := [], dlv := 0,
    oackSent := false, oackRecv := false, closesLeft := 0, accepted := 0, fcause := 0, stream := [], resync := false,
    resv := none }

/-- Selvedge at reset. -/
def Selv.reset : Selv := ⟨[], [], [], [], ⟨0, false, [], 0, 0, [], none, 0, false⟩⟩

/-- A span window (R184-R187): armed, open, has opened since it was armed, when the opening in progress
began and how long it lasts (ns). -/
structure Spw where
  armed : Bool
  isOpen : Bool
  opened : Bool
  since : Nat
  openFor : Nat
  deriving DecidableEq, Repr

/-- The span fields of a collective descriptor (R169). -/
structure SpanCfg where
  sessBase : Nat
  nsites : Nat
  siteIdx : Nat
  fmt : Nat
  resFp32 : Bool
  banks : Nat
  spw : Nat
  remClear : Bool
  remAddr : Nat
  deriving DecidableEq, Repr

/-- A rank map entry (R148), addresses and ports as numbers. -/
structure RmapEnt where
  rank : Nat
  kind : Nat
  stage : Nat
  ip : Nat
  port : Nat
  group : Nat
  drec : Nat
  deriving DecidableEq, Repr

/-- The life of an epoch at a gateway (R135-R141, R179): open, or closing at a site root that has sent its CLOSE tacks. -/
inductive EpochState where
  | open | closing
  deriving DecidableEq, Repr

/-- An open epoch of a collective: its number, the stand-ins of the map it opened with (contributor index and spare's
entry, R150), whether it is a barrier and who has arrived (stage, index; R141), chunks delivered, passed on, or at a gateway
with nothing to deliver emitted (R137), the stages and chunks whose DONE invocation has ended (R146), the flags of the chunks delivered, the delivery records whose write with immediate is
acknowledged, the sites whose CLOSE tack is held (R179), whether COMMIT_WAIT has been set, whether CLOSE came from the parent, whether a barrier has been
released (R141). -/
structure Epoch where
  num : Nat
  state : EpochState
  subs : List (Nat × Nat)
  barrier : Bool
  arrived : List (Nat × Nat)
  done : List Nat
  ended : List (Nat × Nat)
  flags : Byte
  acked : List Nat
  closes : List Nat
  commitWait : Bool
  closeRecv : Bool
  released : Bool
  deriving DecidableEq, Repr

/-- A fragment received or to be sent: position, count, format and payload (R125, R126). -/
structure Frag where
  off : Nat
  n : Nat
  fmt : Nat
  payload : List Byte
  deriving DecidableEq, Repr

/-- A RESULT in the making at a child: chunk, its elements, fragments received, flags, chalk tag (R130, R158). -/
structure ResultMsg where
  epoch : Nat
  chunk : Nat
  elems : Nat
  flags : Byte
  chalk : Word
  frags : List Frag
  deriving DecidableEq, Repr

/-- A CONTRIB sent to the parent, kept while its epoch is open so that it can be sent again (R132): `again` says that it waits to be
sent again, not before `dueUs`; `sent` says that it has left at least once, which a CONTRIB held by a NACK PANEL_DOWN has not (R133). -/
structure UpMsg where
  epoch : Nat
  chunk : Nat
  mode : Nat
  crc : Bool
  hasIdx : Bool
  flags : Byte
  elems : Nat
  chalk : Word
  frags : List Frag
  again : Bool
  sent : Bool
  dueUs : Nat
  deriving DecidableEq, Repr

/-- The straggler ledger of a stage (R153, R154): the last completions' last arrivals, newest first, completions recorded, the
lateness in µs of each index, and the indices flagged SUSPECT. -/
structure Ledger where
  recent : List Nat
  total : Nat
  late : Tab Nat
  suspect : List Nat
  deriving DecidableEq, Repr

/-- An open collective (R134, R169): the descriptor as copied at OPEN, the stand-ins in force, the rank map generation of
each stage (R151), its open epochs with the lowest first, the next epoch number, the epochs aborted with their causes, the credit
as epoch and limit (R143), the parent's credit (R144), the rank map generation its messages carry (R121, R151), CONTRIBs sent up, RESULTs in the making, whether RETIRE has
begun, whether it has been told to stop or to wait, epochs stopped (R133), epochs whose RESUME has acted (R247), the straggler ledger of each stage, the committed
Remnant bank and the last epoch committed (R176). -/
structure Coll where
  panel : Nat
  id : Word
  firstEpoch : Nat
  chunkElems : Nat
  bucketChunks : Nat
  role : Nat
  cw : Nat
  tc : Nat
  holdOnMiss : Bool
  parentIp : Nat
  parentPort : Nat
  upRank : Nat
  rmapAddr : Nat
  nrmap : Nat
  drecAddr : Nat
  ndrec : Nat
  ctx : List (Nat × Nat)
  span : Option SpanCfg
  subs : List (Nat × Nat)
  gens : Tab Nat
  epochs : List Epoch
  nextEpoch : Nat
  aborted : List (Nat × Nat)
  credit : Nat × Nat
  parentCredit : Option (Nat × Nat)
  parentGen : Nat
  up : List UpMsg
  results : List ResultMsg
  retiring : Bool
  stopped : Bool
  paused : Bool
  stoppedEpochs : List Nat
  resumed : List Nat
  ledgers : Tab Ledger
  bank : Nat
  lastEpoch : Nat
  deriving DecidableEq, Repr

/-- A CCO command in progress in a window (R161, R162): whether it is busy, the collective a RETIRE waits for, the result it
will write, and the result in CCO_CMD_STATUS. -/
structure CcoCmd where
  busy : Bool
  retire : Option (Nat × Word)
  next : Byte
  result : Byte
  deriving DecidableEq, Repr

/-- A delivery write not yet acknowledged (R157): epoch, chunk, first and last PSN, address, data, whether it carries the
immediate, retries left, the cells that hold it, the chunk's chalk tag. -/
structure RdmaWr where
  panel : Nat
  coll : Word
  epoch : Nat
  chunk : Nat
  drec : Nat
  first : Nat
  last : Nat
  addr : Nat
  data : List Byte
  imm : Bool
  retry : Nat
  rnr : Nat
  cell : Nat
  chalk : Word
  deriving DecidableEq, Repr

/-- A delivery queue pair (R155, R156, R159): its panel, collective and delivery record, the record's fields as read at
OPEN, the next PSN, the error state and the writes outstanding, oldest first. -/
structure Qp where
  panel : Nat
  coll : Word
  drec : Nat
  ip : Nat
  remote : Nat
  pmtu : Nat
  rkey : Word
  va : Nat
  sport : Nat
  pkey : Nat
  retryMax : Nat
  rnrMax : Nat
  ackTo : Nat
  psn : Nat
  err : Bool
  writes : List RdmaWr
  deriving DecidableEq, Repr

/-- Result cells held for delivery: cells, reference count, and the bobbin of their window once its holder has released it (R158, R264). -/
structure ResCell where
  cells : Nat
  count : Nat
  handle : Option Word
  deriving DecidableEq, Repr

/-- A NACK recently sent: panel, source address, collective, chunk, cause, and when in µs (R131). -/
structure NackMark where
  panel : Nat
  ip : Nat
  coll : Word
  chunk : Nat
  cause : Nat
  us : Nat
  deriving DecidableEq, Repr

/-- The Coordinator apart from its bolts (R134-R162): open collectives, command windows, queue pairs by number, result
cells, NACK windows, the most recent straggler report of each view (R161), the place in each completion ring, and the messages "discarded and
counted" or "counted only" by opcode and panel, for whose count the spec names no register (R30, R130, R131; log 46), and the addresses of the
gateways that a NACK VERSION has stopped it sending to (R133). -/
structure Cco where
  colls : List Coll
  cmds : Tab CcoCmd
  qps : Tab (Option Qp)
  cells : Tab (Option ResCell)
  nextCell : Nat
  nacks : List NackMark
  slg : Tab (List Word)
  ringPos : Tab Nat
  discarded : Tab Nat
  halted : List Nat
  deriving DecidableEq, Repr

/-- A vector register: its active lanes, and the scale bytes of its blocks of 32 lanes (R78).  Lanes at and above N read
as zero, so only the N active ones are held. -/
structure VReg where
  lanes : List Word
  scales : List Byte
  deriving DecidableEq, Repr

/-- A loop counter: 14-bit value and 12-bit trip count (R77, R100). -/
structure LoopCtr where
  value : Nat
  trips : Nat
  deriving DecidableEq, Repr

/-- An exact partial's element: accumulator and sticky code (R44, R45). -/
structure XpElem where
  a : BitVec 320
  st : BitVec 2
  deriving DecidableEq, Repr

/-- A Pleat block of the output stream or of a contribution: its bytes as R207 lays them out. -/
abbrev PleatBytes := List Byte

/-- An output stream (R102): the format of the value part, raw codes with MX scale bytes, exact elements, Pleat blocks
(none where the arrays have not yet returned them), and the index part. -/
structure Stream where
  fmt : Option Nat
  raw : List Word
  scales : List Byte
  xp : List XpElem
  pleat : List (Option PleatBytes)
  idx : List Word
  deriving DecidableEq, Repr

/-- Values of a contribution as a stage reads them: format code, raw codes (decoded FP32 values for PLEAT), MX scale bytes,
exact elements for XP formats, indices (R34-R37, R56, R126). -/
structure InData where
  fmt : Nat
  raw : List Word
  scales : List Byte
  xp : List XpElem
  idx : List Word
  deriving DecidableEq, Repr

/-- A CONTRIB message at a chunk (R125): contributor index, rank, sender's address and port, format, elements, FLAGS[7:6],
ARITH_FLAGS, fragments, its values once whole, Pleat blocks still with the decoders and the bobbin of the decoded values, the bobbins
and cells its frames hold, the cells of them charged to each port and class (8 × port + class, R223), whether it is whole, whether its invocation has been dispatched, whether it came before a predecessor and is parked
(R82, R83), its place in the order of arrival, and when it was completed (µs). -/
structure Msg where
  index : Nat
  rank : Nat
  ip : Nat
  port : Nat
  fmt : Nat
  elems : Nat
  hasIdx : Bool
  standin : Bool
  flags : Byte
  frags : List Frag
  data : InData
  decode : Nat
  dbob : Option Word
  handles : List Word
  cells : Nat
  charges : List (Nat × Nat)
  whole : Bool
  taken : Bool
  parked : Bool
  age : Nat
  us : Nat
  deriving DecidableEq, Repr

/-- An element under accumulation: accumulator and sticky code in EXACT mode, FP32 running value otherwise, none until a
contribution has been loaded (R44, R45, R49). -/
structure Elem where
  a : BitVec 320
  st : BitVec 2
  run : Option Word
  deriving DecidableEq, Repr

/-- The state of a bolt (R146). -/
inductive BoltState where
  | reserved | open | done | aborting
  deriving DecidableEq, Repr

/-- A bolt, an open chunk (R83, R142, R146): collective, stage, epoch and chunk, state, context (16 × engine + context),
elements and whether a contribution has fixed them (R126), contributor indices expected, effective mode and first format once open, the program page generation, SEAM_CTX_ARITH and
PLT_CTX_CB it runs under, accumulators, flags, messages not yet counted, indices counted, when its first CONTRIB came (µs), rounds
of MISSING, who came last, when, and when the one before came, chalk tag, whether its DONE invocation has been dispatched, and
its place in the order of completion. -/
structure Bolt where
  panel : Nat
  coll : Word
  stage : Nat
  epoch : Nat
  chunk : Nat
  state : BoltState
  ctx : Nat
  elems : Nat
  fixed : Bool
  want : List Nat
  mode : Nat
  fmt : Nat
  gen : Nat
  arith : Word
  cb : Word
  acc : List Elem
  flags : Byte
  msgs : List Msg
  counted : List Nat
  firstUs : Nat
  rounds : Nat
  lastIdx : Nat
  lastUs : Nat
  prevUs : Nat
  chalk : Word
  done : Bool
  age : Nat
  deriving DecidableEq, Repr

/-- A stream that EMIT has sent and that is not yet accepted (R103, R104): target, MAXE, contents, bobbin. -/
structure Emitted where
  target : Nat
  maxe : Nat
  out : Stream
  bobbin : Option Word
  deriving DecidableEq, Repr

/-- A running invocation (R79-R81, R102-R106): its number, kind, context, bolt, contributor index, next stitch, registers,
counters, output stream and its bobbin, whether a bobbin is awaited, registers that wait on Pleat, Pleat requests not
returned, residual vectors present, emitted streams not accepted, flags of its roundings, whether it has been found stalled, and held by R105. -/
structure Inv where
  num : Nat
  done : Bool
  ctx : Nat
  bolt : Nat
  index : Nat
  pc : Nat
  v : Tab VReg
  loops : Tab LoopCtr
  out : Stream
  bobbin : Option Word
  bobWait : Bool
  pend : List Nat
  plt : Nat
  resid : Tab (List Word)
  emits : List Emitted
  flags : Byte
  stall : Bool
  held : Bool
  deriving DecidableEq, Repr

/-- A Remnant access (R106, R183): the invocation's stage slot (8 × engine + slot) and number, whether it writes, the vector, the
device address, the bytes to write or the count to read, and the count of residuals. -/
structure RemReq where
  slot : Nat
  inv : Nat
  write : Bool
  vec : Nat
  addr : Nat
  data : List Byte
  len : Nat
  deriving DecidableEq, Repr

/-- A transfer on the Seam ring (R87): the chunk, the context it goes to and the one it comes from, the stream with the format its chunk's setting
gives an empty one, the sender's flags and chalk tag. -/
structure RingMsg where
  panel : Nat
  coll : Word
  epoch : Nat
  chunk : Nat
  ctx : Nat
  src : Nat
  mode : Nat
  fmt : Nat
  out : Stream
  flags : Byte
  chalk : Word
  deriving DecidableEq, Repr

/-- A program page with its configuration and the count of its commit (R109-R116). -/
structure Page where
  words : Tab Dword
  cfg : Word
  gen : Nat
  deriving DecidableEq, Repr

/-- A stage slot (R109-R116): active page, the page that open chunks still use, GEN, the last commit's error, CHECKING,
VALID, the running invocation. -/
structure StageSlot where
  active : Page
  prev : Option Page
  errIndex : Byte
  errCause : Byte
  checking : Bool
  valid : Bool
  run : Option Inv
  deriving DecidableEq, Repr

/-- An engine context (R85, R107, R108, R118): scratch area words, faulted, FCAUSE fields, the stage slot and the program page of its last chunk. -/
structure Ctx where
  scratch : Tab Word
  faulted : Bool
  cause : Byte
  index : Byte
  slot : Nat
  page : Nat
  gen : Nat
  deriving DecidableEq, Repr

/-- HLT_ENG_STATE (R446). -/
inductive EngState where
  | normal | resetting | trial | fenced
  deriving DecidableEq, Repr

/-- An engine (R112, R431-R436): state, used tally of each panel, times (µs) of verdicts and of faults without verdict
within the last second, suspects not yet tried, the context under trial, the chunks each suspect had open, those completed since, and the
single-bit errors corrected (R76). -/
structure Engine where
  state : EngState
  used : Tab Nat
  verdicts : List Nat
  faults : List Nat
  suspects : List Nat
  trial : Option Nat
  chunks : List (Nat × Word × Nat)
  passed : List (Nat × Word × Nat)
  corrected : Nat
  deriving DecidableEq, Repr

/-- The Seam array (03_stitch_programs): engines, contexts and slots by number, bolts, Remnant accesses and ring
transfers under way, the next age. -/
structure Seam where
  engines : Tab Engine
  ctxs : Tab Ctx
  slots : Tab StageSlot
  bolts : Tab (Option Bolt)
  remq : List RemReq
  ring : List RingMsg
  age : Nat
  remUsed : Nat
  deriving DecidableEq, Repr

/-- PLT_CB_STATUS.STATE (R214). -/
inductive CbState where
  | empty | loading | valid
  deriving DecidableEq, Repr

/-- A codebook slot (R201-R203, R214): state, GEN, DIM, fingerprint, entries as BF16 codes. -/
structure Codebook where
  state : CbState
  gen : Byte
  dim : Nat
  fp : Word
  entries : List Word
  deriving DecidableEq, Repr

/-- A block request of a NARROW (R195, R209): the invocation's stage slot and number, panel, codebook slot, FTZ, the register DST, the block's place
in the output stream, the values v with whether each is infinite only by overflow, residual format, and where its residuals go. -/
structure EncReq where
  slot : Nat
  inv : Nat
  panel : Nat
  cb : Nat
  ftz : Bool
  dst : Nat
  place : Nat
  vals : List (Word × Bool)
  resFp32 : Bool
  rem : Option (Nat × Nat)
  vec : Nat
  deriving DecidableEq, Repr

/-- A block with the decoders (R205, R206): decoder group, bolt, contributor index, block number, codebook slot, block bytes. -/
structure DecJob where
  group : Nat
  bolt : Nat
  index : Nat
  block : Nat
  cb : Nat
  bytes : List Byte
  deriving DecidableEq, Repr

/-- The Pleat arrays (R190-R214): codebook slots, block requests oldest first, blocks with the decoders, the command in progress with its
code, slot, DIM and image, the result it will write, and the result in PLT_CMD_STATUS. -/
structure Plt where
  cbs : Tab Codebook
  enc : List EncReq
  dec : List DecJob
  busy : Bool
  op : Nat
  slot : Nat
  dim : Nat
  image : Option (List Byte)
  next : Byte
  result : Byte
  deriving DecidableEq, Repr

/-- A frame the switch core holds (R221-R227): its input (a port, or 0x200 + n for panel n's internal input), class, the
destinations it has still to leave by, its bytes, whether it leaves with its FCS inverted (cut through with a defect),
when it came (µs), its bobbin once bound, the cells it holds, the message that a frame of the gateway's own carries, and the result
cells that a RESULT copy uses (R158, R220, R222). -/
structure Frame where
  inp : Nat
  cls : Nat
  dests : List Nat
  data : List Byte
  bad : Bool
  arrUs : Nat
  handle : Option Word
  cells : Nat
  own : Option Out
  res : Option Nat
  deriving DecidableEq, Repr

/-- A token bucket: tokens in half bytes and the microsecond they were last brought up to (R233, R236). -/
structure Bucket where
  tokens : Nat
  us : Nat
  deriving DecidableEq, Repr

/-- A port's gate lists (R237-R240): entries, cycle in ns, index and start (ns of served time) of the entry in effect, and
whether it runs; the accepted list that waits with its start; a STOP that waits; WAIT_LOCK; ERR. -/
structure Gates where
  entries : List Word
  cycle : Nat
  idx : Nat
  since : Nat
  running : Bool
  next : Option (List Word × Nat × Nat)
  stop : Bool
  err : Byte
  deriving DecidableEq, Repr

/-- A fabric port (R218, R228-R236, R251): link, training, FEC lock; classes the partner pauses, when each pause began;
classes this port pauses; classes whose frames are discarded under STALL_ACT; the round robin's class, whether that
class has had its credit this turn, credits in bytes; the last input served of each class; shaper and policer buckets;
frames started; gates. -/
structure FabPort where
  link : Bool
  training : Bool
  fecLock : Bool
  paused : Byte
  pausedUs : Tab Nat
  pausing : Byte
  discard : Byte
  rr : Nat
  rrTaken : Bool
  credit : Tab Nat
  lastIn : Tab Nat
  shp : Tab Bucket
  pol : Tab Bucket
  lastTxUs : Nat
  gates : Gates
  deriving DecidableEq, Repr

/-- The fabric and switch core: ports, frames held oldest first, forwarding table by VLAN × 2^48 + MAC, multicast groups,
SW_FDB_STATUS, and the input each FRAME session served last of each class (R221-R252). -/
structure Fabric where
  ports : Tab FabPort
  frames : List Frame
  fdb : Tab (Option Word)
  groups : Tab (List Nat)
  fdbFull : Bool
  fdbMissing : Bool
  sessLast : Tab Nat
  deriving DecidableEq, Repr

/-- A circuit's state (R244, R254). -/
inductive CircState where
  | off | relock | up | lossOfLock
  deriving DecidableEq, Repr

/-- A circuit: its state and the SEQ of its last tack (R244, R246). -/
structure Circuit where
  state : CircState
  seq : BitVec 16
  deriving DecidableEq, Repr

/-- A tack receiver: aligned, signal seen, and the SRC and SEQ of the tacks it has acted on (R246; log 84). -/
structure TackRx where
  aligned : Bool
  signal : Bool
  acted : List (Nat × Nat)
  deriving DecidableEq, Repr

/-- The basting cross-connect (R242-R247). -/
structure Bast where
  circs : Tab Circuit
  rxs : Tab TackRx
  deriving DecidableEq, Repr

/-- Gates at reset: no list, every gate open. -/
def Gates.reset : Gates := ⟨[], 0, 0, 0, false, none, false, 0⟩

/-- A port at reset: no link (R218). -/
def FabPort.reset : FabPort :=
  { link := false, training := false, fecLock := false, paused := 0, pausedUs := [], pausing := 0, discard := 0, rr := 0,
    rrTaken := false, credit := [], lastIn := [], shp := [], pol := [], lastTxUs := 0, gates := Gates.reset }

/-- A transmit stream (R317): bytes already sent of the cell in progress, cells left of the segment in progress counting that
cell (0 when it is idle), and the cells of the segments waiting, oldest first. -/
structure TxStream where
  carry : Nat
  cur : Nat
  queue : List Nat
  deriving DecidableEq, Repr

/-- A receive stream (R318, R333): in HUNT, cells left of the segment being received, its cells in all, bytes of it lost. -/
structure RxStream where
  hunt : Bool
  left : Nat
  total : Nat
  lost : Bool
  deriving DecidableEq, Repr

/-- A line channel (R326-R331, R337): MSTATE sent, DEFECTS, the counts of frames that declare and clear LOF, LOM, FEC_DEG and
ID, the last MFAS, frames aligned, RDI and RX_OK received, RX_OK sent, RDI sent, whether it is in the receive stream, TTI, the last frame
received (MFC, MFAS, when), idle cells and all cells sent in each of the last 100 ms (R354). -/
structure LineCh where
  mstate : Nat
  defects : BitVec 6
  fasBad : Nat
  fasGood : Nat
  mfasBad : Nat
  mfasGood : Nat
  fecBad : Nat
  fecGood : Nat
  idGood : Nat
  mfas : Nat
  aligned : Nat
  rdi : Bool
  rxOkRecv : Bool
  rxOkSent : Bool
  rdiSent : Bool
  inStream : Bool
  tti : List Word
  last : Option (Nat × Nat × Nat)
  sent : List (Nat × Nat × Nat)
  deriving DecidableEq, Repr

/-- A member's frame that waits in the skew buffer (R325): MFC × 256 + MFAS, member, arrival in µs, its TX_ACTIVE, whether its slot 79 carries the control
channel, its slots. -/
structure SkewFrame where
  key : Nat
  mid : Nat
  us : Nat
  active : Dword
  ctl : Bool
  slots : List SlotIn
  deriving DecidableEq, Repr

/-- A line group (R312-R331): TX_ACTIVE sent, the change announced, TX_ACTIVE received, frame and multiframe counters, SEL, the
time WTR began, connection memory (active pages and generations, announced generation, CHECKING, SB_VALID, TX_WAIT, RX_WAIT,
ERR, the far end's CM_RXRDY), skew buffer, lead, number of the last aligned frame taken, times its frames left, tacks acted on, SEQ of the tacks sent. -/
structure LineGrp where
  txActive : Dword
  next : Option Dword
  rxActive : Dword
  mfas : Nat
  mfc : Nat
  sel : Nat
  wtrUs : Option Nat
  txPage : Tab Word
  rxPage : Tab Word
  txGen : Nat
  rxGen : Nat
  nextGen : Nat
  checking : Bool
  sbValid : Bool
  txWait : Bool
  rxWait : Bool
  err : Byte
  farReady : Nat
  skewBuf : List SkewFrame
  skewUs : Nat
  rxKey : Option Nat
  txTimes : Tab Nat
  acted : List (Nat × Nat)
  tackSeq : BitVec 16
  deriving DecidableEq, Repr

/-- The line framers: channels, groups, streams by session or 4096 + group (R312-R337). -/
structure Line where
  chs : Tab LineCh
  grps : Tab LineGrp
  tx : Tab TxStream
  rx : Tab RxStream
  deriving DecidableEq, Repr

/-- A channel at reset: OFF (R337). -/
def LineCh.reset : LineCh :=
  { mstate := 0, defects := 0, fasBad := 0, fasGood := 0, mfasBad := 0, mfasGood := 0, fecBad := 0, fecGood := 0, idGood := 0,
    mfas := 0, aligned := 0, rdi := false, rxOkRecv := false, rxOkSent := false, rdiSent := false, inStream := false, tti := [], last := none,
    sent := [] }

/-- A group at reset. -/
def LineGrp.reset : LineGrp :=
  { txActive := 0, next := none, rxActive := 0, mfas := 0, mfc := 0, sel := 0, wtrUs := none, txPage := [], rxPage := [],
    txGen := 0, rxGen := 0, nextGen := 0, checking := false, sbValid := false, txWait := false, rxWait := false, err := 0,
    farReady := 0, skewBuf := [], skewUs := 0, rxKey := none, txTimes := [], acted := [], tackSeq := 0 }

/-- OPT_FIT_STATUS.STATE (R345, R346, R358). -/
inductive FitState where
  | off | comb | sweep | lock | done | fail
  deriving DecidableEq, Repr

/-- A die's retention store (R347): OPT_BAND, comb setpoint, rotations, heater settings and the lines without one (R346), die temperature in 0.1 °C. -/
structure Retain where
  band : Word
  comb : Nat
  rots : List Nat
  heaters : List Nat
  unfit : List Nat
  temp : Int
  deriving DecidableEq, Repr

/-- A line die (R338-R358): fitting state, whether the fitting in progress is warm, whether the last completed was, comb lock and
setpoint, the three rotations, heater settings by ring, lines without a ring of each set, laser bias, temperature in
0.1 °C, EOL, the retention store. -/
structure OptDie where
  fit : FitState
  warmRun : Bool
  warm : Bool
  combLock : Bool
  comb : Nat
  rots : List Nat
  heaters : List Nat
  unfit : List Nat
  bias : Nat
  temp : Int
  eol : Bool
  retain : Option Retain
  deriving DecidableEq, Repr

/-- OPT_CH_STATUS.LIGHT (R360). -/
inductive Light where
  | dark | ramping | lit | pattern
  deriving DecidableEq, Repr

/-- Where a calibration stands (R356): none, the member leaving its group, the pattern, the member returning. -/
inductive CalStage where
  | none | leaving | pattern | returning
  deriving DecidableEq, Repr

/-- An optical channel (R340-R360): light, measured powers in 0.1 dBm, ring and receive lock, fitted, FIT_FAIL, LOS, LAUNCH_LOW,
calibration stage, temperature at the last calibration, periods in a row in error beyond ±3 GHz and within ±0.5 GHz of the
transmit ring, and beyond ±3 GHz of a receive ring. -/
structure OptCh where
  light : Light
  tx : Int
  rx : Int
  txLock : Bool
  rxLock : Bool
  fitted : Bool
  fitFail : Bool
  los : Bool
  launchLow : Bool
  cal : CalStage
  calTemp : Option Int
  txBad : Nat
  txGood : Nat
  rxBad : Nat
  deriving DecidableEq, Repr

/-- The line dies (R338-R360): dies, channels by 16d + c, channels that need calibration in the order the needs arose, those of
them that are forced. -/
structure Opt where
  dies : Tab OptDie
  chs : Tab OptCh
  need : List Nat
  forced : List Nat
  deriving DecidableEq, Repr

/-- A die at reset (R358): OFF, nothing kept. -/
def OptDie.reset : OptDie :=
  { fit := .off, warmRun := false, warm := false, combLock := false, comb := 0, rots := [], heaters := [], unfit := [], bias := 0,
    temp := 0, eol := false, retain := none }

/-- A channel at reset (R360): dark, LOS declared. -/
def OptCh.reset : OptCh :=
  { light := .dark, tx := 0, rx := 0, txLock := false, rxLock := false, fitted := false, fitFail := false, los := true,
    launchLow := false, cal := .none, calTemp := none, txBad := 0, txGood := 0, rxBad := 0 }

/-- Start-up state at reset: PORST_N asserted (R425, R478), BOOT_STAGE 0x0 and SAFE_CAUSE 0x0 (R411).
The device is a -84 of stepping 0 in lifecycle PRODUCTION (log 3); the other values are log 1's. -/
def Boot.reset : Boot :=
  { porst := true, perst := false, numVfs := 16, variant := 1, stepping := 0, stage := 0, safeCause := 0,
    samples := [], strap := 0, strapFault := 0, lifecycle := 2, patSlotB := false, fallback := false,
    errA := 0, errB := 0, errSect := 0, patVersion := 0, minver := 0, sections := [], readyFabric := 0,
    readyLong := 0, recovering := false, secBusy := false, secResult := 0, secValue := 0 }

/-- The flash at reset: blank, 128 MiB (log 4). -/
def Flash.reset : Flash :=
  { cells := [], sizeMiB := 128, slow := false, busy := false, err := 0, op := .idle, rdata := 0, logSect := none, logRecs := 0,
    logWorn := false }

/-- Sensors and rails at reset (log 1). -/
def Pins.reset : Pins :=
  { temps := [], tempMax := 0, thermAlert := false, vmon := [], rootLock := false, refLost := 0 }

/-- Recovery state at reset: no recovery in progress, no fault seen (R446; log 1). -/
def Health.reset : Health :=
  { tier := 0, dom := 0, durMs := 0, startUs := 0, lastEng := 0, lastCtx := 0, detectors := 0,
    swatchSeq := 0, swatchFlash := 0 }

end Sys2Proof.Machine
end

