-- ==== Sys2Proof/Machine/State.lean ====
section
/-! DEFINITION. The state of the machine, the reasons a step can stop, and the state after reset. -/

namespace Sys2Proof.Machine

/-- The gateway: everything the spec gives the machine, and the queue of commands waiting, first in, first out. -/
structure State where
  /-- commands waiting, first in, first out -/
  pending : List Instr
  /-- registers in effect, by register number and index (R18) -/
  regs : Tab (Tab Word)
  /-- held RWS writes (R399) -/
  held : Tab (Tab (Option Word))
  /-- SQC registers (R18) -/
  events : Tab (Tab EvReg)
  /-- 64-bit counters (R398) -/
  counters : Tab (Tab Dword)
  /-- counter latches, by requester number (R398) -/
  latches : Tab (Option Latch)
  /-- MSI-X vectors, by 64 × function + vector (R406-R409) -/
  irq : Tab VecSt
  /-- GLB_BUSERR_ADDR and GLB_BUSERR_INFO (R397) -/
  glbBusErr : BusErr
  /-- PNL_BUSERR of each panel (R404) -/
  pnlBusErr : Tab BusErr
  /-- TIME_NOW_SEC and TIME_NOW_NS latched by a read of TIME_NOW_FRAC (R393) -/
  timeLatch : Dword × Word
  /-- what the last read answered; the model's own output (log 6) -/
  response : Response
  /-- what the gateway has sent, oldest first; the model's own output (log 6) -/
  outbox : List Out
  /-- selects the next free value; the model's own field (log 2) -/
  fresh : Nat
  /-- microseconds of the time base since PORST_N was released (R425) -/
  localUs : Nat
  /-- start-up -/
  boot : Boot
  /-- flash -/
  flash : Flash
  /-- sensors, rails, clocks -/
  pins : Pins
  /-- panels -/
  panels : Tab Panel
  /-- power domains -/
  pwr : Tab PwrDom
  /-- recovery -/
  health : Health
  /-- observation -/
  obs : Obs
  /-- self-test -/
  bist : Bist
  /-- bobbins and cells -/
  bob : Bob
  /-- HBM -/
  mem : Mem
  /-- time base -/
  time : TimeSt
  /-- Thimble -/
  thm : Thimble
  /-- Selvedge -/
  selv : Selv
  /-- span windows -/
  spw : Tab Spw
  /-- Collective Coordinator -/
  cco : Cco
  /-- Seam array -/
  seam : Seam
  /-- Pleat arrays -/
  plt : Plt
  /-- fabric ports and switch core -/
  fab : Fabric
  /-- basting cross-connect -/
  bast : Bast
  /-- line framers -/
  line : Line
  /-- line dies -/
  opt : Opt
  deriving DecidableEq, Repr

/-- Why the machine stops.  No command of the table stops it: every row has an effect in the spec, so no
constructor is raised by a meaning.  `halted` is raised by nothing; it keeps the type inhabited (safe). -/
inductive Fault where
  | halted
  deriving DecidableEq, Repr

/-- Why a command is turned away.  `notModelled` is raised only by the arms of `exec` for commands without a
meaning (safe: nothing is claimed of them). -/
inductive Refusal where
  | notModelled (mnemonic : String)
  deriving DecidableEq, Repr

/-- The machine right after reset: PORST_N asserted, every register at its reset value, every store empty. -/
def State.reset : State :=
  {
    pending := []
    regs := []
    held := []
    events := []
    counters := []
    latches := []
    irq := []
    glbBusErr := ⟨0, false, 0⟩
    pnlBusErr := []
    timeLatch := (0, 0)
    response := .none
    outbox := []
    fresh := 0
    localUs := 0
    boot := Boot.reset
    flash := Flash.reset
    pins := Pins.reset
    panels := []
    pwr := []
    health := Health.reset
    obs := ⟨[], [], [], 0⟩
    bist := ⟨[], 0xFF, .idle, 0⟩
    bob := ⟨[], 0, [], 0, 0, []⟩
    mem := ⟨[], [], 0, 0, 0, 0, 0, false, false, none, false⟩
    time := TimeSt.reset
    thm := ⟨[], [], [], 0, []⟩
    selv := Selv.reset
    spw := []
    cco := ⟨[], [], [], [], 0, [], [], [], [], []⟩
    seam := ⟨[], [], [], [], [], [], 0, 0⟩
    plt := ⟨[], [], [], false, 0, 0, 0, none, 0, 0⟩
    fab := ⟨[], [], [], [], false, false, []⟩
    bast := ⟨[], []⟩
    line := ⟨[], [], [], []⟩
    opt := ⟨[], [], [], []⟩ }

end Sys2Proof.Machine
end

