-- ==== Sys2Proof/Machine/Ops.lean ====
section
/-! DEFINITION. The named operations every meaning is built from: registers, held writes, events, interrupts,
counters, bus errors, free values, messages sent. -/

namespace Sys2Proof.Machine

/-- The outcome type of every meaning. -/
abbrev Result := Host.Outcome State Fault Refusal

/-! ### Registers -/

/-- The value a register holds at reset (R18). -/
def regReset (r : Rid) : Word := BitVec.ofNat 32 (ridRow r).reset

/-- The value in effect of element `i` of register `r`. -/
def regGet (s : State) (r : Rid) (i : Nat) : Word := tabGet (regReset r) (tabGet [] s.regs (ridNum r)) i

/-- Puts a value in effect. -/
def regSet (s : State) (r : Rid) (i : Nat) (v : Word) : State :=
  { s with regs := tabSet [] s.regs (ridNum r) (tabSet (regReset r) (tabGet [] s.regs (ridNum r)) i v) }

/-- The held RWS write of a register, if there is one (R399). -/
def heldGet (s : State) (r : Rid) (i : Nat) : Option Word := tabGet none (tabGet [] s.held (ridNum r)) i

/-- Holds a write, replacing any earlier one, or forgets it (R399). -/
def heldSet (s : State) (r : Rid) (i : Nat) (v : Option Word) : State :=
  { s with held := tabSet [] s.held (ridNum r) (tabSet none (tabGet [] s.held (ridNum r)) i v) }

/-- Bits [hi:lo] of a register in effect. -/
def regBf (s : State) (r : Rid) (i hi lo : Nat) : Nat := bf (regGet s r i) hi lo

/-- Bit `b` of a register in effect. -/
def regBit (s : State) (r : Rid) (i b : Nat) : Bool := bit (regGet s r i) b

/-- Replaces bits [hi:lo] of a register in effect. -/
def regPut (s : State) (r : Rid) (i hi lo v : Nat) : State := regSet s r i (putBf (regGet s r i) hi lo v)

/-! ### Counters (R398) -/

/-- The value of a counter. -/
def ctrGet (s : State) (r : Rid) (i : Nat) : Dword := tabGet 0 (tabGet [] s.counters (ridNum r)) i

/-- Adds to a counter, modulo 2 ^ 64 (R398). -/
def ctrAdd (s : State) (r : Rid) (i n : Nat) : State :=
  let t := tabGet [] s.counters (ridNum r)
  { s with counters := tabSet [] s.counters (ridNum r) (tabSet 0 t i (ctrGet s r i + BitVec.ofNat 64 n)) }

/-- Counts one. -/
def ctrInc (s : State) (r : Rid) (i : Nat) : State := ctrAdd s r i 1

/-! ### Messages sent and free values -/

/-- Sends a message: it joins the outbox. -/
def send (s : State) (o : Out) : State := { s with outbox := s.outbox ++ [o] }

/-- The next free number below `n` (0 when `n` is 0), and the state with the counter advanced (log 2). -/
def freeBelow (s : State) (n : Nat) : Nat × State := (Config.freeNat s.fresh % n, { s with fresh := s.fresh + 1 })

/-- The next free word, and the state with the counter advanced (log 2). -/
def freeWord (s : State) : Word × State := (Config.freeWord s.fresh, { s with fresh := s.fresh + 1 })

/-- Marks a resource of R461 as limited in this interval. -/
def satMark (s : State) (k : Nat) : State :=
  { s with obs := { s.obs with sat := tabMod ⟨0, false⟩ s.obs.sat k (fun x => { x with now := true }) } }

/-! ### Interrupts (R401, R407-R409) -/

/-- The PCIe link carries requests: straps resolved with STRAP_PCIE_EN, PORST_N and PERST_N released (R412, R425, R480). -/
def pcieUp (s : State) : Bool := !s.boot.porst && !s.boot.perst && s.boot.strap.getLsbD 4

/-- Function number of the interrupt table: 0 the physical function, n + 1 virtual function n. -/
def vfFn (n : Nat) : Nat := n + 1

/-- A vector's state; at reset not fired, not pending, not masked (log 1). -/
def vecGet (s : State) (fn vec : Nat) : VecSt := tabGet ⟨false, false, false⟩ s.irq (64 * fn + vec)

/-- Sets a vector's state. -/
def vecSet (s : State) (fn vec : Nat) (v : VecSt) : State :=
  { s with irq := tabSet ⟨false, false, false⟩ s.irq (64 * fn + vec) v }

/-- An interrupt is raised on a vector: a message leaves unless the vector is within its hold-off or masked, or the
link is down, and then the pending bit is set (R401, R409).  A virtual function that is not enabled has no vector (R406). -/
def irqRaise (s : State) (fn vec : Nat) : State :=
  if s.boot.numVfs < fn then s
  else
    let v := vecGet s fn vec
    if v.fired || v.masked || !pcieUp s then vecSet s fn vec { v with pend := true }
    else send (vecSet s fn vec { v with fired := regBf s .GLB_IRQ_HOLDOFF 0 15 0 ≠ 0, pend := false }) (.msix fn vec)

/-- The view of the physical function in P-marked registers (R161, R280). -/
abbrev pfView : Nat := 16

/-- The panel a context belongs to, when it is bound (R117). -/
def ctxPanel (s : State) (k : Nat) : Option Nat :=
  let w := regGet s .SEAM_CTX_BIND k
  if bit w 31 then some (bf w 30 27) else none

/-- The panel a session belongs to, when it is configured (R311). -/
def sessPanel (s : State) (k : Nat) : Option Nat :=
  let w := regGet s .SELV_SESS_CFG k
  if bit w 31 then some (bf w 30 27) else none

/-- The elements of a register that hold a value other than its reset value. -/
def regKeys (s : State) (r : Rid) : List Nat := tabKeys (tabGet [] s.regs (ridNum r))

/-- The configured sessions of a panel (R311). -/
def sessionsOf (s : State) (p : Nat) : List Nat := (regKeys s .SELV_SESS_CFG).filter (fun k => sessPanel s k == some p)

/-- The bound contexts of a panel (R117). -/
def contextsOf (s : State) (p : Nat) : List Nat := (regKeys s .SEAM_CTX_BIND).filter (fun k => ctxPanel s k == some p)

/-- The vectors of a panel's function that an event register is a source of (R408). -/
def panelVec (p : Option Nat) (vec : Nat) : List (Nat × Nat) :=
  match p with
  | some n => [(vfFn n, vec)]
  | none => []

/-- The vectors an event register is a source of (R407, R408), as function and vector. -/
def vectorsOf (s : State) (r : Rid) (i : Nat) : List (Nat × Nat) :=
  match r with
  | .GLB_EVENT => [(0, 0)]
  | .PWR_EVENT | .CLK_EVENT => [(0, 1)]
  | .SEC_EVENT => [(0, 2)]
  | .TIME_EVENT => [(0, 3)]
  | .FPORT_EVENT => [(0, 4)]
  | .SW_EVENT => [(0, 5)]
  | .TM_EVENT => [(0, 6)]
  | .TM_SPW_EVENT => [(0, 6), (vfFn (regBf s .TM_SPW_CTRL i 11 8), 5)]
  | .BAST_EVENT => [(0, 7)]
  | .SEAM_ENG_EVENT => [(0, 8 + i)]
  | .SEAM_CTX_EVENT => (0, 8 + i / 16) :: panelVec (ctxPanel s i) 2
  | .CCO_EVENT => if i = pfView then [(0, 40)] else [(vfFn i, 1)]
  | .PLT_EVENT => [(0, 41)]
  | .BOB_EVENT => [(0, 42)]
  | .MEM_EVENT => if i = pfView then [(0, 43)] else [(vfFn i, 6)]
  | .SELV_EVENT => [(0, 44)]
  | .SELV_SESS_EVENT => (0, 44) :: panelVec (sessPanel s i) 3
  | .LINE_EVENT | .LINE_GRP_EVENT | .LINE_CH_EVENT => [(0, 45)]
  | .OPT_EVENT => [(0, 46 + i)]
  | .OPT_CH_EVENT => [(0, 46 + i / 16)]
  | .THM_EVENT => [(0, 50)]
  | .DBG_EVENT => [(0, 51)]
  | .BIST_EVENT => [(0, 52)]
  | .HLT_EVENT => [(0, 53)]
  | .PNL_EVENT => [(0, 54), (vfFn i, 0)]
  | _ => []

/-! ### Events (R18, R401) -/

/-- An event register. -/
def evGet (s : State) (r : Rid) (i : Nat) : EvReg := tabGet ⟨0, 0⟩ (tabGet [] s.events (ridNum r)) i

/-- Sets an event register. -/
def evSet (s : State) (r : Rid) (i : Nat) (e : EvReg) : State :=
  { s with events := tabSet [] s.events (ridNum r) (tabSet ⟨0, 0⟩ (tabGet [] s.events (ridNum r)) i e) }

/-- The word an event register reads as: SEQ in [31:24], event bits below (R18). -/
def evWord (e : EvReg) : Word := e.seq ++ e.bits

/-- An event happens: its bit is set, SEQ advances, and the register's vectors are raised (R401). -/
def raiseEv (s : State) (r : Rid) (i b : Nat) : State :=
  let e := evGet s r i
  let s := evSet s r i ⟨e.seq + 1, e.bits ||| BitVec.ofNat 24 (pow2 b)⟩
  (vectorsOf s r i).foldl (fun s v => irqRaise s v.1 v.2) s

/-- A write to an SQC register: the bits set as of SEQ clear when [31:24] equals SEQ, otherwise nothing (R18). -/
def sqcClear (s : State) (r : Rid) (i : Nat) (v : Word) : State :=
  let e := evGet s r i
  if bf v 31 24 = e.seq.toNat then evSet s r i ⟨e.seq, 0⟩ else s

/-! ### Field acceptance (R19, and "a write outside a stated range leaves that field unchanged") -/

/-- Whether a field takes the value. -/
def fieldTakes (f : Field) (v : Nat) : Bool :=
  match f.rng with
  | none => true
  | some (a, z) =>
    let x : Int := if a < 0 then toSigned (f.hi + 1 - f.lo) v else (v : Int)
    decide (a ≤ x) && decide (x ≤ z)

/-- The value a register takes from a write: each writable field takes its new bits when they are in range and keeps
its old ones otherwise; reserved bits read 0. -/
def acceptFields (fs : List Field) (old new : Word) : Word :=
  fs.foldl (fun acc f =>
    let v := bf new f.hi f.lo
    putBf acc f.hi f.lo (if fieldTakes f v then v else bf old f.hi f.lo)) 0

/-- The value a register takes from a write of `new` over `old`. -/
def acceptWord (r : Rid) (old new : Word) : Word := acceptFields (ridRow r).fields old new

/-! ### Requesters and bus errors (R397, R398) -/

/-- The requester code of GLB_BUSERR_INFO (R410). -/
def reqCode : Requester → Nat
  | .pf => 0x0000
  | .vf n => 0x0100 + n
  | .ctl => 0x0200

/-- Base of panel n's window in BAR0 (R394). -/
def panelBase (n : Nat) : Nat := 0x10000000 + n * 0x01000000

/-- The panel whose window a BAR0 offset lies in (R394). -/
def windowPanel (addr : Nat) : Option Nat :=
  if 0x10000000 ≤ addr ∧ addr < 0x20000000 then some ((addr - 0x10000000) / 0x01000000) else none

/-- Records a bus error in panel n's PNL_BUSERR, with the window offset (R397, R404). -/
def pnlBusError (s : State) (n off : Nat) (write : Bool) : State :=
  raiseEv { s with pnlBusErr := tabSet ⟨0, false, 0⟩ s.pnlBusErr n ⟨BitVec.ofNat 32 (off % 0x01000000), write, 0⟩ }
    .PNL_EVENT n 2

/-- Records a bus error in GLB_BUSERR_ADDR and GLB_BUSERR_INFO (R397, R410). -/
def glbBusError (s : State) (req : Requester) (addr : Nat) (write : Bool) : State :=
  raiseEv { s with glbBusErr := ⟨BitVec.ofNat 32 addr, write, BitVec.ofNat 16 (reqCode req)⟩ } .GLB_EVENT 0 0

/-- A bus error (R397): of the physical function or the control complex in the GLB record, and through a panel window
in that window's record as well (log 7).  `addr` is the offset in the requester's BAR0. -/
def busError (s : State) (req : Requester) (addr : Nat) (write : Bool) : State :=
  match req with
  | .vf n => pnlBusError s n addr write
  | _ =>
    let s := glbBusError s req addr write
    match windowPanel addr with
    | some n => pnlBusError s n addr write
    | none => s

/-- A read answered by a bus error (R396). -/
def readError (s : State) (req : Requester) (addr : Nat) : State :=
  { busError s req addr false with response := .busError }

/-- A read answered by a word. -/
def answer (s : State) (w : Word) : State := { s with response := .word w }

/-! ### Panels -/

/-- A panel; at reset DISABLED (R404). -/
def panelGet (s : State) (n : Nat) : Panel := tabGet ⟨.disabled, 0⟩ s.panels n

/-- Sets a panel. -/
def panelSet (s : State) (n : Nat) (p : Panel) : State := { s with panels := tabSet ⟨.disabled, 0⟩ s.panels n p }

/-- GLB_PANEL_CFG.EN (R402). -/
def panelEn (s : State) (n : Nat) : Bool := regBit s .GLB_PANEL_CFG n 31

/-- The panel takes new work: enabled, neither RESETTING nor FAULTED (R405, R435). -/
def panelActive (s : State) (n : Nat) : Bool := (panelGet s n).state == .active

/-! ### Variants (R7, R8, R10, R11) -/

/-- Line dies present (R7). -/
def ldPresent (s : State) (d : Nat) : Bool :=
  match s.boot.variant.toNat with
  | 1 | 3 | 4 => decide (d < 4)
  | 2 | 5 => decide (d = 0 ∨ d = 2)
  | _ => false

/-- Stacks present, in ascending order (R7). -/
def hbmStacks (s : State) : List Nat :=
  match s.boot.variant.toNat with
  | 1 | 2 => [0, 1, 2, 3, 4, 5, 6, 7]
  | 3 => [0, 1, 2, 4, 5, 6]
  | 4 | 5 => [0, 1, 4, 5]
  | _ => []

/-- Number of line dies present. -/
def ldCount (s : State) : Nat := ((List.range 4).filter (ldPresent s)).length

/-- HBM capacity in GiB: 48 for each stack (R7, R13). -/
def hbmGiB (s : State) : Nat := 48 * (hbmStacks s).length

/-- Bytes in a GiB. -/
abbrev gib : Nat := 0x40000000

/-! ### Power domains (R28, R442, R448) -/

/-- A domain; at reset OFF (log 1). -/
def domGet (s : State) (d : Nat) : PwrDom := tabGet ⟨.off, 0, false, none⟩ s.pwr d

/-- Sets a domain. -/
def domSet (s : State) (d : Nat) (p : PwrDom) : State := { s with pwr := tabSet ⟨.off, 0, false, none⟩ s.pwr d p }

/-- The domain is powered: ON or DRAINING (R441). -/
def domOn (s : State) (d : Nat) : Bool :=
  match (domGet s d).state with
  | .on | .draining => true
  | _ => false

/-- The domain takes new work: ON and not DRAINING (R441). -/
def domReady (s : State) (d : Nat) : Bool := (domGet s d).state == .on

/-- The domain of a port's quadrant (R15, R16). -/
def portDom (p : Nat) : Nat := 3 + p / 32

/-- The domain of an engine's quarter (R15). -/
def engDom (e : Nat) : Nat := 13 + e / 8

/-- The domain of a line die (R15). -/
def dieDom (d : Nat) : Nat := 20 + d

/-- The domain belongs to an absent line die (R8). -/
def domAbsent (s : State) (d : Nat) : Bool := decide (20 ≤ d ∧ d ≤ 23) && !ldPresent s (d - 20)

end Sys2Proof.Machine
end

