-- ==== Sys2Proof/Machine/Access.lean ====
section
/-! DEFINITION. Reaching registers (14_registers_and_pattern): addresses, panel windows and slices, alias pages, which
registers are implemented, who may reach them. -/

namespace Sys2Proof.Machine

/-! ### Windows (R394, R403) -/

/-- The block windows of BAR0: block, base, size, size of a sub-window (R394). -/
def blkWindows : List (Blk × Nat × Nat × Nat) :=
  [(.GLB, 0x00000000, 0x00100000, 0x00100000), (.PWR, 0x00100000, 0x00100000, 0x00100000),
   (.CLK, 0x00200000, 0x00100000, 0x00100000), (.SEC, 0x00300000, 0x00100000, 0x00100000),
   (.THM, 0x00400000, 0x00400000, 0x00400000), (.TIME, 0x00800000, 0x00800000, 0x00800000),
   (.FPORT, 0x01000000, 0x01000000, 0x01000000), (.SW, 0x02000000, 0x00800000, 0x00800000),
   (.TM, 0x02800000, 0x00800000, 0x00800000), (.BAST, 0x03000000, 0x01000000, 0x01000000),
   (.SEAM, 0x04000000, 0x01000000, 0x00080000), (.CCO, 0x05000000, 0x00800000, 0x00800000),
   (.PLT, 0x05800000, 0x00800000, 0x00800000), (.BOB, 0x06000000, 0x00800000, 0x00800000),
   (.MEM, 0x06800000, 0x00800000, 0x00800000), (.SELV, 0x07000000, 0x00800000, 0x00800000),
   (.LINE, 0x07800000, 0x00800000, 0x00800000), (.OPT, 0x08000000, 0x01000000, 0x00100000),
   (.DBG, 0x09000000, 0x01000000, 0x01000000), (.BIST, 0x0A000000, 0x01000000, 0x01000000),
   (.HLT, 0x0B000000, 0x01000000, 0x01000000)]

/-- The slices of a panel window: block, base, size, alias offset (0 for none), limit of the block offsets mirrored (R403). -/
def slices : List (Blk × Nat × Nat × Nat) :=
  [(.PNL, 0x000000, 0x080000, 0x40000), (.TIME, 0x080000, 0x080000, 0x40000), (.FPORT, 0x100000, 0x080000, 0x40000),
   (.SW, 0x180000, 0x080000, 0x40000), (.SEAM, 0x200000, 0x080000, 0x40000), (.CCO, 0x280000, 0x080000, 0x40000),
   (.MEM, 0x300000, 0x080000, 0), (.THM, 0x400000, 0x100000, 0x80000), (.SELV, 0x500000, 0x100000, 0x80000),
   (.TM, 0x800000, 0x400000, 0x200000)]

/-- Base of a block's window. -/
def blkBase (b : Blk) : Nat :=
  match blkWindows.find? (fun w => w.1 == b) with
  | some w => w.2.1
  | none => 0

/-- Base of a block's slice in a panel window. -/
def sliceBase (b : Blk) : Nat :=
  match slices.find? (fun w => w.1 == b) with
  | some w => w.2.1
  | none => 0

/-! ### Array indices -/

/-- Number of elements an array shape has. -/
def dimsSize (ds : List (Nat × Nat)) : Nat := ds.foldl (fun n d => n * d.2) 1

/-- The offset of an element, counted from the first. -/
def dimsOff : List (Nat × Nat) → Nat → Nat
  | [], _ => 0
  | (st, _) :: ds, i => i / dimsSize ds * st + dimsOff ds (i % dimsSize ds)

/-- The element at an offset, with what is left of the offset below the last stride. -/
def dimsFind : List (Nat × Nat) → Nat → Option (Nat × Nat)
  | [], rel => some (0, rel)
  | (st, n) :: ds, rel =>
    if rel / st < n then (dimsFind ds (rel % st)).map (fun p => (rel / st * dimsSize ds + p.1, p.2)) else none

/-- Elements of a register in one view. -/
def ridCount (r : Rid) : Nat := dimsSize (ridRow r).dims

/-- The element of the outermost array that index `i` lies in: the port, engine, group, session, die or panel. -/
def ridOuter (r : Rid) (i : Nat) : Nat :=
  match (ridRow r).dims with
  | [] => 0
  | _ :: ds => i / dimsSize ds

/-- The view of a P-marked register's index: a panel, or 16 for the physical function. -/
def ridView (r : Rid) (i : Nat) : Nat := i / ridCount r

/-- A register takes two words (R398). -/
def ridWide (r : Rid) : Bool := (ridRow r).acc == .cnt || (ridRow r).acc == .cntv

/-! ### Ports (R16, R215, R219) -/

/-- A port number is implemented in its quadrant's mode (R16). -/
def portImpl (s : State) (p : Nat) : Bool :=
  decide (p < 256) && decide (p % 32 < 32 / pow2 (regBf s .FPORT_QD_MODE (p / 32) 1 0))

/-- The panel a port belongs to (R219). -/
def portPanel (s : State) (p : Nat) : Nat := regBf s .FPORT_CTRL p 27 24

/-- FPORT_CTRL.EN. -/
def portEn (s : State) (p : Nat) : Bool := regBit s .FPORT_CTRL p 31

/-- A register of an array of ports. -/
def ridPerPort (r : Rid) : Bool :=
  match (ridRow r).blk, (ridRow r).dims with
  | .FPORT, (_, 256) :: _ => true
  | .SW, (_, 256) :: _ => true
  | .TM, (_, 256) :: _ => true
  | _, _ => false

/-- The TIME registers of ports (R393). -/
def ridTimePort (r : Rid) : Bool :=
  match r with
  | .TIME_PORT_CFG | .TIME_PORT_ING_LAT | .TIME_PORT_EGR_LAT | .TIME_PORT_STATE | .TIME_PORT_CNT_DROP => true
  | _ => false

/-- The LINE registers of channels (R335). -/
def ridPerChannel (r : Rid) : Bool :=
  match r with
  | .LINE_CH_CFG | .LINE_CH_CMD | .LINE_CH_STATUS | .LINE_CH_EVENT | .LINE_CH_TTI | .LINE_CH_CNT_FEC_CORR | .LINE_CH_CNT_FEC_UNCORR
  | .LINE_CH_CNT_DEFECT => true
  | _ => false

/-! ### What is implemented (R8, R16, R28, R394, R415, R439) -/

/-- The block windows implemented now: GLB, SEC and BIST in safe state and before the image is applied, HLT besides
during device recovery (R394, R425, R439). -/
def blkOpen (s : State) (b : Blk) : Bool :=
  match b with
  | .GLB | .SEC | .BIST => true
  | .HLT => s.boot.recovering || (decide (4 ≤ s.boot.stage.toNat) && s.boot.stage != 15)
  | _ => !s.boot.recovering && decide (4 ≤ s.boot.stage.toNat) && s.boot.stage != 15

/-- The domain a register's subsystem is powered by, where it has one (R28). -/
def ridDom (r : Rid) (i : Nat) : Option Nat :=
  match (ridRow r).blk with
  | .FPORT => if ridPerPort r then some (portDom (ridOuter r i)) else if r = .FPORT_QD_MODE then some (3 + i) else none
  | .SW | .TM | .CCO | .BOB => some 11
  | .BAST => some 12
  | .SEAM => some (engDom (ridOuter r i))
  | .PLT => some 17
  | .SELV | .LINE => some 18
  | .OPT => some (dieDom (ridOuter r i))
  | .THM => if r = .THM_CNT_ENC_SEG ∨ r = .THM_CNT_DEC_SEG ∨ r = .THM_CNT_TAG_FAIL ∨ r = .THM_CNT_PREEMPT then some 19 else none
  | .MEM => if r = .MEM_REM_SHARE ∨ r = .MEM_REM_CNT_RD ∨ r = .MEM_REM_CNT_WR ∨ r = .MEM_REM_CNT_THR then some 11 else none
  | _ => none

/-- A register is implemented: its window open, its domain on, its die, stack or port there (R8, R16, R28). -/
def ridImpl (s : State) (r : Rid) (i : Nat) : Bool :=
  blkOpen s (ridRow r).blk &&
  (match ridDom r i with
    | some d => domOn s d
    | none => true) &&
  (if ridPerPort r ∨ ridTimePort r then portImpl s (ridOuter r i)
    else match (ridRow r).blk with
    | .OPT => ldPresent s (ridOuter r i)
    | .LINE => !ridPerChannel r || ldPresent s (ridOuter r i / 16)
    | .MEM => (match (ridRow r).dims with
      | [(0x40, 8)] => (hbmStacks s).contains i
      | _ => true)
    | _ => true)

/-! ### Who may reach a register (R219, R280, R310, R377, R393, R403, R404) -/

/-- The panel a register of a panel's own resources belongs to; none for the others. -/
def ridPanel (s : State) (r : Rid) (i : Nat) : Option Nat :=
  if (ridRow r).view then (if ridView r i < 16 then some (ridView r i) else none)
  else if ridPerPort r then some (portPanel s (ridOuter r i))
  else match r with
  | .TM_SPW_CTRL | .TM_SPW_BASE_NS | .TM_SPW_BASE_SEC_LO | .TM_SPW_BASE_SEC_HI | .TM_SPW_CYCLE | .TM_SPW_OPEN
  | .TM_SPW_STATUS | .TM_SPW_EVENT | .TM_SPW_CNT_OPEN => some (regBf s .TM_SPW_CTRL i 11 8)
  | .SEAM_CTX_ARITH | .SEAM_CTX_STATUS | .SEAM_CTX_EVENT | .SEAM_CTX_FCAUSE => ctxPanel s i
  | .SELV_SESS_STATUS | .SELV_SESS_EVENT | .SELV_SESS_FCAUSE => sessPanel s i
  | .THM_SESS_CFG | .THM_SESS_KEY | .THM_SESS_USE | .THM_SESS_CMD => sessPanel s i
  | .THM_KLD_W | .THM_KLD_CMD | .THM_KLD_STATUS | .THM_KEK_STATUS | .THM_KLD_SEQ | .THM_KEK_CT =>
    if ridOuter r i < 16 then some (ridOuter r i) else none
  | .PNL_ID | .PNL_BLOCK_STATUS | .PNL_EVENT | .PNL_STATUS | .PNL_CTRL | .PNL_CTX_QUOTA | .PNL_QP_QUOTA | .PNL_BUSERR => some i
  | _ => none

/-- The registers every panel window holds a copy of (R377, R393). -/
def ridShared (r : Rid) : Bool :=
  match r with
  | .THM_ALARM | .TIME_STATUS | .TIME_NOW_FRAC | .TIME_NOW_NS | .TIME_NOW_SEC_LO | .TIME_NOW_SEC_HI => true
  | _ => false

/-- A register is implemented in panel n's window (R403, R404): the panel's own, or a copy; every slice except PNL only
while the panel is not DISABLED. -/
def windowHas (s : State) (n : Nat) (r : Rid) (i : Nat) : Bool :=
  (ridPanel s r i == some n || ridShared r || (r == .MEM_PANEL_QUOTA && i == n)) && ridImpl s r i &&
  ((ridRow r).blk == .PNL || (panelGet s n).state != .disabled)

/-- Whether a requester reaches a register at its own address: the physical function and the control complex in the
block windows and panel windows, a virtual function in its panel's window. -/
def reaches (s : State) (req : Requester) (r : Rid) (i : Nat) : Bool :=
  match req with
  | .vf n => windowHas s n r i
  | _ =>
    if (ridRow r).view && decide (ridView r i < 16) then windowHas s (ridView r i) r i
    else ridImpl s r i

/-- Whether a requester's accesses arrive at all: a host's over the PCIe link, a virtual function's when it is enabled
(R406, R412, R425). -/
def reqLink (s : State) (req : Requester) : Bool :=
  match req with
  | .pf => pcieUp s && domOn s 2
  | .vf n => pcieUp s && domOn s 2 && decide (n < s.boot.numVfs)
  | .ctl => !s.boot.porst

/-! ### Addresses -/

/-- Offset of a register element in its block's window, P-marked registers in one view. -/
def regOff (r : Rid) (i : Nat) : Nat := (ridRow r).off + dimsOff (ridRow r).dims (if (ridRow r).view then i % ridCount r else i)

/-- Offset of a register element in a panel window (R403): the SEAM slice is compacted. -/
def sliceOff (r : Rid) (i : Nat) : Nat :=
  let b := (ridRow r).blk
  if b = .SEAM then sliceBase b + 0x2000 * ridOuter r i + regOff r i % 0x80000
  else if b = .PNL then sliceBase b + regOff r i % 0x1000000
  else if r = .MEM_PANEL_QUOTA then sliceBase b + 0x100
  else sliceBase b + regOff r i

/-- The BAR0 offset at which a requester addresses a register. -/
def addrOf (req : Requester) (r : Rid) (i : Nat) : Nat :=
  match req with
  | .vf _ => sliceOff r i
  | _ =>
    if (ridRow r).blk = .PNL then panelBase i + sliceOff r i
    else if (ridRow r).view && decide (ridView r i < 16) then panelBase (ridView r i) + sliceOff r i
    else blkBase (ridRow r).blk + regOff r i

/-- What an address names. -/
inductive Target where
  /-- a register word; `hi` for the high word of a pair -/
  | reg (r : Rid) (i : Nat) (hi : Bool)
  /-- the shadow alias of a register (R395) -/
  | shadow (r : Rid) (i : Nat)
  /-- an offset in the HBM aperture, through the window of a view (R271) -/
  | aperture (view off : Nat)
  | none
  deriving DecidableEq, Repr

/-- The register of a block at a block offset. -/
def regAt (b : Blk) (off : Nat) : Option (Rid × Nat × Bool) :=
  (blkRids b).findSome? (fun r =>
    if off < (ridRow r).off then Option.none
    else match dimsFind (ridRow r).dims (off - (ridRow r).off) with
    | some (i, 0) => some (r, i, false)
    | some (i, 4) => if ridWide r then some (r, i, true) else Option.none
    | _ => Option.none)

/-- The index of a register in a view. -/
def viewIdx (r : Rid) (view i : Nat) : Nat := if (ridRow r).view then view * ridCount r + i else i

/-- What an offset of a block window names (R394, R395). -/
def blkTarget (b : Blk) (off sub : Nat) : Target :=
  if b = .MEM ∧ 0x400000 ≤ off then .aperture pfView (off - 0x400000)
  else
    let half := if b = .MEM then 0x200000 else sub / 2
    let o := off % sub
    let back := fun (x : Nat) => regAt b (off - off % sub + x)
    if o < half then
      match back o with
      | some (r, i, hi) => .reg r (viewIdx r pfView i) hi
      | Option.none => .none
    else
      match back (o - half) with
      | some (r, i, _) => if (ridRow r).acc = .rws then .shadow r (viewIdx r pfView i) else .none
      | Option.none => .none

/-- The block offset that a slice offset mirrors (R403): a MEM slice holds the panel's own MEM_PANEL_QUOTA at one place, and nothing at the
places of the others' (R280). -/
def sliceMirror (b : Blk) (n o : Nat) : Nat :=
  if b = .SEAM then o / 0x2000 * 0x80000 + o % 0x2000
  else if b = .PNL then n * 0x1000000 + o
  else if b = .MEM ∧ 0x100 ≤ o ∧ o < 0x140 then (if o = 0x100 then 0x100 + 4 * n else 0x140)
  else o

/-- What an offset of panel n's window names (R403). -/
def windowTarget (n off : Nat) : Target :=
  if 0xC00000 ≤ off then .aperture n (off - 0xC00000)
  else match slices.find? (fun w => decide (w.2.1 ≤ off ∧ off < w.2.1 + w.2.2.1)) with
  | Option.none => .none
  | some (b, base, _, al) =>
    let o := off - base
    if al = 0 ∨ o < al then
      match regAt b (sliceMirror b n o) with
      | some (r, i, hi) => .reg r (viewIdx r n i) hi
      | Option.none => .none
    else
      match regAt b (sliceMirror b n (o - al)) with
      | some (r, i, _) => if (ridRow r).acc = .rws then .shadow r (viewIdx r n i) else .none
      | Option.none => .none

/-- What a BAR0 offset names for a requester (R394, R403). -/
def target (req : Requester) (addr : Nat) : Target :=
  match req with
  | .vf n => if addr < 0x1000000 then windowTarget n addr else .none
  | _ =>
    match windowPanel addr with
    | some n => windowTarget n (addr % 0x1000000)
    | Option.none =>
      match blkWindows.find? (fun w => decide (w.2.1 ≤ addr ∧ addr < w.2.1 + w.2.2.1)) with
      | some (b, base, _, sub) => blkTarget b (addr - base) sub
      | Option.none => .none

/-- Whether the window an address lies in holds the register: the panel's for a panel window (R403). -/
def addrHas (s : State) (req : Requester) (addr : Nat) (r : Rid) (i : Nat) : Bool :=
  match req, windowPanel addr with
  | .vf n, _ => windowHas s n r i
  | _, some n => windowHas s n r i
  | _, Option.none => ridImpl s r i

/-! ### Guarded writes -/

/-- A write to a register by a command row: nothing without a link, a bus error where the register is not implemented for
the requester, `f` otherwise (R394-R397). -/
def guardWrite (s : State) (req : Requester) (r : Rid) (i : Nat) (f : State → State) : State :=
  if !reqLink s req then s
  else if decide (i < ridCount r * (if (ridRow r).view then 17 else 1)) && reaches s req r i then f s
  else busError s req (addrOf req r i) true

/-- A read of a register by a command row: nothing without a link, a bus error where the register is not implemented for the
requester, `f` otherwise. -/
def guardRead (s : State) (req : Requester) (r : Rid) (i : Nat) (f : State → State) : State :=
  if !reqLink s req then s
  else if decide (i < ridCount r * (if (ridRow r).view then 17 else 1)) && reaches s req r i then f s
  else readError s req (addrOf req r i)

/-- An RWS write takes effect at once when the unit is idle, and is held otherwise (R399). -/
def rwsPut (s : State) (r : Rid) (i : Nat) (v : Word) (idle : Bool) (apply : State → Word → State) : State :=
  if idle then apply (heldSet s r i none) v else heldSet s r i (some v)

/-- The value an RWS write builds on: the held value, or the one in effect (R399: the held value is the whole register as
last written). -/
def rwsBase (s : State) (r : Rid) (i : Nat) : Word :=
  match heldGet s r i with
  | some v => v
  | none => regGet s r i

end Sys2Proof.Machine
end

