-- ==== Sys2Proof/Machine/Hbm.lean ====
section
/-! DEFINITION. HBM (08_bobbin_and_hbm): regions, quotas, byte reads and writes, uncorrectable blocks. -/

namespace Sys2Proof.Machine

/-- What a byte of HBM that nothing has written reads as (log 5). -/
abbrev hbmBlank : Byte := 0

/-- Capacity of the variant in bytes (R7, R267). -/
def hbmCap (s : State) : Nat := hbmGiB s * gib

/-- Start of the control complex store, 128 MiB, and of the swatch region, 1 GiB, where it ends (R268). -/
abbrev ctlStoreBase : Nat := 0x08000000
/-- Start of the swatch region (R268). -/
abbrev swatchBase : Nat := 0x40000000
/-- Start of the trace buffers (R268). -/
abbrev traceBase : Nat := 0x80000000
/-- Start of the retransmit region (R268). -/
abbrev rtxBase : Nat := 8 * 0x40000000
/-- Start of the codebook slots (R268). -/
abbrev codebookBase : Nat := 0x04000000

/-- Start of the skew region (R268). -/
def skewBase (s : State) : Nat := (8 + s.mem.rtxGiB) * gib

/-- Start of the panel area (R268). -/
def panelAreaBase (s : State) : Nat := (8 + s.mem.rtxGiB + s.mem.skewGiB) * gib

/-- The region code of MEM_UE_ADDR_HI (R280). -/
def regionCode (s : State) (a : Nat) : Nat :=
  if a < rtxBase then 0 else if a < skewBase s then 1 else if a < panelAreaBase s then 2 else 3

/-- Granules of 256 B go to the present stacks in ascending order, in turn (R267). -/
def stackOf (s : State) (a : Nat) : Nat := (hbmStacks s).getD ((a / 256) % (hbmStacks s).length) 0

/-- The byte at a device address. -/
def hbmByte (s : State) (a : Nat) : Byte := tabGet hbmBlank s.mem.cells a

/-- `n` bytes from a device address on. -/
def hbmBytes (s : State) (a n : Nat) : List Byte := tabGetList hbmBlank s.mem.cells a n

/-- The 32 B blocks that `n` bytes from `a` on touch. -/
def blocks32 (a n : Nat) : List Nat := if n = 0 then [] else (List.range ((a + n - 1) / 32 + 1 - a / 32)).map (· + a / 32)

/-- The first uncorrectable block among those touched. -/
def ueIn (s : State) (a n : Nat) : Option Nat := (blocks32 a n).find? (fun b => s.mem.ue.contains b)

/-- Records an uncorrectable read (R277): address, region, counter of the stack, MEM_EVENT.UE; one of the control complex store leads to device
recovery at the next microsecond (R428, R440; log 78). -/
def recordUe (s : State) (a : Nat) : State :=
  let m := { s.mem with ueAddr := BitVec.ofNat 40 a, ueRegion := BitVec.ofNat 8 (regionCode s a) }
  let s := { s with mem := { m with ctlUe := m.ctlUe || decide (ctlStoreBase ≤ a ∧ a < swatchBase) } }
  raiseEv (ctrInc s .MEM_CNT_UE (stackOf s a)) .MEM_EVENT pfView 0

/-- Counts bytes moved, granule by granule, against their stacks (R280). -/
def countBytes (r : Rid) : Nat → State → Nat → Nat → State
  | 0, s, _, _ => s
  | k + 1, s, a, n =>
    if n = 0 then s
    else
      let m := min n (256 - a % 256)
      countBytes r k (ctrAdd s r (stackOf s a) m) (a + m) (n - m)

/-- A read of a block whose error patrol scrub has corrected and not yet written back is corrected again: it is counted (R267, R276, R280). -/
def readCorrected (s : State) (a n : Nat) : State :=
  match s.mem.scrubWb with
  | none => s
  | some w => (w.words.filter (fun b => (blocks32 a n).contains b)).foldl
      (fun s b => raiseEv (ctrInc s .MEM_CNT_CE (stackOf s (32 * b))) .MEM_EVENT pfView 1) s

/-- Reads `n` bytes: the bytes, or none when a block is uncorrectable, which is then recorded (R277).  An error that the medium has and that
nothing has reported is no part of the state (log 86). -/
def hbmRead (s : State) (a n : Nat) : Option (List Byte) × State :=
  let s := readCorrected (countBytes .MEM_CNT_RD_BYTES (n / 256 + 2) s a n) a n
  match ueIn s a n with
  | some b => (none, recordUe s (32 * b))
  | none => (some (hbmBytes s a n), s)

/-- Writes the part of a store that lies in one 32 B block: a whole block clears an uncorrectable error, a part of an
uncorrectable block is dropped and recorded (R277); a pending scrub write-back to the block is cancelled (R276). -/
def hbmWriteBlock (s : State) (a : Nat) (bs : List Byte) : State :=
  let b := a / 32
  let s := match s.mem.scrubWb with
    | some w => if w.block = a / 64 then { s with mem := { s.mem with scrubWb := none } } else s
    | none => s
  if s.mem.ue.contains b then
    if bs.length = 32 then
      { s with mem := { s.mem with cells := tabSetList hbmBlank s.mem.cells a bs, ue := s.mem.ue.filter (· ≠ b) } }
    else recordUe s (32 * b)
  else { s with mem := { s.mem with cells := tabSetList hbmBlank s.mem.cells a bs } }

/-- Writes bytes block by block. -/
def hbmWriteFuel : Nat → State → Nat → List Byte → State
  | 0, s, _, _ => s
  | k + 1, s, a, bs =>
    match bs with
    | [] => s
    | _ =>
      let m := 32 - a % 32
      hbmWriteFuel k (hbmWriteBlock s a (bs.take m)) (a + m) (bs.drop m)

/-- Writes bytes from a device address on (R267, R277). -/
def hbmWrite (s : State) (a : Nat) (bs : List Byte) : State :=
  let s := countBytes .MEM_CNT_WR_BYTES (bs.length / 256 + 2) s a bs.length
  hbmWriteFuel (bs.length / 32 + 2) s a bs

/-- The first uncorrectable block that a write of `n` bytes from `a` on covers only in part: that part is dropped (R277). -/
def ueInPart (s : State) (a n : Nat) : Option Nat :=
  (blocks32 a n).find? (fun b => s.mem.ue.contains b && !(decide (a ≤ 32 * b) && decide (32 * b + 32 ≤ a + n)))

/-- Bytes that residual accesses may move in 1 µs: SHARE/64 of 16 TB/s on eight stacks, scaled by the stacks present (R11, R183, R273). -/
def remBudget (s : State) : Nat := 2000000 * (hbmStacks s).length * regBf s .MEM_REM_SHARE 0 5 0 / 64

/-- The oldest residual access does not fit what is left of the microsecond's share (R183). -/
def remWaiting (s : State) : Bool :=
  match s.seam.remq with
  | [] => false
  | r :: _ => decide (remBudget s < s.seam.remUsed + r.len)

/-- Start and length in bytes of a panel's quota (R269, R280). -/
def quotaOf (s : State) (p : Nat) : Nat × Nat :=
  (panelAreaBase s + regBf s .MEM_PANEL_QUOTA p 31 16 * 0x04000000, regBf s .MEM_PANEL_QUOTA p 15 0 * 0x04000000)

/-- Whether `n` bytes from `a` on are addresses a command of a window may name: within the panel's quota, or for the
physical function anywhere in the panel area (R269). -/
def inQuota (s : State) (view a n : Nat) : Bool :=
  if view = pfView then decide (panelAreaBase s ≤ a) && decide (a + n ≤ hbmCap s)
  else
    let (b, l) := quotaOf s view
    decide (b ≤ a) && decide (a + n ≤ b + l) && decide (a + n ≤ hbmCap s)

/-- The device address an aperture access names (R271): MEM_APT_BASE plus the offset, relative to the start of the
quota in a panel window; none where the access faults. -/
def aptTarget (s : State) (view off : Nat) : Option Nat :=
  let base := regBf s .MEM_APT_BASE_HI view 7 0 * pow2 32 + regBf s .MEM_APT_BASE_LO view 31 22 * pow2 22
  if view = pfView then
    let a := base + off
    if hbmCap s ≤ a ∨ (ctlStoreBase ≤ a ∧ a < swatchBase) then none else some a
  else
    let (b, l) := quotaOf s view
    if base + off + 4 ≤ l ∧ b + base + off + 4 ≤ hbmCap s then some (b + base + off) else none

/-- The capacity the panel area may use, and R12's checks of RTX and SKEW: the scaled maxima (R11, R12). -/
def layoutOk (s : State) (rtx skew : Nat) : Bool :=
  decide (rtx ≤ 128 * (hbmStacks s).length / 8) && decide (skew ≤ 32 * ldCount s / 4) &&
  decide (8 + rtx + skew ≤ hbmGiB s)

/-- Writes MEM_PANEL_QUOTA unless a panel has an open collective or busy command, the quota would overlap another or
would end beyond the panel area (R270); `inUse` says the first. -/
def quotaAccepts (s : State) (p : Nat) (v : Word) (inUse : Bool) : Bool :=
  let b := bf v 31 16
  let l := bf v 15 0
  let clash := (List.range 16).any (fun q => q ≠ p &&
    let b' := regBf s .MEM_PANEL_QUOTA q 31 16
    let l' := regBf s .MEM_PANEL_QUOTA q 15 0
    l ≠ 0 && l' ≠ 0 && decide (b < b' + l' ∧ b' < b + l))
  !inUse && !clash && decide (panelAreaBase s + (b + l) * 0x04000000 ≤ hbmCap s)

end Sys2Proof.Machine
end

