-- ==== Sys2Proof/Machine/Bobbin.lean ====
section
/-! DEFINITION. Bobbins, spools, handles and cells (08_bobbin_and_hbm). -/

namespace Sys2Proof.Machine

/-- Cells of the packet buffer (R255). -/
abbrev cellTotal : Nat := 393216

/-- Window size of each spool in bytes (R15, R256). -/
def spoolWindow : Nat → Nat
  | 0 => 256
  | 1 => 1024
  | 2 => 4096
  | 3 => 9216
  | 4 => 65536
  | 5 => 1048576
  | _ => 0

/-- A spool; before a Pattern image is applied it has no bobbins. -/
def spoolGet (s : State) (k : Nat) : Spool := tabGet ⟨0, 0, [], [], 0, 0⟩ s.bob.spools k

/-- Sets a spool. -/
def spoolSet (s : State) (k : Nat) (p : Spool) : State :=
  { s with bob := { s.bob with spools := tabSet ⟨0, 0, [], [], 0, 0⟩ s.bob.spools k p } }

/-- Ordinary handles taken or lost. -/
def spoolOrdUsed (p : Spool) : Nat :=
  (p.taken.filter (fun i => decide (p.priv ≤ i))).length + p.lost.length

/-- Free ordinary handles, cache and ring together (R279). -/
def spoolOrdFree (p : Spool) : Nat := p.count - p.priv - spoolOrdUsed p

/-- Free privileged handles (R279). -/
def spoolPrivFree (p : Spool) : Nat := p.priv - (p.taken.filter (fun i => decide (i < p.priv))).length

/-- The handle of a bobbin: [31:28] spool, [27:0] index. -/
def mkHandle (spool idx : Nat) : Word := BitVec.ofNat 32 (spool * pow2 28 + idx)

/-- The `k`-th index from `i` on that a rising list does not name. -/
def nthFree : List Nat → Nat → Nat → Nat
  | [], i, k => i + k
  | x :: xs, i, k => if x < i then nthFree xs i k else if x - i ≤ k then nthFree xs (x + 1) (k - (x - i)) else i + k

/-- Inserts into a rising list. -/
def insertRising (x : Nat) : List Nat → List Nat
  | [] => [x]
  | y :: ys => if x < y then x :: y :: ys else if x = y then y :: ys else y :: insertRising x ys

/-- The smallest spool whose window holds `n` bytes, among those for frames (R257). -/
def frameSpool (n : Nat) : Nat := if n ≤ 256 then 0 else if n ≤ 1024 then 1 else if n ≤ 4096 then 2 else 3

/-- A read of 128 handles of the ring starts where the cache holds fewer than 192, fewer than 4 are outstanding and the ring holds more (R261). -/
def refillStart (p : Spool) : Spool :=
  if p.cache < 192 ∧ p.reads < 4 ∧ p.cache + 128 * p.reads < spoolOrdFree p then { p with reads := p.reads + 1 } else p

/-- After an allocation from the cache (R261). -/
def cacheTake (p : Spool) : Spool := refillStart { p with cache := p.cache - 1 }

/-- 128 handles of a spool are read from, or written to, its ring: 4 B each at a place in the ring region that the spec does not give (R261, R268,
R280; log 51). -/
def ringTraffic (s : State) (r : Rid) : State :=
  let (a, s) := freeBelow s 0x20000
  countBytes r 4 s (512 * a) 512

/-- A cache that holds more than 448 handles writes 128 to the ring (R261). -/
def cacheSpill (s : State) (k : Nat) : State :=
  let p := spoolGet s k
  if 448 < p.cache then ringTraffic (spoolSet s k { p with cache := p.cache - 128 }) .MEM_CNT_WR_BYTES else s

/-- An ordinary allocation: a free handle in no defined order (R261, a free value), none when the cache is empty. -/
def bobTakeOrd (s : State) (k : Nat) : Option Word × State :=
  let p := spoolGet s k
  if spoolOrdFree p = 0 ∨ p.cache = 0 then (none, s)
  else
    let (n, s) := freeBelow s (spoolOrdFree p)
    let used := (p.lost.foldl (fun l x => insertRising x l) (p.taken.filter (fun i => decide (p.priv ≤ i))))
    let i := nthFree used p.priv n
    (some (mkHandle k i), spoolSet s k (cacheTake { p with taken := insertRising i p.taken }))

/-- A privileged allocation takes the lowest free index, or falls back to an ordinary bobbin, which is counted (R260; log 88). -/
def bobTakePriv (s : State) (k : Nat) : Option Word × State :=
  let p := spoolGet s k
  if spoolPrivFree p ≠ 0 then
    let i := nthFree (p.taken.filter (fun i => decide (i < p.priv))) 0 0
    (some (mkHandle k i), spoolSet s k { p with taken := insertRising i p.taken })
  else match bobTakeOrd s k with
    | (some h, s) => (some h, raiseEv (ctrInc s .BOB_CNT_PRIV_FALLBACK 0) .BOB_EVENT 0 3)
    | (none, s) => (none, s)

/-- A bobbin of spool `k`. -/
def bobTake (s : State) (k : Nat) (priv : Bool) : Option Word × State :=
  if priv then bobTakePriv s k else bobTakeOrd s k

/-- A unit asks for a bobbin; when none of the size is free it waits, and the wait is counted (R262). -/
def bobRequest (s : State) (k unit sub : Nat) (priv : Bool) : Option Word × State :=
  match bobTake s k priv with
  | (some h, s) => (some h, s)
  | (none, s) =>
    let s := if spoolOrdFree (spoolGet s k) = 0 then raiseEv (ctrInc s .BOB_CNT_NO_BOBBIN 0) .BOB_EVENT 0 1 else s
    (none, { s with bob := { s.bob with waits := s.bob.waits ++ [⟨k, unit, sub, priv⟩] } })

/-- The check of a handle's use (R263): 0x00 when it passes, the cause otherwise. -/
def handleCheck (s : State) (h : Word) (off : Nat) : Nat :=
  let k := bf h 31 28
  let i := bf h 27 0
  if 5 < k then 1
  else if (spoolGet s k).count ≤ i then 2
  else if spoolWindow k ≤ off ∨ off % 64 ≠ 0 then 3
  else if !(spoolGet s k).taken.contains i then 4
  else 0

/-- Records a pointer fault and leaves the operation undone (R266); what it leads to follows at the next microsecond (R428, R440; log 78). -/
def pointerFault (s : State) (unit : Nat) (h : Word) (off cause : Nat) : State :=
  let info := BitVec.ofNat 32 (off / 64 * pow2 16 + unit * 256 + cause)
  let s := { s with bob := { s.bob with pfHandle := h, pfInfo := info, escal := s.bob.escal ++ [unit] } }
  raiseEv (ctrInc s .BOB_CNT_PTR_FAULT 0) .BOB_EVENT 0 0

/-- Whether a handle may be used at an offset: none that is bound is no use; a check that fails is a pointer fault, and the operation is left undone
(R263, R266). -/
def bobUse (s : State) (unit : Nat) (h : Option Word) (off : Nat) : Bool × State :=
  match h with
  | none => (true, s)
  | some h => match handleCheck s h off with
    | 0 => (true, s)
    | c => (false, pointerFault s unit h off c)

/-- Returns a handle that passed its check: a privileged one to the bitmap, an ordinary one to the cache (R260, R261). -/
def bobReturn (s : State) (h : Word) : State :=
  let k := bf h 31 28
  let i := bf h 27 0
  let p := spoolGet s k
  let p := { p with taken := p.taken.filter (· ≠ i) }
  if i < p.priv then spoolSet s k p
  else
    cacheSpill (spoolSet s k (refillStart { p with cache := p.cache + 1 })) k

/-- A free of a handle: checked first, a pointer fault where the check fails (R263). -/
def bobFree (s : State) (unit : Nat) (h : Word) : State :=
  match handleCheck s h 0 with
  | 0 => bobReturn s h
  | c => pointerFault s unit h 0 c

/-- Cells a number of bytes occupies (R255). -/
def cellsOf (n : Nat) : Nat := (n + 255) / 256

/-- Takes cells from the shared pool. -/
def cellsTake (s : State) (n : Nat) : State := { s with bob := { s.bob with cellsUsed := s.bob.cellsUsed + n } }

/-- Returns cells to the shared pool. -/
def cellsFree (s : State) (n : Nat) : State := { s with bob := { s.bob with cellsUsed := s.bob.cellsUsed - n } }

/-- Cells held change from `n` to `m` as bytes are written (R255). -/
def cellsMove (s : State) (n m : Nat) : State := cellsTake (cellsFree s n) m

/-- Free cells (R279). -/
def cellsLeft (s : State) : Nat := cellTotal - s.bob.cellsUsed

/-! ### Reference-counted result cells (R158, R263, R264) -/

/-- Result cells. -/
def cellGet (s : State) (n : Nat) : Option ResCell := tabGet none s.cco.cells n
/-- Sets result cells. -/
def cellSet (s : State) (n : Nat) (x : Option ResCell) : State := { s with cco := { s.cco with cells := tabSet none s.cco.cells n x } }

/-- A reference count is decremented: the cells are freed at zero, and with them the bobbin that its holder has released; a decrement at zero is
pointer fault 0x06 (R158, R263, R264). -/
def cellDrop (s : State) (n : Nat) : State :=
  match cellGet s n with
  | none => pointerFault s 0x22 (BitVec.ofNat 32 n) 0 6
  | some x =>
    if x.count ≤ 1 then
      let s := cellSet (cellsFree s x.cells) n none
      match x.handle with
      | some h => bobFree s 0x22 h
      | none => s
    else cellSet s n (some { x with count := x.count - 1 })

/-- A spool as the SPOOLS section gives it, with nothing allocated and its cache filled (R256, R261; log 8). -/
def spoolInit (count priv : Nat) : Spool := ⟨count, priv, [], [], min 512 (count - priv), 0⟩

/-- R259's checks of the six COUNT and PRIV pairs. -/
def spoolsOk (l : List (Nat × Nat)) : Bool :=
  let m := [1, 2, 5, 17]
  l.length == 6 &&
  l.all (fun p => decide (64 ≤ p.1 ∧ p.1 ≤ 524288) && decide (16 ≤ p.2 ∧ 2 * p.2 ≤ p.1)) &&
  decide ((l.map Prod.fst).sum ≤ 1048576) &&
  ((l.take 4).zip m).all (fun q => decide (393216 ≤ (q.1.1 - q.1.2) * q.2))

end Sys2Proof.Machine
end

