-- ==== Sys2Proof/Machine/Time.lean ====
section
/-! DEFINITION. The time base (13_time_service): served time, locking, the servo, PTP messages, line time. -/

namespace Sys2Proof.Machine

/-! ### Served time (R379) -/

/-- Served time `phase` (2^-16 ns) after the last tick, in 2^-16 ns. -/
def servedAt (s : State) (phase : Nat) : Int :=
  let extra : Int := (phase : Int) * (pow2 32 : Int) + ((phase : Int) * s.time.rate) / (pow2 16 : Int)
  ((s.time.now : Int) + extra) / (pow2 32 : Int)

/-- A timestamp: served time rounded to the 125 ps step, a multiple of 2^13 units (R379).
Rounding to the nearest step is the model's choice (log 9). -/
def stampRound (t : Int) : Int := (t + 4096) / 8192 * 8192

/-- Local count since PORST_N was released, in 2^-16 ns. -/
def localAt (s : State) (phase : Nat) : Nat := s.localUs * 65536000 + phase

/-- Whole nanoseconds of served time. -/
def nowNs (s : State) : Nat := s.time.now / pow2 48

/-- Seconds of served time. -/
def nowSec (s : State) : Nat := nowNs s / 1000000000

/-- Served time as software reads it, rounded to the interpolator step, in 2^-16 ns (R379). -/
def nowStamp (s : State) : Nat := (stampRound (servedAt s 0)).toNat

/-- The fraction of TIME_NOW_FRAC (R379). -/
def nowFrac (s : State) : Nat := nowStamp s % 65536

/-- The nanoseconds of TIME_NOW_NS (R379). -/
def nowStampNs (s : State) : Nat := nowStamp s / 65536 % 1000000000

/-- The seconds of TIME_NOW_SEC (R379). -/
def nowStampSec (s : State) : Nat := nowStamp s / 65536 / 1000000000

/-- Trace and swatch time: seconds × 10^9 + nanoseconds modulo 2^64 at 2 ns resolution (R454). -/
def traceTime (s : State) : Dword := BitVec.ofNat 64 (nowNs s / 2 * 2)

/-! ### Rates (R383) -/

/-- ±50 ppm in 2^-48, rounded inward. -/
abbrev ppm50 : Int := 14073748835
/-- ±200 ppm in 2^-48, rounded inward. -/
abbrev ppm200 : Int := 56294995342

/-- Limits a value to ±`l`. -/
def clampInt (l x : Int) : Int := if x < -l then -l else if l < x then l else x

/-- The rate that takes effect at the next tick (R382, R383): the trim in FREERUN, otherwise estimate plus phase term. -/
def rateTarget (s : State) : Int :=
  match s.time.mode with
  | .freerun => toSigned 21 (regBf s .TIME_FREQ_TRIM 0 20 0) * 65536
  | .acquire => s.time.rate
  | _ => clampInt ppm200 (s.time.est + clampInt ppm50 s.time.phase)

/-- The expected sample interval as a power of two of a second: 0 for PPS, logSyncInterval of the slave port for PTP (R384). -/
def sampleLog (s : State) (port : Nat) : Int :=
  if regBf s .TIME_CFG 0 1 0 = 2 then toSigned 4 (regBf s .TIME_PORT_CFG port 7 4) else 0

/-- The phase term of an offset: the offset divided by the interval, in 2^-48, limited to ±50 ppm (R383). -/
def phaseOf (off : Int) (lg : Int) : Int :=
  let x := off * (pow2 32 : Int) / 1000000000
  clampInt ppm50 (if 0 ≤ lg then x / (pow2 lg.toNat : Int) else x * (pow2 (-lg).toNat : Int))

/-! ### States -/

/-- Enters HOLDOVER (R384): the phase term is zero, the estimate freezes at its average over the last 64 s of TRACKING
or over all of a shorter TRACKING period; HOLDOVER is set. -/
def holdoverAvg (s : State) : Int :=
  let stop := s.localUs
  let start := max s.time.trackStart (stop - 64000000)
  let (acc, _) := s.time.hist.foldl (fun (p : Int × Nat) h =>
    let from' := max h.1 start
    if from' < p.2 then (p.1 + h.2 * ((p.2 - from' : Nat) : Int), from') else p) ((0 : Int), stop)
  if stop ≤ start then s.time.est else acc / ((stop - start : Nat) : Int)

/-- Enters HOLDOVER (R384). -/
def enterHoldover (s : State) : State :=
  raiseEv { s with time := { s.time with mode := .holdover, phase := 0, est := holdoverAvg s, outRun := 0, retRun := 0 } }
    .TIME_EVENT 0 2

/-- Enters ACQUIRE with nothing gathered (R382, R385). -/
def enterAcquire (s : State) : State :=
  { s with time := { s.time with mode := .acquire, samples := [], ppsLast := none, ppsSec := none, ppsRun := 0, phase := 0 } }

/-- Steps once to the reference and enters TRACKING (R382): EVER_LOCKED, STEP_CNT, STEPPED, and FIRST_LOCK the first time. -/
def stepTo (s : State) (off : Int) : State :=
  let first := !s.time.everLocked
  let now := ((s.time.now : Int) + off * (pow2 32 : Int)).toNat
  let s := { s with time := { s.time with now := now, mode := .tracking, everLocked := true,
                                          stepCnt := s.time.stepCnt + 1, est := s.time.rate, phase := 0, samples := [],
                                          outRun := 0, retRun := 0, hist := [(s.localUs, s.time.rate)],
                                          trackStart := s.localUs, noServe := false } }
  let s := raiseEv s .TIME_EVENT 0 5
  if first then raiseEv s .TIME_EVENT 0 0 else s

/-- 10 µs and 1 µs in 2^-16 ns. -/
abbrev us10 : Int := 655360000
/-- 1 µs in 2^-16 ns. -/
abbrev us1 : Int := 65536000

/-- The servo corrects an offset by rate (R383).  The next frequency estimate is not stated: a free value within ±200 ppm. -/
def servo (s : State) (off lg : Int) : State :=
  let (n, s) := freeBelow s (2 * 56294995342 + 1)
  let est := (n : Int) - ppm200
  { s with time := { s.time with phase := phaseOf off lg, est := est, hist := (s.localUs, est) :: s.time.hist } }

/-- A sample in TRACKING or HOLDOVER (R383-R385); `off` in 2^-16 ns. -/
def timeSample (s : State) (off lg : Int) : State :=
  let s := { s with time := { s.time with offset := off / 4096 } }
  let far := decide (us10 < off) || decide (off < -us10)
  match s.time.mode with
  | .tracking =>
    if far then
      let s := ctrInc s .TIME_CNT_OUTLIER 0
      if s.time.outRun = 0 then { s with time := { s.time with outRun := 1 } }
      else enterHoldover (raiseEv s .TIME_EVENT 0 1)
    else servo { s with time := { s.time with outRun := 0 } } off lg
  | .holdover =>
    if far then { ctrInc s .TIME_CNT_OUTLIER 0 with time := { s.time with retRun := 0 } }
    else if s.time.retRun = 0 then { s with time := { s.time with retRun := 1 } }
    else
      servo { s with time := { s.time with mode := .tracking, retRun := 0, outRun := 0, trackStart := s.localUs,
                                           hist := [(s.localUs, s.time.est)] } } off lg
  | _ => s

/-- A PTP sample in ACQUIRE: eight consecutive within 1 µs of each other qualify; one that is not restarts from itself (R382). -/
def acquireSample (s : State) (off : Int) : State :=
  let s := { s with time := { s.time with offset := off / 4096 } }
  let ok := s.time.samples.all (fun x => decide (x - off ≤ us1) && decide (off - x ≤ us1))
  let l := if ok then off :: s.time.samples else [off]
  if 8 ≤ l.length then stepTo s off else { s with time := { s.time with samples := l } }

/-- A sample of the upstream port, whatever the state (R382-R385). -/
def ptpSample (s : State) (off lg : Int) : State :=
  match s.time.mode with
  | .acquire => acquireSample s off
  | _ => timeSample s off lg

/-! ### PPS and ToD (R380, R381) -/

/-- One bit of CRC-16/CCITT-FALSE. -/
def crc16Bit (c : Nat) : Nat := if 32768 ≤ c then Nat.xor (2 * c % 65536) 0x1021 else 2 * c

/-- CRC-16/CCITT-FALSE: polynomial 0x1021, initial value 0xFFFF (R381). -/
def crc16 (bs : List Byte) : Nat :=
  bs.foldl (fun c b => (List.range 8).foldl (fun c _ => crc16Bit c) (Nat.xor c (b.toNat * 256))) 0xFFFF

/-- Whether a ToD message is good (R381): SYNC, VER, VALID, zero bytes and bits, CRC. -/
def todGood (m : List Byte) : Bool :=
  let fl := leField m 3 1
  m.length == 16 && leField m 0 1 == 0xA5 && leField m 1 1 == 0x5A && leField m 2 1 == 1 && fl % 2 == 1 && decide (fl < 8) &&
  leField m 12 2 == 0 && beNat (slice m 14 2) == crc16 (m.take 14)

/-- REF_SRC selects PPS_IN with ToD. -/
def ppsSelected (s : State) : Bool := regBf s .TIME_CFG 0 1 0 == 1

/-- TOD_MESSAGE: kept for the next edge, or discarded and counted; ignored while another reference is selected (R381). -/
def execTodMessage (msg : List Byte) (s : State) : Result :=
  .next <|
    if !ppsSelected s then s
    else if todGood msg then
      let fl := leField msg 3 1
      let utc := BitVec.ofNat 18 (beNat (slice msg 10 2) + (fl / 2 % 4) * 65536)
      { s with time := { s.time with tod := some ⟨beNat (slice msg 4 6), utc⟩, utc := utc } }
    else raiseEv (ctrInc s .TIME_CNT_TOD_BAD 0) .TIME_EVENT 0 7

/-- An edge in ACQUIRE (R382): four consecutive edges, the last three 1 s ± 1 µs apart with consecutive good seconds. -/
def ppsAcquire (s : State) (phase : Nat) (tod : Option Tod) : State :=
  let t := localAt s phase
  let gap : Int := match s.time.ppsLast with
    | some l => (t : Int) - (l : Int) - 65536000000000
    | none => us1 + 1
  let secOk := match tod, s.time.ppsSec with
    | some d, some n => d.sec == n + 1
    | some _, none => s.time.ppsRun == 1
    | none, _ => false
  let ok := decide (-us1 ≤ gap) && decide (gap ≤ us1) && secOk
  let run := if ok then s.time.ppsRun + 1 else 1
  let s := { s with time := { s.time with ppsLast := some t, ppsRun := run,
                                          ppsSec := if ok then tod.map Tod.sec else none } }
  match tod with
  | some d => if 4 ≤ run then stepTo s ((d.sec : Int) * 65536000000000 - servedAt s phase) else s
  | none => s

/-- PPS_EDGE: with a good ToD message since the last edge it gives a sample (R380-R384). -/
def execPpsEdge (phase : Nat) (s : State) : Result :=
  .next <|
    if !ppsSelected s then s
    else
      let tod := s.time.tod
      let s := { s with time := { s.time with tod := none } }
      match s.time.mode with
      | .acquire => ppsAcquire s phase tod
      | _ =>
        match tod with
        | some d => timeSample s ((d.sec : Int) * 65536000000000 - servedAt s phase) 0
        | none => s

/-! ### PTP (R386-R390) -/

/-- A port's PTP data; at reset DISABLED (portState 3). -/
def ptpPort (s : State) (p : Nat) : PtpPort := tabGet ⟨3, none, none, none, none, 0, 0, 0⟩ s.time.ports p

/-- Sets a port's PTP data. -/
def ptpPortSet (s : State) (p : Nat) (d : PtpPort) : State :=
  { s with time := { s.time with ports := tabSet ⟨3, none, none, none, none, 0, 0, 0⟩ s.time.ports p d } }

/-- PTP_EN of a port. -/
def ptpEn (s : State) (p : Nat) : Bool := regBit s .TIME_PORT_CFG p 0

/-- TIME_CFG.DOMAIN, BMCA and UP_PORT. -/
def timeDomain (s : State) : Nat := regBf s .TIME_CFG 0 11 4

/-- The portState in force: DISABLED without PTP_EN; by UP_PORT under external configuration; otherwise the port's own (R387). -/
def ptpRole (s : State) (p : Nat) : Nat :=
  if !ptpEn s p then 3
  else if regBit s .TIME_CFG 0 12 then (let st := (ptpPort s p).state; if st = 3 then 4 else st)
  else if regBf s .TIME_CFG 0 23 16 = p then 9 else 6

/-- The upstream port: the one in the SLAVE state (R380, R387). -/
def upstreamPort (s : State) : Option Nat := (List.range 256).find? (fun p => ptpRole s p == 9)

/-- The slave port `p` feeds the time base: REF_SRC selects PTP (R380). -/
def isUpstream (s : State) (p : Nat) : Bool := ptpRole s p == 9 && regBf s .TIME_CFG 0 1 0 == 2

/-- Ingress timestamp of a frame: served time less the ingress correction, in 1/256 ns (R389; sign log 9). -/
def ingressStamp (s : State) (p phase : Nat) : Int :=
  stampRound (servedAt s phase) - toSigned 32 (regGet s .TIME_PORT_ING_LAT p).toNat * 256

/-- Egress timestamp of a frame: served time plus the egress correction (R389; sign log 9). -/
def egressStamp (s : State) (p phase : Nat) : Int :=
  stampRound (servedAt s phase) + toSigned 32 (regGet s .TIME_PORT_EGR_LAT p).toNat * 256

/-- Master ports serve only in TRACKING or HOLDOVER, and never between a RESTEP and the next TRACKING (R388). -/
def ptpServing (s : State) : Bool :=
  !s.time.noServe && (match s.time.mode with
    | .tracking | .holdover => true
    | _ => false)

/-- A completed Sync sample: corrected origin `t1`, receive time `t2` (R383, R387). -/
def syncSample (s : State) (p : Nat) (t1 t2 : Int) : State :=
  let d := ptpPort s p
  ptpSample (ptpPortSet s p { d with last := some (t1, t2), pend := none }) (t1 + d.delay - t2) (sampleLog s p)

/-- SYNC on a port: a one-step Sync is a sample, a two-step Sync waits for its Follow_Up (R387). -/
def execPtpSync (m : PtpSyncMsg) (s : State) : Result :=
  .next <|
    if isUpstream s m.port && m.domain == timeDomain s then
      let t2 := ingressStamp s m.port m.phase
      if m.twoStep then
        ptpPortSet s m.port { ptpPort s m.port with pend := some (m.seq, m.sender, t2, m.corr) }
      else syncSample s m.port ((m.origin : Int) + m.corr) t2
    else s

/-- FOLLOW_UP: completes the two-step Sync of the same sender and sequence (R387). -/
def execFollowUp (port seq sender origin : Nat) (corr : Int) (s : State) : Result :=
  .next <|
    if isUpstream s port then
      match (ptpPort s port).pend with
      | some (q, from', t2, c) =>
        if q = seq ∧ from' = sender then syncSample s port ((origin : Int) + c + corr) t2 else s
      | none => s
    else s

/-- DELAY_REQ_SEND: a Delay_Req leaves the slave port, and its departure time is kept (R386). -/
def execDelayReqSend (port phase : Nat) (s : State) : Result :=
  .next <|
    if isUpstream s port then
      let d := ptpPort s port
      send (ptpPortSet s port { d with dreq := some (d.seq, egressStamp s port phase), seq := (d.seq + 1) % 65536 })
        (.ptpDelayReq port d.seq)
    else s

/-- DELAY_RESP: completes the path-delay measurement with the last Sync's times (R386). -/
def execDelayResp (port seq received : Nat) (corr : Int) (s : State) : Result :=
  .next <|
    if isUpstream s port then
      let d := ptpPort s port
      match d.dreq, d.last with
      | some (q, t3), some (t1, t2) =>
        if q = seq then
          ptpPortSet s port { d with dreq := none, delay := ((t2 - t1) + ((received : Int) - corr - t3)) / 2 }
        else s
      | _, _ => s
    else s

/-- The order of two datasets in the IEEE 1588 comparison: smaller is better (R387). -/
def dataKey (d : PtpData) : List Nat :=
  [d.prio1, d.clockClass, d.accuracy, d.variance, d.prio2, d.gm, d.steps, d.sender]

/-- Lexicographic order. -/
def lexLt : List Nat → List Nat → Bool
  | [], _ => false
  | _ :: _, [] => false
  | a :: as, b :: bs => if a < b then true else if b < a then false else lexLt as bs

/-- The gateway's own dataset: clockClass 6 in TRACKING and 7 in HOLDOVER as grandmaster (R388), 248 otherwise; priorities
128 and identity 0 are taken from the IEEE 1588 default profile (log 10). -/
def ownData (s : State) : PtpData :=
  let cls := if ppsSelected s then (match s.time.mode with
    | .tracking => 6
    | .holdover => 7
    | _ => 248) else 248
  ⟨128, cls, 0xFE, 0xFFFF, 128, 0, 0, 0⟩

/-- The best Announce over all enabled ports, with its port. -/
def bestAnnounce (s : State) : Option (Nat × PtpData) :=
  s.time.ports.foldl (fun acc e =>
    if !ptpEn s e.1 then acc
    else match e.2.best, acc with
      | none, a => a
      | some d, none => some (e.1, d)
      | some d, some (q, b) => if lexLt (dataKey d) (dataKey b) then some (e.1, d) else some (q, b)) none

/-- The default best master clock algorithm's state decision (R387; IEEE 1588, log 10): the port of the best clock is
SLAVE when it is better than the gateway's own; a port that hears a better clock than the gateway on another path is
PASSIVE; every other port is MASTER, but one that listens and has heard no Announce yet goes on listening. -/
def bmca (s : State) : State :=
  let own := dataKey (ownData s)
  let best := bestAnnounce s
  s.time.ports.foldl (fun s e =>
    let st :=
      if e.2.state = 4 ∧ e.2.best.isNone then 4
      else match best with
      | some (q, b) =>
        if lexLt (dataKey b) own then
          if ppsSelected s then (match e.2.best with
            | some d => if lexLt (dataKey d) own then 7 else 6
            | none => 6)
          else if q = e.1 then 9
          else (match e.2.best with
            | some d => if lexLt (dataKey d) (dataKey b) || d.gm == b.gm then 7 else 6
            | none => 6)
        else 6
      | none => 6
    ptpPortSet s e.1 { ptpPort s e.1 with state := st }) s

/-- ANNOUNCE: kept when better than, or from the sender of, the port's best, and the algorithm runs (R387). -/
def execAnnounce (port domain : Nat) (d : PtpData) (s : State) : Result :=
  .next <|
    if ptpEn s port && domain == timeDomain s then
      let q := ptpPort s port
      let keep := match q.best with
        | none => true
        | some b => b.sender == d.sender || lexLt (dataKey d) (dataKey b)
      let s := if keep then ptpPortSet s port { q with best := some d, state := if q.state = 3 then 4 else q.state, heardUs := s.localUs } else s
      if regBit s .TIME_CFG 0 12 then bmca s else s
    else s

/-- PTP_UNSUPPORTED: peer-delay, unicast and management messages are dropped and counted (R386). -/
def execPtpUnsupported (port : Nat) (s : State) : Result := .next (ctrInc s .TIME_PORT_CNT_DROP port)

/-- The dataset a master port announces: its own as grandmaster, the upstream's with one more step removed as a boundary
clock (R388). -/
def announceData (s : State) : PtpData :=
  if ppsSelected s then ownData s
  else match bestAnnounce s with
    | some (_, d) => { d with steps := d.steps + 1 }
    | none => ownData s

/-- The announce receipt timeout of the IEEE 1588 default profile, three intervals of 2 s, in µs (log 10). -/
abbrev announceTimeout : Nat := 6000000

/-- A port that PTP_EN enables starts to listen, and one it disables is DISABLED; with BMCA, where no Announce has come for the announce receipt
timeout the dataset has aged out, listening ends and the algorithm runs (R387; log 10). -/
def announceTick (s : State) : State :=
  let on := (tabKeys (tabGet [] s.regs (ridNum .TIME_PORT_CFG))).filter (ptpEn s)
  let s := on.foldl (fun s p => if (ptpPort s p).state = 3 then ptpPortSet s p { ptpPort s p with state := 4, heardUs := s.localUs } else s) s
  let s := ((tabKeys s.time.ports).filter (fun p => !ptpEn s p)).foldl (fun s p =>
    ptpPortSet s p { ptpPort s p with state := 3, best := none, heardUs := 0 }) s
  let due := on.filter (fun p =>
    let d := ptpPort s p
    decide (d.heardUs + announceTimeout ≤ s.localUs) && (d.best.isSome || d.state == 4))
  if !regBit s .TIME_CFG 0 12 || due.isEmpty then s
  else bmca (due.foldl (fun s p => ptpPortSet s p { ptpPort s p with best := none, state := 6 }) s)

/-- The ports' PTP states once the reference is lost: a port whose link is down hears no Announce, so its dataset has aged out, and with BMCA set
another port may become slave (R387, R392; log 10). -/
def portsAged (s : State) : Tab PtpPort :=
  if regBf s .TIME_CFG 0 1 0 == 2 && regBit s .TIME_CFG 0 12 then
    (bmca (s.time.ports.foldl (fun s e =>
      if (tabGet FabPort.reset s.fab.ports e.1).link then s else ptpPortSet s e.1 { ptpPort s e.1 with best := none }) s)).time.ports
  else s.time.ports

/-- REF_LOST: no sample for 3 × I; TRACKING enters HOLDOVER, ACQUIRE discards what it gathered (R382, R384). -/
def execRefLost (s : State) : Result :=
  .next <|
    match s.time.mode with
    | .tracking => enterHoldover (raiseEv { s with time := { s.time with ports := portsAged s } } .TIME_EVENT 0 3)
    | .acquire =>
      raiseEv { s with time := { s.time with ports := portsAged s, samples := [], ppsLast := none, ppsSec := none, ppsRun := 0 } } .TIME_EVENT 0 3
    | _ => s

/-! ### Line time (R391) -/

/-- A group's line time. -/
def lineTime (s : State) (g : Nat) : LineTime := tabGet ⟨0, 0, 0, 0, 0⟩ s.time.line g

/-- Sets a group's line time. -/
def lineTimeSet (s : State) (g : Nat) (l : LineTime) : State :=
  { s with time := { s.time with line := tabSet ⟨0, 0, 0, 0, 0⟩ s.time.line g l } }

/-- One echo's measurement joins the sums: offset in 1/16 ns with ASYM, delay in ns; times in 1/16 ns (R391). -/
def lineMeasure (s : State) (g : Nat) (t1 t2 t3 t4 : Int) : State :=
  let l := lineTime s g
  let ofs := ((t2 - t1) - (t4 - t3)) / 2 + toSigned 32 (regGet s .TIME_LINE_ASYM g).toNat
  let dly := ((t2 - t1) + (t4 - t3)) / 2
  lineTimeSet s g { l with sumOfs := l.sumOfs + ofs, sumDelay := l.sumDelay + dly, count := l.count + 1 }

/-- LINE_TIME_AVERAGE: the second's averages are published, and LINE_DIVERGE is set beyond TIME_LINE_THR (R391). -/
def execLineTimeAverage (group : Nat) (s : State) : Result :=
  .next <|
    let l := lineTime s group
    if l.count = 0 then s
    else
      let ofs := l.sumOfs / (l.count : Int)
      let s := lineTimeSet s group ⟨0, 0, 0, ofs, l.sumDelay / (l.count : Int) / 16⟩
      let thr : Int := (regBf s .TIME_LINE_THR 0 15 0 : Nat) * 16
      if thr < ofs ∨ ofs < -thr then raiseEv s .TIME_EVENT 0 6 else s

/-- The effect of a TIME_CFG value in force (R382, R385): a change of REF_SRC or UP_PORT in TRACKING enters HOLDOVER;
from FREERUN a selected reference enters ACQUIRE. -/
def timeCfgApplied (s : State) (old : Word) : State :=
  let new := regGet s .TIME_CFG 0
  let changed := bf old 1 0 ≠ bf new 1 0 ∨ bf old 23 16 ≠ bf new 23 16
  match s.time.mode with
  | .tracking => if changed then enterHoldover s else s
  | .freerun => if bf new 1 0 ≠ 0 then enterAcquire s else s
  | .acquire =>
    if changed then { s with time := { s.time with samples := [], ppsLast := none, ppsSec := none, ppsRun := 0 } } else s
  | .holdover => if changed then { s with time := { s.time with retRun := 0 } } else s

/-- One microsecond passes (R379, R382, R383): served time advances at the rate in force, and the new rate takes effect. -/
def timeTick (s : State) : State :=
  let now := s.time.now + ((1000 * ((pow2 48 : Int) + s.time.rate)).toNat)
  { s with localUs := s.localUs + 1, time := { s.time with now := now, rate := rateTarget s } }

end Sys2Proof.Machine
end

