-- ==== Sys2Proof/Machine/Fabric.lean ====
section
/-! DEFINITION. Fabric ports and the switch core (07_switch_and_traffic): classes, forwarding, charging, priority flow
control, policers, and the writes of their registers. -/

namespace Sys2Proof.Machine

/-! ### Ports -/

/-- A fabric port. -/
def fabPort (s : State) (p : Nat) : FabPort := tabGet FabPort.reset s.fab.ports p

/-- Sets a fabric port. -/
def fabPortSet (s : State) (p : Nat) (x : FabPort) : State :=
  { s with fab := { s.fab with ports := tabSet FabPort.reset s.fab.ports p x } }

/-- Lanes of a port in its quadrant's mode: 2, 4 or 8 (R215). -/
def portWidth (s : State) (q : Nat) : Nat := 2 * pow2 (regBf s .FPORT_QD_MODE q 1 0)

/-- Gb/s of a port (R215). -/
def portRate (s : State) (p : Nat) : Nat := 200 * portWidth s (p / 32)

/-- The lanes of a port (R16). -/
def portLanes (s : State) (p : Nat) : List Nat :=
  (List.range (portWidth s (p / 32))).map (· + (64 * (p / 32) + p % 32 * portWidth s (p / 32)))

/-- The port a lane belongs to (R16). -/
def lanePort (s : State) (lane : Nat) : Nat := 32 * (lane / 64) + lane % 64 / portWidth s (lane / 64)

/-- A port carries frames: EN set, link up, FEC locked, quadrant powered (R218). -/
def portCarries (s : State) (p : Nat) : Bool :=
  let x := fabPort s p
  portImpl s p && portEn s p && x.link && x.fecLock && domOn s (portDom p)

/-- BAST_CIRC_CFG.EN and KIND ORIG. -/
def circEn (s : State) (n : Nat) : Bool := regBit s .BAST_CIRC_CFG n 31
/-- A circuit is ORIG. -/
def circOrig (s : State) (n : Nat) : Bool := regBf s .BAST_CIRC_CFG n 30 29 == 1
/-- BAST_RX_CFG.EN. -/
def rxEn (s : State) (n : Nat) : Bool := regBit s .BAST_RX_CFG n 31

/-- A lane belongs to a circuit or a tack receiver (R217, R218). -/
def laneBasting (s : State) (lane : Nat) : Bool :=
  (List.range 32).any (fun n => (circEn s n && (regBf s .BAST_CIRC_CFG n 8 0 == lane ||
    (!circOrig s n && regBf s .BAST_CIRC_CFG n 24 16 == lane))) || (rxEn s n && regBf s .BAST_RX_CFG n 8 0 == lane))

/-! ### Limits and occupancy (R223, R224, R228) -/

/-- The index of a port's class in an array of 8 classes. -/
abbrev pc (p c : Nat) : Nat := 8 * p + c

/-- SW_LIMIT.LIMIT. -/
def limitOf (s : State) (p c : Nat) : Nat := regBf s .SW_LIMIT (pc p c) 18 0
/-- XOFF = LIMIT − HEADROOM (R228). -/
def xoffOf (s : State) (p c : Nat) : Nat := limitOf s p c - regBf s .SW_PFC (pc p c) 11 0
/-- XON = XOFF − HYST (R228). -/
def xonOf (s : State) (p c : Nat) : Nat := xoffOf s p c - regBf s .SW_PFC (pc p c) 27 16

/-- Cells of frames that have joined a message at the Seam array and are still charged to an input and class: the frame has neither left nor been
discarded until the message has (R32, R223; log 19). -/
def msgCharge (s : State) (inp c : Nat) : Nat :=
  s.seam.bolts.foldl (fun n e => match e.2 with
    | some b => b.msgs.foldl (fun n m => m.charges.foldl (fun n q => if q.1 = pc inp c then n + q.2 else n) n) n
    | none => n) 0

/-- Cells charged to an input and class (R223). -/
def occOf (s : State) (inp c : Nat) : Nat :=
  s.fab.frames.foldl (fun n f => if f.inp = inp ∧ f.cls = c then n + f.cells else n) (msgCharge s inp c)

/-- Sends a PFC frame (R228); XOFF on TC1-TC3 is the first resource of R461. -/
def sendPfc (s : State) (p c quanta : Nat) : State :=
  let s := if 1 ≤ c ∧ c ≤ 3 ∧ quanta ≠ 0 then satMark s 0 else s
  send (ctrInc s .FPORT_CNT_PFC_TX p) (.pfc p c quanta)

/-- PFC after a change of occupancy: XOFF when it reaches XOFF, XON when it falls below XON (R228); a port that carries no frames sends none
(R218). -/
def pfcCheck (s : State) (p c : Nat) : State :=
  if 256 ≤ p ∨ !portCarries s p then s
  else
    let x := fabPort s p
    let o := occOf s p c
    let on := x.pausing.getLsbD c
    let m := BitVec.ofNat 8 (pow2 c)
    if !on ∧ limitOf s p c ≠ 0 ∧ xoffOf s p c ≤ o then sendPfc (fabPortSet s p { x with pausing := x.pausing ||| m }) p c 0xFFFF
    else if on ∧ o < xonOf s p c then sendPfc (fabPortSet s p { x with pausing := x.pausing &&& ~~~m }) p c 0
    else s

/-! ### Leaving the switch core -/

/-- Frees what a frame holds: its cells, its bobbin where it was bound, and its use of result cells (R158, R257, R264). -/
def frameFree (s : State) (f : Frame) : State :=
  let s := cellsFree s f.cells
  let s := match f.handle with
    | some h => bobFree s 0x20 h
    | none => s
  match f.res with
  | some n => cellDrop s n
  | none => s

/-- The frame at index `k` leaves by, or is discarded for, destination `d`; the charge is released when none is left. -/
def leaveOne (s : State) (k d : Nat) : State :=
  match s.fab.frames[k]? with
  | none => s
  | some f =>
    let rest := f.dests.filter (· ≠ d)
    if rest.isEmpty then
      let s := { s with fab := { s.fab with frames := s.fab.frames.eraseIdx k } }
      pfcCheck (frameFree s f) f.inp f.cls
    else { s with fab := { s.fab with frames := s.fab.frames.set k { f with dests := rest } } }

/-- Every frame of a class set bound for `d` is flushed and counted (R249, R250). -/
def flushFuel (d : Nat) (p : Frame → Bool) : Nat → State → State
  | 0, s => s
  | n + 1, s =>
    match s.fab.frames.findIdx? (fun f => f.dests.contains d && p f) with
    | none => s
    | some k =>
      let c := match s.fab.frames[k]? with
        | some f => f.cls
        | none => 0
      flushFuel d p n (leaveOne (ctrInc s .SW_CNT_FLUSH c) k d)

/-- Flushes every frame bound for a port (R249, R250). -/
def flushPort (s : State) (d : Nat) : State := flushFuel d (fun _ => true) s.fab.frames.length s

/-! ### Links (R218, R249, R251) -/

/-- The depth of a bucket in half bytes: BURST × 64 B. -/
def burstHalf (v : Word) : Nat := bf v 23 0 * 128

/-- A shaper's bucket as RESET_TO sets it (R236). -/
def shpFresh (s : State) (p c : Nat) : Bucket :=
  ⟨if regBit s .TM_SHP_CTRL (pc p c) 1 then burstHalf (regGet s .TM_SHP_BURST (pc p c)) else 0, s.localUs⟩

/-- Every shaper bucket of a port as RESET_TO sets it. -/
def shpAll (s : State) (p : Nat) : Tab Bucket :=
  (List.range 8).foldl (fun t c => tabSet ⟨0, 0⟩ t c (shpFresh s p c)) []

/-- A port comes up: FEC locked, no pause asserted, zero credit, shaper buckets as RESET_TO sets (R218, R249). -/
def linkUp (s : State) (p : Nat) : State :=
  let x := fabPort s p
  let x := { x with link := true, training := false, fecLock := true, paused := 0, pausedUs := [], pausing := 0,
                    discard := 0, rr := 0, rrTaken := false, credit := [], shp := shpAll s p, lastTxUs := s.localUs }
  raiseEv (fabPortSet s p x) .FPORT_EVENT 0 0

/-- A port goes down (R249). -/
def linkDown (s : State) (p : Nat) : State :=
  let x := fabPort s p
  if x.link then
    raiseEv (fabPortSet s p { x with link := false, fecLock := false, paused := 0, pausedUs := [], pausing := 0, discard := 0 })
      .FPORT_EVENT 0 0
  else s

/-- LINK_UP: the link of an implemented, powered port comes up with the FEC locked, while its die has its reference
clock and the device is not in safe state (R218, R415, R479). -/
def execLinkUp (port : Nat) (s : State) : Result :=
  .next <| if portImpl s port ∧ domReady s (portDom port) ∧ ¬ s.pins.refLost.getLsbD (port / 64) ∧ s.boot.stage ≠ 15 ∧ ¬ s.boot.porst
    then linkUp s port else s

/-- LINK_DOWN: the link goes down and LINK_CHANGE is set; frames bound for the port wait (R249). -/
def execLinkDown (port : Nat) (s : State) : Result := .next (linkDown s port)

/-! ### Classifying (R220) -/

/-- The EtherType of a frame and where its network header starts, after one 802.1Q tag if there is one. -/
def etherType (b : List Byte) : Nat × Nat :=
  let t := beNat (slice b 12 2)
  if t = 0x8100 then (beNat (slice b 16 2), 18) else (t, 14)

/-- Whether a frame has an 802.1Q tag. -/
def tagged (b : List Byte) : Bool := beNat (slice b 12 2) == 0x8100

/-- The VLAN ID a frame is looked up with; 0 without a tag. -/
def vlanOf (b : List Byte) : Nat := if tagged b then beNat (slice b 14 2) % 4096 else 0

/-- The DSCP of an IPv4 or IPv6 frame (R220). -/
def dscpOf (b : List Byte) : Option Nat :=
  let (t, o) := etherType b
  if t = 0x0800 then some (beNat (slice b (o + 1) 1) / 4)
  else if t = 0x86DD then some (beNat (slice b o 2) / 16 % 256 / 4)
  else none

/-- The class of a frame: from PCP, or from DSCP with CLASS_SEL set; TC0 where there is none (R220). -/
def classOf (s : State) (p : Nat) (b : List Byte) : Nat :=
  if regBit s .FPORT_CTRL p 8 then
    match dscpOf b with
    | some d => bf (regGet s .FPORT_DSCP_MAP (8 * p + d / 8)) (3 * (d % 8) + 2) (3 * (d % 8))
    | none => 0
  else if tagged b then
    let k := beNat (slice b 14 2) / 8192
    regBf s .FPORT_PCP_MAP p (3 * k + 2) (3 * k)
  else 0

/-! ### Policing (R233) -/

/-- A bucket brought up to now: RATE × 100 Mb/s is 25 × RATE half bytes a microsecond. -/
def bucketNow (s : State) (b : Bucket) (rate depth : Word) : Nat :=
  min (burstHalf depth) (b.tokens + 25 * bf rate 23 0 * (s.localUs - b.us))

/-- The ingress policer: the frame passes and its length is taken, or it is dropped and counted (R233). -/
def police (s : State) (p c len : Nat) : Bool × State :=
  let i := pc p c
  if !regBit s .TM_POL_CTRL i 0 then (true, s)
  else
    let x := fabPort s p
    let t := bucketNow s (tabGet ⟨0, 0⟩ x.pol c) (regGet s .TM_POL_RATE i) (regGet s .TM_POL_BURST i)
    if 2 * len ≤ t then (true, fabPortSet s p { x with pol := tabSet ⟨0, 0⟩ x.pol c ⟨t - 2 * len, s.localUs⟩ })
    else (false, ctrInc s .TM_CNT_POL_DROP i)

/-! ### Looking up and queueing (R221, R222, R226, R257, R260) -/

/-- The panel of an input: a port's, or that of an internal input. -/
def inputPanel (s : State) (inp : Nat) : Nat := if inp < 256 then portPanel s inp else inp % 256

/-- The session that port number 0x100 + v names in a panel (R282). -/
def vdestSess (s : State) (panel v : Nat) : Option Nat :=
  (sessionsOf s panel).find? (fun k => regBf s .SELV_SESS_CFG k 26 25 == 1 && regBf s .SELV_SESS_CFG k 7 0 == v)

/-- The internal destinations of R221 as port numbers: the Seam array, the Collective Coordinator, the control complex (log 19). -/
abbrev seamDest : Nat := 0x400
/-- The Collective Coordinator. -/
abbrev ccoDest : Nat := 0x401
/-- The control complex. -/
abbrev ctlDest : Nat := 0x402

/-- A destination takes frames of a panel: an enabled port of the panel, a FRAME session of the panel, or an internal destination (R221, R222, R282). -/
def destOk (s : State) (panel d : Nat) : Bool :=
  if d < 256 then portImpl s d && portEn s d && portPanel s d == panel
  else if d < 512 then (vdestSess s panel (d - 256)).isSome
  else d == seamDest || d == ccoDest || d == ctlDest

/-- The forwarding entry of a frame (R221). -/
def fdbFind (s : State) (b : List Byte) : Option Word :=
  tabGet none s.fab.fdb (vlanOf b * pow2 48 + beNat (slice b 0 6))

/-- The destinations of a frame: none where no entry matches or its one port is disabled or of another panel; the empty
list for DROP.  Members of a group that do not take the panel's frames get no copy (R221, R222). -/
def lookup (s : State) (panel : Nat) (b : List Byte) : Option (List Nat) :=
  match fdbFind s b with
  | none => none
  | some w =>
    if bit w 14 then some []
    else if bit w 15 then some ((tabGet [] s.fab.groups (bf w 11 0)).filter (destOk s panel))
    else if destOk s panel (bf w 11 0) then some [bf w 11 0] else none

/-- A class is closed by some entry of a port's running gate list (R226). -/
def gateEverCloses (s : State) (p c : Nat) : Bool :=
  let g := (fabPort s p).gates
  g.running && decide (c < 6) && g.entries.any (fun e => !bit e (24 + c))

/-- The shaper's tokens now. -/
def shpTokens (s : State) (p c : Nat) : Nat :=
  let i := pc p c
  bucketNow s (tabGet ⟨0, 0⟩ (fabPort s p).shp c) (regGet s .TM_SHP_RATE i) (regGet s .TM_SHP_BURST i)

/-- The shaper holds tokens for a length (R236). -/
def shpAdmits (s : State) (p c len : Nat) : Bool := !regBit s .TM_SHP_CTRL (pc p c) 0 || decide (2 * len ≤ shpTokens s p c)

/-- A frame of a class and length from a port cuts through to a destination: one that carries frames, is not busy and not paused, and whose shaper
holds tokens (R218, R226, R236). -/
def cutsThrough (s : State) (inp c len d : Nat) : Bool :=
  decide (inp < 256 ∧ d < 256) && bit (regGet s .SW_CT inp) c && decide (portRate s d ≤ portRate s inp) &&
  !gateEverCloses s d c && portCarries s d && !(fabPort s d).paused.getLsbD c && shpAdmits s d c len &&
  !s.fab.frames.any (fun f => f.dests.contains d)

/-- A frame joins the queues of its destinations: its cells are charged and it is bound to a bobbin of the smallest spool
that holds it, privileged for TC5-TC7; where none can be had yet it is held by its cells alone (R223, R257, R260). -/
def enqueue (s : State) (inp c : Nat) (ds : List Nat) (data : List Byte) (bad : Bool) : State :=
  if ds.isEmpty then s
  else
    let s := cellsTake s (cellsOf data.length)
    let (h, s) := bobTake s (frameSpool data.length) (5 ≤ c)
    let f : Frame :=
      { inp := inp, cls := c, dests := ds, data := data, bad := bad, arrUs := s.localUs, handle := h, cells := cellsOf data.length, own := none, res := none }
    pfcCheck { s with fab := { s.fab with frames := s.fab.frames ++ [f] } } inp c

/-! ### Frames of the gateway's own (R119, R155, R221, R225, R234) -/

/-- The frame that carries a message of the gateway's own to an address: Ethernet, IPv4 or IPv6 and UDP headers, without a tag, and the FCS, whose
contents no register gives, about the message's bytes (R119; log 85). -/
def ownFrame (ip : Nat) (body : List Byte) : List Byte :=
  (List.range (if ip / pow2 32 = 0xFFFF then 42 else 62)).map Config.headerByte ++ body ++ (List.range 4).map (fun i => Config.headerByte (62 + i))

/-- A message of the gateway's own joins the queue of a class at the port by which its address is reached, where it waits like any other frame; where
that port is disabled or of another panel it is dropped and counted.  `res` names the result cells that a RESULT copy uses (R158, R221, R234; log 85). -/
def emitNet (s : State) (panel ip cls : Nat) (body : List Byte) (out : Out) (res : Option Nat) : State :=
  let d := Config.route ip % 256
  let f : Frame :=
    { inp := 0x300 + panel, cls := cls, dests := [d], data := ownFrame ip body, bad := false, arrUs := s.localUs, handle := none, cells := 0,
      own := some out, res := res }
  if destOk s panel d then { s with fab := { s.fab with frames := s.fab.frames ++ [f] } }
  else frameFree (ctrInc s .SW_CNT_NO_ENTRY 0) f

/-- A frame is looked up and queued (R221, R227): a defective one stays only for the destinations it cuts through to, and
is dropped and counted at its input where it is stored. -/
def forward (s : State) (inp c : Nat) (data : List Byte) (good : Bool) : State :=
  match lookup s (inputPanel s inp) data with
  | none => ctrInc s .SW_CNT_NO_ENTRY 0
  | some ds =>
    if good then enqueue s inp c (ds.filter (fun d => d != ccoDest && d != ctlDest)) data false
    else
      let cut := ds.filter (cutsThrough s inp c data.length)
      let s := if cut.length < ds.length ∧ inp < 256 then ctrInc s .FPORT_CNT_FCS_ERR inp else s
      enqueue s inp c cut data true

/-- The UDP destination port of a frame over IPv4 or IPv6; 0 where it carries none. -/
def udpPort (b : List Byte) : Nat :=
  let (t, o) := etherType b
  if t = 0x0800 ∧ beNat (slice b (o + 9) 1) = 17 then beNat (slice b (o + 4 * (beNat (slice b o 1) % 16) + 2) 2)
  else if t = 0x86DD ∧ beNat (slice b (o + 6) 1) = 17 then beNat (slice b (o + 42) 2)
  else 0

/-- A frame addressed to the gateway: an SCP frame waits in the VOQ of the Seam array, charged like any other, until its message is taken; the
Coordinator and the control complex take theirs at once (R32, R221, R223; log 19). -/
def toGateway (s : State) (p c : Nat) (data : List Byte) : State :=
  if udpPort data = regBf s .CCO_UDP_PORT 0 15 0 then enqueue s p c [seamDest] data false else s

/-- The frame of a message that the Seam array takes: it leaves its VOQ, and what it holds goes with it; a frame that has other destinations left keeps
it. -/
def scpTake (s : State) (p : Nat) (data : List Byte) : Option Frame × State :=
  match s.fab.frames.findIdx? (fun f => f.inp == p && f.dests.contains seamDest && f.data == data) with
  | none => (none, s)
  | some k => match s.fab.frames[k]? with
    | none => (none, s)
    | some f =>
      if f.dests = [seamDest] then (some f, { s with fab := { s.fab with frames := s.fab.frames.eraseIdx k } })
      else (none, leaveOne s k seamDest)

/-- The frame of a message that nothing has kept is discarded. -/
def scpDone (s : State) (p : Nat) (data : List Byte) : State :=
  match scpTake s p data with
  | (some f, s) => pfcCheck (frameFree s f) f.inp f.cls
  | (none, s) => s

/-- The frame is a global PAUSE frame (R216). -/
def isGlobalPause (b : List Byte) : Bool := beNat (slice b 12 2) == 0x8808 && beNat (slice b 14 2) == 1

/-- A frame on a port that carries frames: classified, policed, charged, looked up and queued, or dropped (R220-R230,
R257).  What a frame addressed to the gateway says is taken by a command of its own (log 19). -/
def frameIn (s : State) (f : RxFrame) : State :=
  let p := f.port
  let len := f.data.length
  let s := ctrAdd (ctrInc s .FPORT_CNT_RX_FRAMES p) .FPORT_CNT_RX_BYTES p len
  let s := ctrAdd (ctrAdd s .FPORT_CNT_FEC_CORR p f.fecCorr) .FPORT_CNT_FEC_UNCORR p f.fecUncorr
  let good := f.fcsOk && f.fecUncorr == 0
  if isGlobalPause f.data then ctrInc s .FPORT_CNT_GPAUSE p
  else
    let c := classOf s p f.data
    let (pass, s) := police s p c len
    if !pass then s
    else if limitOf s p c = 0 then ctrInc s .SW_CNT_CLASS_OFF 0
    else if 9216 < len then ctrInc s .BOB_CNT_OUTGROW 0
    else if limitOf s p c < occOf s p c + cellsOf len then raiseEv (ctrInc s .FPORT_CNT_PAUSE_VIOL p) .FPORT_EVENT 0 1
    else if f.toGateway then (if good then toGateway s p c f.data else ctrInc s .FPORT_CNT_FCS_ERR p)
    else forward s p c f.data good

/-- FRAME_RECEIVE: on a port in any state but carrying frames the frame is dropped and counted (R218). -/
def execFrameReceive (f : RxFrame) (s : State) : Result :=
  .next <|
    if !portImpl s f.port ∨ s.boot.porst then s
    else if portCarries s f.port then frameIn s f
    else ctrInc s .FPORT_PRE_READY_DROP 0

/-! ### Priority flow control received (R231, R430) -/

/-- One class of a received PFC frame: quanta other than 0 pause it, 0 releases it and ends the discarding of STALL_ACT. -/
def pfcClass (s : State) (p c : Nat) (q : Option Nat) : State :=
  let x := fabPort s p
  let m := BitVec.ofNat 8 (pow2 c)
  match q with
  | none => s
  | some 0 => fabPortSet s p { x with paused := x.paused &&& ~~~m, discard := x.discard &&& ~~~m, pausedUs := tabSet 0 x.pausedUs c 0 }
  | some _ =>
    let since := if x.paused.getLsbD c then tabGet 0 x.pausedUs c else s.localUs
    fabPortSet s p { x with paused := x.paused ||| m, pausedUs := tabSet 0 x.pausedUs c since }

/-- PFC_RECEIVE: `quanta` gives, for TC0 on, the quanta of each class the frame's enable vector names (R231). -/
def execPfcReceive (port : Nat) (quanta : List (Option Nat)) (s : State) : Result :=
  .next <|
    if portCarries s port then
      ((quanta.take 8).zipIdx).foldl (fun s q => pfcClass s port q.2 q.1) (ctrInc s .FPORT_CNT_PFC_RX port)
    else s

/-- PFC_PAUSE_EXPIRY: the class is eligible again, and discarding under STALL_ACT stops (R430). -/
def execPfcPauseExpiry (port cls : Nat) (s : State) : Result :=
  .next <| if cls < 8 then pfcClass s port cls (some 0) else s

/-- PFC_REFRESH: while occupancy stays at or above XON the XOFF frame is sent again (R228). -/
def execPfcRefresh (port cls : Nat) (s : State) : Result :=
  .next <|
    if portCarries s port ∧ cls < 8 ∧ (fabPort s port).pausing.getLsbD cls ∧ xonOf s port cls ≤ occOf s port cls
    then sendPfc s port cls 0xFFFF else s

/-! ### Register writes (R217-R219, R224, R229, R233, R236, R252) -/

/-- Any port of a quadrant is enabled, or a lane of it belongs to basting (R217). -/
def quadBusy (s : State) (q : Nat) : Bool :=
  (List.range 32).any (fun k => portEn s (32 * q + k)) || (List.range 64).any (fun j => laneBasting s (64 * q + j))

/-- Every lane of a quadrant retrains (R217). -/
def quadRetrain (s : State) (q : Nat) : State :=
  (List.range 32).foldl (fun s k =>
    let p := 32 * q + k
    let s := linkDown s p
    fabPortSet s p { fabPort s p with training := portImpl s p }) s

/-- FPORT_QD_MODE_WRITE: refused while a port or circuit uses the quadrant; 11b is not accepted (R215, R217). -/
def execFportQdModeWrite (req : Requester) (q : Nat) (value : Word) (s : State) : Result :=
  .next <| guardWrite s req .FPORT_QD_MODE q fun s =>
    if quadBusy s q then raiseEv s .FPORT_EVENT 0 2
    else if bf value 1 0 = 3 then s
    else quadRetrain (regSet s .FPORT_QD_MODE q (BitVec.ofNat 32 (bf value 1 0))) q

/-- A port brought back starts every class with zero credit, its shaper buckets as RESET_TO sets, and no pause asserted (R249). -/
def portFresh (s : State) (p : Nat) : FabPort :=
  { fabPort s p with paused := 0, pausedUs := [], pausing := 0, discard := 0, rr := 0, rrTaken := false, credit := [], shp := shpAll s p }

/-- An FPORT_CTRL value takes effect: EN cleared with frames queued flushes them (R250); EN set starts training where the link is down (R425) and brings
the port back (R249). -/
def fportCtrlApply (s : State) (p : Nat) (v : Word) : State :=
  let was := portEn s p
  let s := regSet s .FPORT_CTRL p v
  if was ∧ ¬ bit v 31 then flushPort s p
  else if ¬ was ∧ bit v 31 then fabPortSet s p { portFresh s p with training := !(fabPort s p).link }
  else s

/-- The sum of limits over the ports a predicate names, with (p, c) taking `lim` (R224). -/
def limitSum (s : State) (p c lim : Nat) (which : Nat → Bool) : Nat :=
  let other := (tabGet [] s.regs (ridNum .SW_LIMIT)).foldl
    (fun n e => if e.1 ≠ pc p c ∧ which (e.1 / 8) then n + bf e.2 18 0 else n) 0
  other + (if which p then lim else 0)

/-- The limits of a panel's ports with this one among them stay within SW_PANEL_CELLS of the panel (R224). -/
def panelTakesPort (s : State) (p n : Nat) : Bool :=
  decide (limitSum s p 0 (limitOf s p 0) (fun q => q == p || portPanel s q == n) ≤ regBf s .SW_PANEL_CELLS n 18 0)

/-- FPORT_CTRL_WRITE: EN stays clear on a lane conflict, PANEL unchanged while EN is set (R218, R219); a write that would take the sum of a panel's
limits above its quota is not accepted (R224).  A port has nothing in transmission between commands, so the write takes effect at once (R399). -/
def execFportCtrlWrite (req : Requester) (port : Nat) (value : Word) (s : State) : Result :=
  .next <| guardWrite s req .FPORT_CTRL port fun s =>
    let old := regGet s .FPORT_CTRL port
    let v := acceptWord .FPORT_CTRL old value
    let v := if bit old 31 then putBf v 27 24 (bf old 27 24) else v
    let clash := !bit old 31 && bit v 31 && (portLanes s port).any (laneBasting s)
    let s := if clash then raiseEv s .FPORT_EVENT 0 3 else s
    let v := if clash then putBf v 31 31 0 else v
    if bf v 27 24 ≠ bf old 27 24 ∧ ¬ panelTakesPort s port (bf v 27 24) then raiseEv s .SW_EVENT 0 0
    else fportCtrlApply s port v

/-- A pair of SW_LIMIT and SW_PFC values is accepted: XON not below 0, XOFF at least 36 cells, and the sums of limits
within the buffer and the panel's quota (R224, R229). -/
def limitsOk (s : State) (p c : Nat) (lim pfc : Word) : Bool :=
  let n := portPanel s p
  let l := bf lim 18 0
  decide (bf pfc 11 0 + 36 ≤ l) && decide (bf pfc 11 0 + bf pfc 27 16 ≤ l) &&
  decide (limitSum s p c l (fun _ => true) ≤ cellTotal) &&
  decide (limitSum s p c l (fun q => portPanel s q == n) ≤ regBf s .SW_PANEL_CELLS n 18 0)

/-- SW_LIMIT_WRITE: SW_LIMIT, or with `pfc` SW_PFC, is written or refused with LIMIT_REFUSED (R224, R229). -/
def execSwLimitWrite (req : Requester) (pfc : Bool) (port cls : Nat) (value : Word) (s : State) : Result :=
  let r : Rid := if pfc then .SW_PFC else .SW_LIMIT
  let i := pc port cls
  .next <| guardWrite s req r i fun s =>
    let v := acceptWord r (regGet s r i) value
    let ok := if pfc then limitsOk s port cls (regGet s .SW_LIMIT i) v else limitsOk s port cls v (regGet s .SW_PFC i)
    if ok then pfcCheck (regSet s r i v) port cls else raiseEv s .SW_EVENT 0 0

/-- The forwarding key of SW_FDB_KEY. -/
def fdbKey (s : State) : Nat :=
  regBf s .SW_FDB_KEY_HI 0 27 16 * pow2 48 + regBf s .SW_FDB_KEY_HI 0 15 0 * pow2 32 + (regGet s .SW_FDB_KEY_LO 0).toNat

/-- FDB_WRITE: installs the entry, or TABLE_FULL at 131,072 entries (R221, R252). -/
def execFdbWrite (req : Requester) (s : State) : Result :=
  .next <| guardWrite s req .SW_FDB_CMD 0 fun s =>
    let k := fdbKey s
    if (tabGet none s.fab.fdb k).isNone ∧ 131072 ≤ s.fab.fdb.length then { s with fab := { s.fab with fdbFull := true } }
    else { s with fab := { s.fab with fdb := tabSet none s.fab.fdb k (some (regGet s .SW_FDB_DEST 0)), fdbFull := false } }

/-- FDB_DELETE: removes the entry, or NOT_FOUND (R221, R252). -/
def execFdbDelete (req : Requester) (s : State) : Result :=
  .next <| guardWrite s req .SW_FDB_CMD 0 fun s =>
    let k := fdbKey s
    if (tabGet none s.fab.fdb k).isNone then { s with fab := { s.fab with fdbMissing := true } }
    else { s with fab := { s.fab with fdb := tabSet none s.fab.fdb k none, fdbMissing := false } }

/-- A policer's registers: 0 TM_POL_CTRL, 1 TM_POL_RATE, 2 TM_POL_BURST. -/
def polRid : Nat → Rid
  | 0 => .TM_POL_CTRL
  | 1 => .TM_POL_RATE
  | _ => .TM_POL_BURST

/-- TM_POL_WRITE: any write refills the bucket (R233); no frame is arriving between commands, so it applies at once. -/
def execTmPolWrite (req : Requester) (reg port cls : Nat) (value : Word) (s : State) : Result :=
  let i := pc port cls
  .next <| guardWrite s req (polRid reg) i fun s =>
    let s := regSet s (polRid reg) i (acceptWord (polRid reg) (regGet s (polRid reg) i) value)
    let x := fabPort s port
    fabPortSet s port { x with pol := tabSet ⟨0, 0⟩ x.pol cls ⟨burstHalf (regGet s .TM_POL_BURST i), s.localUs⟩ }

/-- A shaper's registers: 0 TM_SHP_CTRL, 1 TM_SHP_RATE, 2 TM_SHP_BURST. -/
def shpRid : Nat → Rid
  | 0 => .TM_SHP_CTRL
  | 1 => .TM_SHP_RATE
  | _ => .TM_SHP_BURST

/-- A shaper value takes effect: the bucket as RESET_TO sets it (R236). -/
def tmShpApply (s : State) (r : Rid) (i : Nat) (v : Word) : State :=
  let s := regSet s r i v
  let p := i / 8
  let x := fabPort s p
  fabPortSet s p { x with shp := tabSet ⟨0, 0⟩ x.shp (i % 8) (shpFresh s p (i % 8)) }

/-- The queue of a port and class holds a frame. -/
def queueBusy (s : State) (p c : Nat) : Bool := s.fab.frames.any (fun f => f.cls == c && f.dests.contains p)

/-- TM_SHP_WRITE: applied at the packet boundary of the queue; at once when the queue is empty (R236, R250). -/
def execTmShpWrite (req : Requester) (reg port cls : Nat) (value : Word) (s : State) : Result :=
  let i := pc port cls
  let r := shpRid reg
  .next <| guardWrite s req r i fun s =>
    rwsPut s r i (acceptWord r (rwsBase s r i) value) (!queueBusy s port cls) (fun s v => tmShpApply s r i v)

/-- A held shaper or scheduler write of a queue is applied at its packet boundary (R250). -/
def queueBoundary (s : State) (p c : Nat) : State :=
  let one := fun (s : State) (r : Rid) =>
    match heldGet s r (pc p c) with
    | some v => tmShpApply (heldSet s r (pc p c) none) r (pc p c) v
    | none => s
  let s := one (one (one s .TM_SHP_CTRL) .TM_SHP_RATE) .TM_SHP_BURST
  if c < 5 then
    match heldGet s .TM_SCH_WT (5 * p + c) with
    | some v => regSet (heldSet s .TM_SCH_WT (5 * p + c) none) .TM_SCH_WT (5 * p + c) v
    | none => s
  else s

end Sys2Proof.Machine
end

