-- ==== Sys2Proof/Machine/Basting.lean ====
section
/-! DEFINITION. The basting cross-connect (07_switch_and_traffic): circuits, receivers, the tack word. -/

namespace Sys2Proof.Machine

/-- A circuit. -/
def circ (s : State) (n : Nat) : Circuit := tabGet ⟨.off, 0⟩ s.bast.circs n

/-- Sets a circuit. -/
def circSet (s : State) (n : Nat) (x : Circuit) : State := { s with bast := { s.bast with circs := tabSet ⟨.off, 0⟩ s.bast.circs n x } }

/-- A tack receiver. -/
def tackRx (s : State) (n : Nat) : TackRx := tabGet ⟨false, false, []⟩ s.bast.rxs n

/-- Sets a tack receiver. -/
def tackRxSet (s : State) (n : Nat) (x : TackRx) : State :=
  { s with bast := { s.bast with rxs := tabSet ⟨false, false, []⟩ s.bast.rxs n x } }

/-! ### The tack word (R245) -/

/-- The fields of a tack word. -/
structure Tack where
  sync : BitVec 32
  typ : BitVec 8
  cause : BitVec 8
  panel : BitVec 4
  hold : Bool
  flagsResv : BitVec 3
  seq : BitVec 16
  src : BitVec 16
  coll : Word
  epoch : BitVec 48
  aux : Word
  resv : BitVec 24
  crc : Word
  deriving DecidableEq, Repr

/-- The value of SYNC. -/
abbrev tackSync : BitVec 32 := 0x7A3CE519

/-- The fields of a word (R245). -/
def tackParse (w : BitVec 256) : Tack :=
  { sync := w.extractLsb' 224 32, typ := w.extractLsb' 216 8, cause := w.extractLsb' 208 8, panel := w.extractLsb' 204 4,
    hold := w.getLsbD 203, flagsResv := w.extractLsb' 200 3, seq := w.extractLsb' 184 16, src := w.extractLsb' 168 16,
    coll := w.extractLsb' 136 32, epoch := w.extractLsb' 88 48, aux := w.extractLsb' 56 32, resv := w.extractLsb' 32 24,
    crc := w.extractLsb' 0 32 }

/-- The word of a tack's fields (R245). -/
def tackEncode (t : Tack) : BitVec 256 :=
  t.sync ++ (t.typ ++ (t.cause ++ (t.panel ++ (BitVec.ofBool t.hold ++ (t.flagsResv ++ (t.seq ++ (t.src ++
    (t.coll ++ (t.epoch ++ (t.aux ++ (t.resv ++ t.crc)))))))))))

/-- The CRC of a word: bits [223:32] as 24 bytes, most significant first (R245). -/
def tackCrc (w : BitVec 256) : Word := crc32c (beBytes 24 (w.extractLsb' 32 192).toNat)

/-- The word with its CRC in place. -/
def tackSeal (t : Tack) : BitVec 256 :=
  let w := tackEncode { t with crc := 0 }
  tackEncode { t with crc := tackCrc w }

/-- The self-synchronising scrambler x^58 + x^39 + 1 over a list of bits: each bit sent is the data bit, the bit sent 39 before and the one sent 58
before; the last 58 bits sent, the latest first, go on into the next word (R245). -/
def scramble : List Bool → List Bool → List Bool × List Bool
  | st, [] => ([], st)
  | st, b :: bs =>
    let c := b ^^ (st.getD 38 false ^^ st.getD 57 false)
    let (r, st) := scramble ((c :: st).take 58) bs
    (c :: r, st)

/-- The PAM4 level of two bits, the first the more significant, in Gray code (R245). -/
def pam4 (hi lo : Bool) : Nat :=
  match hi, lo with
  | false, false => 0
  | false, true => 1
  | true, true => 2
  | true, false => 3

/-- The PAM4 levels of bits in the order in which they are sent (R245). -/
def pam4Levels : List Bool → List Nat
  | a :: b :: r => pam4 a b :: pam4Levels r
  | _ => []

/-- The 128 levels of a word on its lane, bit 255 first: SYNC as it is, the rest scrambled (R245).  The stream runs on between commands, so the
scrambler's state is an argument here and no part of the state (log 84). -/
def laneLevels (st : List Bool) (w : BitVec 256) : List Nat :=
  let bits := (List.range 256).map (fun i => w.getLsbD (255 - i))
  pam4Levels (bits.take 32 ++ (scramble st (bits.drop 32)).1)

/-- The word an ORIG circuit sends between tacks: IDLE with the SEQ of the last tack, the other fields zero, and its CRC (R246; log 84). -/
def idleWord (q : BitVec 16) : BitVec 256 :=
  tackSeal { sync := tackSync, typ := 0, cause := 0, panel := 0, hold := false, flagsResv := 0, seq := q, src := 0, coll := 0, epoch := 0, aux := 0,
             resv := 0, crc := 0 }

/-- The address of a circuit's peer (R247, R254). -/
def circPeer (s : State) (n : Nat) : Nat :=
  (List.range 4).foldl (fun a k => a * pow2 32 + (regGet s .BAST_CIRC_PEER (4 * n + k)).toNat) 0

/-- A tack of the given fields leaves the ORIG circuits that are UP and whose peer is `ip`, and IDLE words with its SEQ follow it (R246, R247). -/
def sendTack (s : State) (ip typ cause panel : Nat) (hold : Bool) (coll : Word) (epoch : Nat) (aux : Word) : State :=
  (List.range 32).foldl (fun s n =>
    let c := circ s n
    if circEn s n ∧ circOrig s n ∧ c.state = .up ∧ circPeer s n = ip ∧ domOn s 12 then
      let q := c.seq + 1
      let w := tackSeal { sync := tackSync, typ := BitVec.ofNat 8 typ, cause := BitVec.ofNat 8 cause, panel := BitVec.ofNat 4 panel,
                          hold := hold, flagsResv := 0, seq := q, src := BitVec.ofNat 16 (regBf s .BAST_GWID 0 15 0), coll := coll,
                          epoch := BitVec.ofNat 48 epoch, aux := aux, resv := 0, crc := 0 }
      send (send (ctrInc (circSet s n { c with seq := q }) .BAST_CNT_TX n) (.tackWord n w)) (.tackIdle n (idleWord q))
    else s) s

/-! ### Configuration (R243, R244) -/

/-- A lane belongs to an enabled port (R218, R243). -/
def laneOfPort (s : State) (lane : Nat) : Bool := portImpl s (lanePort s lane) && portEn s (lanePort s lane)

/-- An enabled receiver other than `m` on a lane, with or without SNOOP. -/
def rxOn (s : State) (m lane : Nat) (snoop : Bool) : Bool :=
  (List.range 32).any (fun n => n ≠ m && rxEn s n && regBf s .BAST_RX_CFG n 8 0 == lane && regBit s .BAST_RX_CFG n 30 == snoop)

/-- An enabled PASS circuit other than `m` takes a lane as its source. -/
def passFrom (s : State) (m lane : Nat) : Bool :=
  (List.range 32).any (fun n => n ≠ m && circEn s n && !circOrig s n && regBf s .BAST_CIRC_CFG n 24 16 == lane)

/-- An enabled circuit other than `m` drives a lane. -/
def circOut (s : State) (m lane : Nat) : Bool :=
  (List.range 32).any (fun n => n ≠ m && circEn s n && regBf s .BAST_CIRC_CFG n 8 0 == lane)

/-- A circuit's configuration breaks the rules of R243. -/
def circClash (s : State) (n : Nat) (v : Word) : Bool :=
  let src := bf v 24 16
  let out := bf v 8 0
  bit v 31 && (circOut s n out || laneOfPort s out ||
    (bf v 30 29 == 0 && (passFrom s n src || laneOfPort s src || rxOn s 32 src false)))

/-- BAST_CIRC_CFG_WRITE: refused under R243, or it starts a reconfiguration (R244). -/
def execBastCircCfgWrite (req : Requester) (circ : Nat) (value : Word) (s : State) : Result :=
  .next <| guardWrite s req .BAST_CIRC_CFG circ fun s =>
    let old := regGet s .BAST_CIRC_CFG circ
    let v := acceptWord .BAST_CIRC_CFG old value
    if 1 < bf value 30 29 then s
    else if circClash s circ v then raiseEv s .BAST_EVENT 0 2
    else if v = old ∨ (!bit v 31 ∧ !bit old 31) then regSet s .BAST_CIRC_CFG circ v
    else circSet (regSet s .BAST_CIRC_CFG circ v) circ { Machine.circ s circ with state := .relock }

/-- A circuit reads UP: an ORIG circuit sends its word stream from here on (R242, R244, R246). -/
def circUp (s : State) (n : Nat) : State :=
  let s := circSet s n { circ s n with state := .up }
  if circOrig s n then send s (.tackIdle n (idleWord (circ s n).seq)) else s

/-- RELOCK_DONE: the circuit reads UP, or OFF where it was disabled, and RELOCK_DONE is set (R244). -/
def execRelockDone (circ : Nat) (s : State) : Result :=
  .next <|
    let c := Machine.circ s circ
    if c.state = .relock then
      raiseEv (if circEn s circ then circUp s circ else circSet s circ { c with state := .off }) .BAST_EVENT 0 0
    else s

/-- A circuit loses its source, or its lane, whether it was UP or still relocking (R244, R249). -/
def circLoss (s : State) (n : Nat) : State :=
  let c := circ s n
  if c.state = .up ∨ c.state = .relock then raiseEv (circSet s n { c with state := .lossOfLock }) .BAST_EVENT 0 3 else s

/-- LOSS_OF_LOCK: a PASS circuit that is UP squelches its output (R244). -/
def execLossOfLock (circ : Nat) (s : State) : Result :=
  .next <| if circEn s circ ∧ ¬ circOrig s circ ∧ (Machine.circ s circ).state = .up then circLoss s circ else s

/-- LOCK_RETURN: the circuit returns to UP by itself (R244). -/
def execLockReturn (circ : Nat) (s : State) : Result :=
  .next <|
    let c := Machine.circ s circ
    if c.state = .lossOfLock then circUp s circ else s

/-- BAST_RX_CFG_WRITE: refused on a lane conflict; otherwise the receiver starts unaligned (R243). -/
def execBastRxCfgWrite (req : Requester) (rx : Nat) (value : Word) (s : State) : Result :=
  .next <| guardWrite s req .BAST_RX_CFG rx fun s =>
    let v := acceptWord .BAST_RX_CFG (regGet s .BAST_RX_CFG rx) value
    let lane := bf v 8 0
    let clash := bit v 31 && (laneOfPort s lane || rxOn s rx lane true || rxOn s rx lane false ||
      (passFrom s 32 lane && !bit v 30))
    if clash then raiseEv s .BAST_EVENT 0 2
    else tackRxSet (regSet s .BAST_RX_CFG rx v) rx ⟨false, false, (tackRx s rx).acted⟩

/-- TACK_RX_ALIGN: after 4 consecutive words with a correct SYNC (R246). -/
def execTackRxAlign (rx : Nat) (s : State) : Result :=
  .next <| if rxEn s rx ∧ domOn s 12 then tackRxSet s rx { tackRx s rx with aligned := true, signal := true } else s

/-- TACK_RX_ALIGN_LOSS: after 4 consecutive words without (R246). -/
def execTackRxAlignLoss (rx : Nat) (s : State) : Result :=
  .next <| tackRxSet s rx { tackRx s rx with aligned := false }

/-- The lanes from `lo` on, `n` of them, lose lock: circuits and receivers on them enter LOSS_OF_LOCK (R249, R442, R479). -/
def lanesLost (s : State) (lo n : Nat) : State :=
  let mine := fun (l : Nat) => decide (lo ≤ l ∧ l < lo + n)
  let s := (List.range 32).foldl (fun s k =>
    if circEn s k ∧ (mine (regBf s .BAST_CIRC_CFG k 8 0) ∨ (¬ circOrig s k ∧ mine (regBf s .BAST_CIRC_CFG k 24 16)))
    then circLoss s k else s) s
  (List.range 32).foldl (fun s k =>
    if rxEn s k ∧ mine (regBf s .BAST_RX_CFG k 8 0) then tackRxSet s k { tackRx s k with aligned := false, signal := false } else s) s

end Sys2Proof.Machine
end

