-- ==== Sys2Proof/Machine/ScpWire.lean ====
section
/-! DEFINITION. The 64-byte SCP header (04_collective_protocol): its fields, its bytes, its CRC. -/

namespace Sys2Proof.Machine

/-- An SCP header (R121).  `resv` says that every reserved field and bit is zero; the chalk tag is `layer` and `oper`. -/
structure ScpHdr where
  ver : Nat
  opc : Nat
  panel : Nat
  mode : Nat
  crcEn : Bool
  fmt : Nat
  idx : Bool
  standin : Bool
  reissue : Bool
  hold : Bool
  coll : Word
  epoch : Nat
  ncontrib : Nat
  chunk : Nat
  rank : Nat
  arith : Byte
  elems : Nat
  fragOff : Nat
  nelem : Nat
  plen : Nat
  layer : Nat
  oper : Nat
  aux : Nat
  creditLim : Nat
  rgen : Nat
  resv : Bool
  crc : Nat
  deriving DecidableEq, Repr

/-- Opcodes (R122). -/
abbrev opcContrib : Nat := 1
/-- RESULT. -/
abbrev opcResult : Nat := 2
/-- NACK. -/
abbrev opcNack : Nat := 3
/-- ABORT. -/
abbrev opcAbort : Nat := 4
/-- CLOSE. -/
abbrev opcClose : Nat := 5
/-- TACK. -/
abbrev opcTack : Nat := 6

/-- The rank of messages from a gateway to several receivers (R121). -/
abbrev rankNone : Nat := 0xFFFFFF

/-- The header's bytes, big-endian (R120, R121). -/
def scpEncode (h : ScpHdr) : List Byte :=
  [BitVec.ofNat 8 (h.ver * 16 + h.opc), BitVec.ofNat 8 (h.panel * 16 + h.mode * 4 + b2n h.crcEn * 2), BitVec.ofNat 8 (h.fmt * 16),
   BitVec.ofNat 8 (b2n h.idx * 128 + b2n h.standin * 64 + b2n h.reissue * 32 + b2n h.hold * 16)] ++
  beBytes 4 h.coll.toNat ++ beBytes 6 h.epoch ++ beBytes 2 h.ncontrib ++ beBytes 4 h.chunk ++ beBytes 3 h.rank ++ [h.arith] ++
  beBytes 2 h.elems ++ beBytes 2 h.fragOff ++ beBytes 2 h.nelem ++ beBytes 2 h.plen ++ beBytes 2 h.layer ++ beBytes 2 h.oper ++
  beBytes 4 h.aux ++ beBytes 4 h.creditLim ++ beBytes 4 h.rgen ++ List.replicate 12 0 ++ beBytes 4 h.crc

/-- A big-endian field of a list of bytes. -/
def beField (bs : List Byte) (off n : Nat) : Nat := beNat (slice bs off n)

/-- The fields of 64 header bytes (R120, R121). -/
def scpParse (bs : List Byte) : ScpHdr :=
  let b := fun (i : Nat) => beField bs i 1
  { ver := b 0 / 16, opc := b 0 % 16, panel := b 1 / 16, mode := b 1 / 4 % 4, crcEn := b 1 / 2 % 2 == 1, fmt := b 2 / 16,
    idx := b 3 / 128 == 1, standin := b 3 / 64 % 2 == 1, reissue := b 3 / 32 % 2 == 1, hold := b 3 / 16 % 2 == 1,
    coll := BitVec.ofNat 32 (beField bs 4 4), epoch := beField bs 8 6, ncontrib := beField bs 14 2, chunk := beField bs 16 4,
    rank := beField bs 20 3, arith := BitVec.ofNat 8 (b 23), elems := beField bs 24 2 % 8192, fragOff := beField bs 26 2 % 8192,
    nelem := beField bs 28 2 % 8192, plen := beField bs 30 2, layer := beField bs 32 2, oper := beField bs 34 2,
    aux := beField bs 36 4, creditLim := beField bs 40 4, rgen := beField bs 44 4,
    resv := b 1 % 2 == 0 && b 2 % 16 == 0 && b 3 % 16 == 0 && beField bs 24 2 / 8192 == 0 && beField bs 26 2 / 8192 == 0 &&
      beField bs 28 2 / 8192 == 0 && beField bs 48 12 == 0 && b 23 < 32,
    crc := beField bs 60 4 }

/-- Every field within its bits, and nothing reserved set. -/
def ScpHdr.inRange (h : ScpHdr) : Bool :=
  decide (h.ver < 16 ∧ h.opc < 16 ∧ h.panel < 16 ∧ h.mode < 4 ∧ h.fmt < 16 ∧ h.epoch < 2 ^ 48 ∧ h.ncontrib < 2 ^ 16 ∧
    h.chunk < 2 ^ 32 ∧ h.rank < 2 ^ 24) &&
  decide (h.elems < 8192 ∧ h.fragOff < 8192 ∧ h.nelem < 8192 ∧ h.plen < 2 ^ 16 ∧ h.layer < 2 ^ 16 ∧ h.oper < 2 ^ 16) &&
  decide (h.arith.toNat < 32) && decide (h.aux < 2 ^ 32 ∧ h.creditLim < 2 ^ 32 ∧ h.rgen < 2 ^ 32 ∧ h.crc < 2 ^ 32) && h.resv

/-- The CRC of a datagram: the header with its CRC bytes zero, followed by the payload (R124). -/
def scpCrc (hdr payload : List Byte) : Word := crc32c (hdr.take 60 ++ [0, 0, 0, 0] ++ payload)

/-- The bytes of a datagram, its CRC in place where CRC_EN is set (R124). -/
def scpBytes (h : ScpHdr) (payload : List Byte) : List Byte :=
  let h := { h with crc := 0 }
  (if h.crcEn then scpEncode { h with crc := (scpCrc (scpEncode h) payload).toNat } else scpEncode h) ++ payload

/-- The chalk tag as one word: layer in [15:0], operator in [31:16]. -/
def chalkWord (layer oper : Nat) : Word := BitVec.ofNat 32 (oper % 65536 * 65536 + layer % 65536)

/-- A header with nothing in it but VER. -/
def scpBlank : ScpHdr :=
  { ver := 1, opc := 0, panel := 0, mode := 0, crcEn := false, fmt := 0, idx := false, standin := false, reissue := false, hold := false,
    coll := 0, epoch := 0, ncontrib := 0, chunk := 0, rank := 0, arith := 0, elems := 0, fragOff := 0, nelem := 0, plen := 0,
    layer := 0, oper := 0, aux := 0, creditLim := 0, rgen := 0, resv := true, crc := 0 }

end Sys2Proof.Machine
end

