-- ==== Sys2Proof/Machine/Light.lean ====
section
/-! DEFINITION. The line dies' stores (11_optical_line), which the framers read too. -/

namespace Sys2Proof.Machine

/-- A line die. -/
def optDie (s : State) (d : Nat) : OptDie := tabGet OptDie.reset s.opt.dies d
/-- Sets a line die. -/
def optDieSet (s : State) (d : Nat) (x : OptDie) : State := { s with opt := { s.opt with dies := tabSet OptDie.reset s.opt.dies d x } }
/-- An optical channel. -/
def optCh (s : State) (k : Nat) : OptCh := tabGet OptCh.reset s.opt.chs k
/-- Sets an optical channel. -/
def optChSet (s : State) (k : Nat) (x : OptCh) : State := { s with opt := { s.opt with chs := tabSet OptCh.reset s.opt.chs k x } }

/-- OPT_CH_CTRL.EN. -/
def optEn (s : State) (k : Nat) : Bool := regBit s .OPT_CH_CTRL k 31

/-- The channel carries no data because of its calibration: its member is leaving or its pattern runs (R356). -/
def calOut (s : State) (k : Nat) : Bool :=
  match (optCh s k).cal with
  | .leaving | .pattern => true
  | _ => false

/-- Frames of a channel reach its fibre: its die is powered, and it is lit or ramping (R343, R356). -/
def carriesLight (s : State) (k : Nat) : Bool :=
  domOn s (dieDom (k / 16)) &&
  (match (optCh s k).light with
    | .lit | .ramping => true
    | _ => false)

/-- A held write, if there is one, takes effect (R399). -/
def applyHeld (s : State) (r : Rid) (i : Nat) (apply : State → Word → State) : State :=
  match heldGet s r i with
  | some v => apply (heldSet s r i none) v
  | none => s

end Sys2Proof.Machine
end

