-- ==== Sys2Proof/Machine/Flags.lean ====
section
/-! DEFINITION. The arithmetic flags of a chunk (R69, R70) and how each event sets them. -/

namespace Sys2Proof.Machine

/-- No flag. -/
abbrev flNone : Byte := 0x00
/-- NAN: an element of the result is NaN (R69). -/
abbrev flNan : Byte := 0x01
/-- OVF: a finite value overflowed, or an integer result was clamped (R69). -/
abbrev flOvf : Byte := 0x02
/-- INF: an infinite input or product reached an element of the result (R69). -/
abbrev flInf : Byte := 0x04
/-- FLUSH: FTZ replaced an input or output with zero (R69). -/
abbrev flFlush : Byte := 0x08
/-- XPFB: a datagram fell back from XP20 to XP40 (R58, R69). -/
abbrev flXpfb : Byte := 0x10

/-- The flags of several events together (R70). -/
def flOr (l : List Byte) : Byte := l.foldl (· ||| ·) flNone

/-- A flag when a condition holds. -/
def flIf (c : Bool) (f : Byte) : Byte := if c then f else flNone

/-- The flags a sticky code sets in a partial or a result: 11b NAN, 01b and 10b INF (R52, R69). -/
def flSticky (st : BitVec 2) : Byte := if st = 3 then flNan else if st = 0 then flNone else flInf

/-- The sticky code after another is added: 01b with 10b gives 11b, as OR does (R45, R46). -/
def stickyOr (a b : BitVec 2) : BitVec 2 := a ||| b

end Sys2Proof.Machine
end

