-- ==== Sys2Proof/Machine/Arith.lean ====
section
/-! DEFINITION. Seam arithmetic (02_seam_arithmetic): formats, widening, rounding, the exact accumulator, SCALE,
narrowing.  Finite values are exact: a sign, a magnitude and a power of two. -/

namespace Sys2Proof.Machine

/-! ### Values -/

/-- A number as the arithmetic sees it: NaN, an infinity, or (−1)^neg × mag × 2^e. -/
inductive Val where
  | nan
  | inf (neg : Bool)
  | fin (neg : Bool) (mag : Nat) (e : Int)
  deriving DecidableEq, Repr

/-- A floating format: exponent bits, fraction bits, bias (R33). -/
structure FpFmt where
  eb : Nat
  fb : Nat
  bias : Nat
  deriving DecidableEq, Repr

/-- FP32 (R33). -/
abbrev fp32 : FpFmt := ⟨8, 23, 127⟩
/-- BF16 (R33). -/
abbrev bf16 : FpFmt := ⟨8, 7, 127⟩
/-- FP16 (R33). -/
abbrev fp16 : FpFmt := ⟨5, 10, 15⟩
/-- MXFP8-E4M3 elements (R33). -/
abbrev e4m3 : FpFmt := ⟨4, 3, 7⟩
/-- MXFP8-E5M2 elements (R33). -/
abbrev e5m2 : FpFmt := ⟨5, 2, 15⟩
/-- MXFP4-E2M1 elements (R33). -/
abbrev e2m1 : FpFmt := ⟨2, 1, 1⟩

/-- Sign, exponent field and fraction field of a code. -/
def fpParts (f : FpFmt) (w : Nat) : Bool × Nat × Nat :=
  (w / pow2 (f.eb + f.fb) % 2 = 1, w / pow2 f.fb % pow2 f.eb, w % pow2 f.fb)

/-- The finite value of an exponent and fraction field: subnormal where the exponent field is zero (R33). -/
def fpFinite (f : FpFmt) (neg : Bool) (ex fr : Nat) : Val :=
  if ex = 0 then .fin neg fr (1 - (f.bias : Int) - (f.fb : Int))
  else .fin neg (fr + pow2 f.fb) ((ex : Int) - (f.bias : Int) - (f.fb : Int))

/-- The code is a subnormal of its format: exponent field zero, fraction not (R33, R41). -/
def fpSubnormal (f : FpFmt) (w : Nat) : Bool := (fpParts f w).2.1 == 0 && (fpParts f w).2.2 != 0

/-- The value of a code of an IEEE-like format: all-ones exponent for infinities and NaNs (R33, R40). -/
def fpDecode (f : FpFmt) (w : Nat) : Val :=
  let (neg, ex, fr) := fpParts f w
  if ex = pow2 f.eb - 1 then (if fr = 0 then .inf neg else .nan) else fpFinite f neg ex fr

/-- The value of an MX element code before its scale (R33): E4M3 has one NaN and no infinity, E2M1 neither. -/
def mxElem (fmt w : Nat) : Val :=
  if fmt = 3 then
    let (neg, ex, fr) := fpParts e4m3 w
    if ex = 15 ∧ fr = 7 then .nan else fpFinite e4m3 neg ex fr
  else if fmt = 4 then fpDecode e5m2 w
  else (let (neg, ex, fr) := fpParts e2m1 w; fpFinite e2m1 neg ex fr)

/-- The element format of an MX code (R33). -/
def mxFmt (fmt : Nat) : FpFmt := if fmt = 3 then e4m3 else if fmt = 4 then e5m2 else e2m1

/-- An MX format code (R17). -/
def isMx (fmt : Nat) : Bool := 3 ≤ fmt && fmt ≤ 5
/-- An integer format code (R17). -/
def isInt (fmt : Nat) : Bool := fmt == 6 || fmt == 7
/-- An XP format code (R17). -/
def isXp (fmt : Nat) : Bool := fmt == 8 || fmt == 9

/-- Times 2^k. -/
def Val.scale (v : Val) (k : Int) : Val :=
  match v with
  | .fin n m e => .fin n m (e + k)
  | v => v

/-- Bits of a magnitude. -/
def bitLen (m : Nat) : Nat := if m = 0 then 0 else Nat.log2 m + 1

/-- The magnitude m × 2^e is 2^k or more. -/
def magGe (m : Nat) (e k : Int) : Bool := m != 0 && decide (k ≤ e + (bitLen m : Int) - 1)

/-! ### Rounding -/

/-- m × 2^e rounded to nearest, ties to even, at `p` significant bits and no finer than the quantum 2^q: the rounded
magnitude and its exponent (R52, step 4). -/
def roundNE (m : Nat) (e : Int) (p : Nat) (q : Int) : Nat × Int :=
  let t := max (e + (bitLen m : Int) - (p : Int)) q
  if t ≤ e then (m, e)
  else
    let s := (t - e).toNat
    let k := m / pow2 s
    let r := m % pow2 s
    if pow2 (s - 1) < r ∨ (r = pow2 (s - 1) ∧ k % 2 = 1) then (k + 1, t) else (k, t)

/-- m × 2^e truncated toward zero at `p` significant bits and no finer than 2^q (R61). -/
def truncTo (m : Nat) (e : Int) (p : Nat) (q : Int) : Nat × Int :=
  let t := max (e + (bitLen m : Int) - (p : Int)) q
  if t ≤ e then (m, e) else (m / pow2 (t - e).toNat, t)

/-- m × 2^d for a shift of either sign; bits below the unit are dropped (none are where it is used). -/
def shiftMag (m : Nat) (d : Int) : Nat := if 0 ≤ d then m * pow2 d.toNat else m / pow2 (-d).toNat

/-- The least exponent of a normal value. -/
def fpMinExp (f : FpFmt) : Int := 1 - (f.bias : Int)
/-- The subnormal quantum's exponent: −149, −133, −24 (R52). -/
def fpQuantum (f : FpFmt) : Int := fpMinExp f - (f.fb : Int)
/-- Magnitudes reaching 2 to this power have no finite form (R52, step 5). -/
def fpTop (f : FpFmt) : Int := (f.bias : Int) + 1

/-- An infinity's code. -/
def fpInf (f : FpFmt) (neg : Bool) : Nat := b2nat neg * pow2 (f.eb + f.fb) + (pow2 f.eb - 1) * pow2 f.fb
where
  /-- 1 for true -/
  b2nat (b : Bool) : Nat := if b then 1 else 0

/-- The canonical NaN's code: FP32 0x7FC0_0000, BF16 0x7FC0, FP16 0x7E00 (R54). -/
def fpNan (f : FpFmt) : Nat := (pow2 f.eb - 1) * pow2 f.fb + pow2 (f.fb - 1)

/-- The code of a magnitude that fits the format exactly. -/
def fpPack (f : FpFmt) (neg : Bool) (m : Nat) (e : Int) : Nat :=
  let x := e + (bitLen m : Int) - 1
  let sg := if neg then pow2 (f.eb + f.fb) else 0
  if m = 0 then 0
  else if x < fpMinExp f then sg + shiftMag m (e - fpQuantum f)
  else sg + (x + (f.bias : Int)).toNat * pow2 f.fb + (shiftMag m (e - (x - (f.fb : Int))) - pow2 f.fb)

/-- A finite value rounded into a floating format by steps 4 to 7 of R52, with the flags set. -/
def fpRoundFin (f : FpFmt) (ftz neg : Bool) (m : Nat) (e : Int) : Nat × Byte :=
  let (k, t) := roundNE m e (f.fb + 1) (fpQuantum f)
  if k = 0 then (0, flNone)
  else if magGe k t (fpTop f) then (fpInf f neg, flOvf)
  else if ftz && !magGe k t (fpMinExp f) then (0, flFlush)
  else (fpPack f neg k t, flNone)

/-- A value rounded into a floating format: special values as R54 sets out, −0 written as +0 (R55). -/
def fpRound (f : FpFmt) (ftz : Bool) (v : Val) : Nat × Byte :=
  match v with
  | .nan => (fpNan f, flNan)
  | .inf n => (fpInf f n, flInf)
  | .fin n m e => fpRoundFin f ftz n m e

/-- A value rounded to nearest-even at weight 2^0 and clamped to `b` bits of two's complement (R53). -/
def intRound (b : Nat) (v : Val) : Nat × Byte :=
  let top := pow2 (b - 1)
  match v with
  | .nan => (top, flNan)
  | .inf n => (if n then top else top - 1, flInf)
  | .fin n m e =>
    let (k, t) := roundNE m e (bitLen m + 400) 0
    let k := shiftMag k t
    if n then (if top < k then (top, flOvf) else ((pow2 b - k) % pow2 b, flNone))
    else (if top - 1 < k then (top - 1, flOvf) else (k, flNone))

/-! ### Widening (R36-R41) -/

/-- A signed integer as a value of weight 2^0 (R39). -/
def valInt (x : Int) : Val := .fin (x < 0) x.natAbs 0

/-- Two's complement of `b` bits as an integer. -/
def intOf (b w : Nat) : Int := if w % pow2 b < pow2 (b - 1) then (w % pow2 b : Nat) else ((w % pow2 b : Nat) : Int) - (pow2 b : Nat)

/-- An element of any unblocked or MX format, widened exactly, with FTZ applied and the flags set: subnormal inputs are
flushed under FTZ (R41); an MX value of magnitude 2^128 or more is an infinity and sets OVF (R38); a scale byte of
0xFF makes the element NaN (R36), which comes before the flush of R41, so that FLUSH is not set by it (log 81). -/
def widen (fmt : Nat) (ftz : Bool) (scale : Byte) (w : Word) : Val × Byte :=
  let c := w.toNat
  match fmt with
  | 0 | 10 => if ftz && fpSubnormal fp32 c then (.fin (fpParts fp32 c).1 0 0, flFlush) else (fpDecode fp32 c, flNone)
  | 1 => if ftz && fpSubnormal bf16 (c % 65536) then (.fin (fpParts bf16 c).1 0 0, flFlush) else (fpDecode bf16 (c % 65536), flNone)
  | 2 => if ftz && fpSubnormal fp16 (c % 65536) then (.fin (fpParts fp16 c).1 0 0, flFlush) else (fpDecode fp16 (c % 65536), flNone)
  | 6 => (valInt (intOf 32 c), flNone)
  | 7 => (valInt (intOf 8 c), flNone)
  | _ =>
    if scale = 0xFF then (.nan, flNone)
    else if ftz && fpSubnormal (mxFmt fmt) c then (.fin (fpParts (mxFmt fmt) c).1 0 0, flFlush)
    else match (mxElem fmt c).scale ((scale.toNat : Int) - 127) with
      | .fin n m e => if magGe m e 128 then (.inf n, flOvf) else (.fin n m e, flNone)
      | v => (v, flNone)

/-- An exactly representable value as FP32 bits; used where widening to FP32 is exact (R38). -/
def toFp32 (v : Val) : Word :=
  match v with
  | .fin true 0 _ => 0x80000000
  | v => BitVec.ofNat 32 (fpRound fp32 false v).1

/-- The exact FP32 form of an element, a zero with its sign (R38, R41, R49). -/
def widenBits (fmt : Nat) (ftz : Bool) (scale : Byte) (w : Word) : Word × Byte :=
  let (v, fl) := widen fmt ftz scale w
  (toFp32 v, fl)

/-- The value of FP32 bits. -/
def valFp32 (w : Word) : Val := fpDecode fp32 w.toNat

/-! ### Exact addition of values -/

/-- The exact sum of two finite values, or the special value their sum has (R54). -/
def valAdd (a b : Val) : Val :=
  match a, b with
  | .nan, _ | _, .nan => .nan
  | .inf n, .inf k => if n = k then .inf n else .nan
  | .inf n, _ => .inf n
  | _, .inf n => .inf n
  | .fin n m e, .fin k l g =>
    let q := min e g
    let x : Int := (shiftMag m (e - q) : Int) * (if n then -1 else 1) + (shiftMag l (g - q) : Int) * (if k then -1 else 1)
    .fin (x < 0) x.natAbs q

/-- The value with its sign changed. -/
def valNeg : Val → Val
  | .nan => .nan
  | .inf n => .inf (!n)
  | .fin n m e => .fin (!n) m e

/-- An FP32 addition rounded to nearest-even with gradual underflow; a rounded magnitude beyond the range is an infinity
and sets OVF (R49, R51).  NaN and infinite operands give their special results without a flag; the final conversion sets
those (R52, R54). -/
def addFp32 (a b : Word) : Word × Byte :=
  let (w, fl) := fpRound fp32 false (valAdd (valFp32 a) (valFp32 b))
  (BitVec.ofNat 32 w, fl &&& flOvf)

/-! ### The exact accumulator (R44-R47) -/

/-- A finite value's integer in units of 2^-160 (R44); widening never reaches below bit 0. -/
def accWord (n : Bool) (m : Nat) (e : Int) : BitVec 320 :=
  let x := shiftMag m (e + 160)
  if n then - BitVec.ofNat 320 x else BitVec.ofNat 320 x

/-- The accumulator's value (R44). -/
def accVal (a : BitVec 320) : Val :=
  let x := a.toInt
  .fin (x < 0) x.natAbs (-160)

/-- One accumulator addition modulo 2^320, with signed overflow detected: two addends of one sign and a sum of the other
give sticky code 11b and set OVF and NAN (R46, R47). -/
def accAdd (a b : BitVec 320) (st : BitVec 2) : BitVec 320 × BitVec 2 × Byte :=
  let r := a + b
  if a.msb = b.msb ∧ r.msb ≠ a.msb then (r, 3, flOvf ||| flNan) else (r, st, flNone)

/-- A widened addend enters an element: finite values add, infinities and NaNs update the sticky code (R46).  INF and NAN are set when the element
is rounded or passed on, by what its sticky code then is (R52, R54, R69). -/
def accAddVal (a : BitVec 320) (st : BitVec 2) (v : Val) : BitVec 320 × BitVec 2 × Byte :=
  match v with
  | .nan => (a, 3, flNone)
  | .inf n => (a, stickyOr st (if n then 2 else 1), flNone)
  | .fin n m e => accAdd a (accWord n m e) st

/-- The exact sum an element holds: its sticky code's special value, or A × 2^-160 (R52). -/
def accValue (a : BitVec 320) (st : BitVec 2) : Val :=
  if st = 3 then .nan else if st = 1 then .inf false else if st = 2 then .inf true else accVal a

/-- A value in a result format that is not XP: codes 0x0-0x2 and 0x6, 0x7 (R52, R53). -/
def roundResult (fmt : Nat) (ftz : Bool) (v : Val) : Word × Byte :=
  let (w, fl) := match fmt with
    | 0 => fpRound fp32 ftz v
    | 1 => fpRound bf16 ftz v
    | 2 => fpRound fp16 ftz v
    | 6 => intRound 32 v
    | _ => intRound 8 v
  (BitVec.ofNat 32 w, fl)

/-! ### SCALE (R61-R63) -/

/-- A SCALE operand: flushed under FTZ when subnormal. -/
def scaleOperand (fmt : Nat) (ftz : Bool) (w : Word) : Val × Byte := widen fmt ftz 0x7F w

/-- One SCALE product into an FP32 lane: exact, truncated toward zero to 24 bits, subnormals at the quantum 2^-149;
special values as R63 sets out.  A product that is not zero and is truncated to zero sets FLUSH under FTZ (log 81). -/
def scaleOne (fmtA fmtB : Nat) (ftz : Bool) (x k : Word) : Word × Byte :=
  let (a, fa) := scaleOperand fmtA ftz x
  let (b, fb) := scaleOperand fmtB ftz k
  let out := fun (w : Nat) (f : Byte) => (BitVec.ofNat 32 w, f ||| fa ||| fb)
  match a, b with
  | .nan, _ | _, .nan => out (fpNan fp32) flNan
  | .inf n, .inf l => out (fpInf fp32 (n != l)) flInf
  | .inf n, .fin l m _ | .fin l m _, .inf n => if m = 0 then out (fpNan fp32) flNan else out (fpInf fp32 (n != l)) flInf
  | .fin n m e, .fin l r g =>
    let (p, t) := truncTo (m * r) (e + g) 24 (-149)
    let neg := n != l
    if p = 0 then
      out 0 (flIf (ftz && m * r != 0) flFlush)
    else if magGe p t 128 then out (fpInf fp32 neg) flOvf
    else if ftz && !magGe p t (-126) then out 0 flFlush
    else out (fpPack fp32 neg p t) flNone

/-! ### Lanes as a result carries them (R40, R54, R55) -/

/-- A code of a floating format as a result carries it: a NaN canonical, −0 as +0, with NAN or INF where it is one (R40, R54, R55, R69). -/
def fpResult (f : FpFmt) (c : Nat) : Nat × Byte :=
  match fpDecode f c with
  | .nan => (fpNan f, flNan)
  | .inf _ => (c, flInf)
  | .fin _ m _ => (if m = 0 then 0 else c, flNone)

/-- An MX element code as a result carries it: a NaN as 0x7F, −0 as +0, code 0 in a block whose scale byte makes every element NaN (R36, R55, R68). -/
def mxResult (fmt : Nat) (scale : Byte) (c : Nat) : Nat × Byte :=
  if scale = 0xFF then (0, flNan)
  else match mxElem fmt c with
  | .nan => (0x7F, flNan)
  | .inf _ => (c, flInf)
  | .fin _ m _ => (if m = 0 then 0 else c, flNone)

/-- A lane of any value format as a result carries it; integers are written as they are. -/
def resultLane (fmt : Nat) (scale : Byte) (w : Word) : Word × Byte :=
  let (c, fl) := match fmt with
    | 0 => fpResult fp32 w.toNat
    | 1 => fpResult bf16 (w.toNat % 65536)
    | 2 => fpResult fp16 (w.toNat % 65536)
    | 3 | 4 => mxResult fmt scale (w.toNat % 256)
    | 5 => mxResult fmt scale (w.toNat % 16)
    | _ => (w.toNat, flNone)
  (BitVec.ofNat 32 c, fl)

/-! ### Residues (R73, R74) -/

/-- The residue of a word modulo 255: the sum of its bytes (R73). -/
def residue255 (a : BitVec 320) : Nat := ((leBytes 40 a.toNat).map (fun b => b.toNat)).sum % 255

/-- The residue the checker predicts for a 320-bit sum: the operands' residues added, less one for a carry out of bit 319 (R73). -/
def residuePredict (a b : BitVec 320) : Nat :=
  (residue255 a + residue255 b + 255 - (if pow2 320 ≤ a.toNat + b.toNat then 1 else 0)) % 255

/-- A 320-bit addition whose result is `r` passes the check (R73). -/
def residueOk (a b r : BitVec 320) : Bool := residue255 r % 255 == residuePredict a b

/-- A product of two significands whose result is `r` passes the check modulo 7 (R74). -/
def productOk (a b r : Nat) : Bool := r % 7 == (a % 7) * (b % 7) % 7

/-! ### SUM REG+REG (R93) -/

/-- Two FP32 lanes added: subnormal operands and subnormal sums are flushed under FTZ; results follow R52 to R55. -/
def sumFp32 (ftz : Bool) (x y : Word) : Word × Byte :=
  let (a, fa) := widen 0 ftz 0 x
  let (b, fb) := widen 0 ftz 0 y
  let (w, fl) := fpRound fp32 ftz (valAdd a b)
  (BitVec.ofNat 32 w, fl ||| fa ||| fb)

/-- Two INT32 lanes added with saturation, which sets OVF (R93). -/
def sumInt32 (x y : Word) : Word × Byte :=
  let (w, fl) := intRound 32 (valInt (intOf 32 x.toNat + intOf 32 y.toNat))
  (BitVec.ofNat 32 w, fl)

/-! ### Narrowing and residuals (R65-R68) -/

/-- v = s + r in FP32 to nearest-even, and whether it is infinite only through overflow (R65, step 1). -/
def narrowIn (s r : Word) : Val × Bool :=
  let x := valAdd (valFp32 s) (valFp32 r)
  match x with
  | .fin n m e =>
    let (k, t) := roundNE m e 24 (-149)
    if magGe k t 128 then (.inf n, true) else (.fin n k t, false)
  | v => (v, false)

/-- A residual v − n rounded into the store's format, BF16 or FP32 (R65, step 3; R66). -/
def residual (resFp32 : Bool) (v n : Val) : Word :=
  let d := valAdd v (valNeg n)
  BitVec.ofNat 32 (if resFp32 then (fpRound fp32 false d).1 else (fpRound bf16 false d).1)

/-- Narrowing to BF16 or FP16 (R66, R68): code, residual, flags. -/
def narrowFp (fmt : Nat) (ftz resFp32 ovf : Bool) (v : Val) : Word × Word × Byte :=
  let f := if fmt = 1 then bf16 else fp16
  match v with
  | .nan => (BitVec.ofNat 32 (fpNan f), 0, flNan)
  | .inf n => (BitVec.ofNat 32 (fpInf f n), 0, if ovf then flOvf else flInf)
  | .fin n m e =>
    let (c, fl) := fpRoundFin f ftz n m e
    if fl = flOvf then (BitVec.ofNat 32 c, 0, fl)
    else (BitVec.ofNat 32 c, residual resFp32 v (fpDecode f c), fl)

/-- The largest finite magnitude of an MX element and its exponent: 448, 57,344, 6 (R33). -/
def mxMax (fmt : Nat) : Nat × Int := if fmt = 3 then (7, 6) else if fmt = 4 then (7, 13) else (3, 1)

/-- The exponent e of R67: 8 for E4M3, 15 for E5M2, 2 for E2M1. -/
def mxEmax (fmt : Nat) : Int := if fmt = 3 then 8 else if fmt = 4 then 15 else 2

/-- floor(log2) of a magnitude that is not zero. -/
def magLog (m : Nat) (e : Int) : Int := e + (bitLen m : Int) - 1

/-- The shared exponent of a block of values: floor(log2 M) − e clamped to ±127, −127 where M is zero (R67). -/
def mxShared (fmt : Nat) (vs : List Val) : Int :=
  let best := vs.foldl (fun (acc : Option Int) v =>
    match v with
    | .fin _ m e => if m = 0 then acc else (match acc with
      | none => some (magLog m e)
      | some x => some (max x (magLog m e)))
    | _ => acc) none
  match best with
  | none => -127
  | some x => max (-127) (min 127 (x - mxEmax fmt))

/-- The magnitude a × 2^b exceeds c × 2^d. -/
def magGt (a : Nat) (b : Int) (c : Nat) (d : Int) : Bool :=
  let q := min b d
  decide (shiftMag c (d - q) < shiftMag a (b - q))

/-- An MX element code of a finite v / 2^X, to nearest-even and clamped to the largest finite magnitude; a quotient that
rounds to zero is +0 (R67). -/
def mxCode (fmt : Nat) (x : Int) (n : Bool) (m : Nat) (e : Int) : Nat :=
  let f := mxFmt fmt
  let (k, t) := roundNE m (e - x) (f.fb + 1) (fpQuantum f)
  let (a, b) := mxMax fmt
  if magGt k t a b then fpPack f n a b else fpPack f n k t

/-- One element of an MX block with shared exponent X: code, narrowed value, flags (R67, R68). -/
def mxOne (fmt : Nat) (ftz : Bool) (x : Int) (v : Val) (ovf : Bool) : Nat × Val × Byte :=
  match v with
  | .nan => (0x7F, .nan, flNan)
  | .inf n => (if n then 0xFC else 0x7C, .inf n, if ovf then flOvf else flInf)
  | .fin n m e =>
    let c := mxCode fmt x n m e
    if ftz && fpSubnormal (mxFmt fmt) c then (0, .fin false 0 0, flFlush)
    else (c, (mxElem fmt c).scale x, flNone)

/-- Narrowing of a block of 32 to an MX format: scale byte, codes, residuals, flags (R67, R68).  An infinity in an E4M3
block, or a NaN or infinity in an E2M1 block, gives scale 0xFF and codes 0 with every residual +0; an infinity by
overflow in step 1 sets OVF instead of INF, and NAN as well where the row sets it. -/
def narrowMx (fmt : Nat) (ftz resFp32 : Bool) (vs : List (Val × Bool)) : Byte × List Word × List Word × Byte :=
  let isInf := fun (p : Val × Bool) => match p.1 with
    | .inf _ => true
    | _ => false
  let isNan := fun (p : Val × Bool) => p.1 == .nan
  let spoiled := (fmt == 3 && vs.any isInf) || (fmt == 5 && (vs.any isInf || vs.any isNan))
  if spoiled then
    let ovf := vs.any (fun p => isInf p && p.2)
    (0xFF, vs.map (fun _ => 0), vs.map (fun _ => 0), flNan ||| flIf ovf flOvf)
  else
    let x := mxShared fmt (vs.map Prod.fst)
    let l := vs.map (fun p => (mxOne fmt ftz x p.1 p.2, p.1))
    (BitVec.ofNat 8 (x + 127).toNat, l.map (fun q => BitVec.ofNat 32 q.1.1),
      l.map (fun q => match q.2 with
        | .fin .. => residual resFp32 q.2 q.1.2.1
        | _ => 0),
      flOr (l.map (fun q => q.1.2.2)))

end Sys2Proof.Machine
end

