-- ==== Sys2Proof/Machine/Payload.lean ====
section
/-! DEFINITION. Element data on the wire (R34, R35, R56-R59, R126, R127): reading payloads, writing streams, fragments. -/

namespace Sys2Proof.Machine

/-- Bytes of one unblocked element. -/
def elemBytes (fmt : Nat) : Nat :=
  match fmt with
  | 0 | 6 | 11 => 4
  | 1 | 2 => 2
  | 7 => 1
  | _ => 0

/-- Bytes of an MX block of 32: 33 for MXFP8, 17 for MXFP4 (R35). -/
def mxBlockBytes (fmt : Nat) : Nat := if fmt = 5 then 17 else 33

/-- Bytes of the sticky map of `n` elements, padded to 4 (R56). -/
def mapBytes (n : Nat) : Nat := (n + 15) / 16 * 4

/-- Bytes of one XP element word (R57). -/
def xpWordBytes (fmt : Nat) : Nat := if fmt = 8 then 20 else 40

/-- Bytes of `n` values on the wire in a format other than PLEAT. -/
def valueBytes (fmt n : Nat) : Nat :=
  if isMx fmt then n / 32 * mxBlockBytes fmt
  else if isXp fmt then 8 + n * xpWordBytes fmt + mapBytes n
  else n * elemBytes fmt

/-! ### Reading -/

/-- Little-endian elements of `k` bytes each. -/
def readElems (k : Nat) : Nat → List Byte → List Word
  | 0, _ => []
  | n + 1, bs => BitVec.ofNat 32 (leNat (bs.take k)) :: readElems k n (bs.drop k)

/-- The nibbles of a byte, low first (R35). -/
def nibbles (b : Byte) : List Word := [BitVec.ofNat 32 (b.toNat % 16), BitVec.ofNat 32 (b.toNat / 16)]

/-- MX blocks: scale byte, then 32 elements (R35). -/
def readMx (fmt : Nat) : Nat → List Byte → List Word × List Byte
  | 0, _ => ([], [])
  | k + 1, bs =>
    let blk := slice bs 0 (mxBlockBytes fmt)
    let els := if fmt = 5 then (blk.drop 1).flatMap nibbles else (blk.drop 1).map (fun b => BitVec.ofNat 32 b.toNat)
    let (w, sc) := readMx fmt k (bs.drop (mxBlockBytes fmt))
    (els ++ w, blk.getD 0 0 :: sc)

/-- The 2-bit sticky code of element `j` of a map (R56). -/
def mapCode (m : List Byte) (j : Nat) : BitVec 2 := BitVec.ofNat 2 ((m.getD (j / 4) 0).toNat / pow2 (2 * (j % 4)))

/-- An element word of an XP datagram, sign-extended and shifted by WBASE (R57, R59). -/
def xpWord (fmt wbase : Nat) (bs : List Byte) : BitVec 320 :=
  if fmt = 8 then (BitVec.signExtend 320 (BitVec.ofNat 160 (leNat bs))) <<< wbase else BitVec.ofNat 320 (leNat bs)

/-- The elements of an XP payload. -/
def readXp (fmt n : Nat) (bs : List Byte) : List XpElem :=
  let k := xpWordBytes fmt
  let m := bs.drop (8 + n * k)
  (List.range n).map (fun j => ⟨xpWord fmt (leField bs 0 1) (slice bs (8 + j * k) k), mapCode m j⟩)

/-- R59's checks of an XP value part of `n` elements. -/
def xpOk (fmt n : Nat) (bs : List Byte) : Bool :=
  let m := bs.drop (8 + n * xpWordBytes fmt)
  leField bs 1 1 == 0 && leField bs 4 4 == 0 && (if fmt = 8 then decide (leField bs 0 1 ≤ 160) else leField bs 0 1 == 0) &&
  leField bs 2 2 == n && (List.range (4 * mapBytes n)).all (fun j => decide (j < n) || mapCode m j == 0)

/-- The values of a fragment that is not PLEAT: raw codes, MX scale bytes, exact elements, indices. -/
def readFrag (f : Frag) (hasIdx : Bool) : InData :=
  let vb := valueBytes f.fmt f.n
  let idx := if hasIdx then readElems 4 f.n (f.payload.drop vb) else []
  if isMx f.fmt then
    let (w, sc) := readMx f.fmt (f.n / 32) f.payload
    ⟨f.fmt, w, sc, [], idx⟩
  else if isXp f.fmt then ⟨f.fmt, [], [], readXp f.fmt f.n f.payload, idx⟩
  else ⟨f.fmt, readElems (elemBytes f.fmt) f.n f.payload, [], [], idx⟩

/-- Fragments in ascending position. -/
def sortFrags (l : List Frag) : List Frag := sortBy (fun f => f.off) l

/-- The values of a whole message from its fragments (R125). -/
def readMsg (l : List Frag) (hasIdx : Bool) : InData :=
  (sortFrags l).foldl (fun acc f =>
    let d := readFrag f hasIdx
    ⟨f.fmt, acc.raw ++ d.raw, acc.scales ++ d.scales, acc.xp ++ d.xp, acc.idx ++ d.idx⟩) ⟨0, [], [], [], []⟩

/-- Fragments cover positions 0 to `n` − 1 exactly once (R125). -/
def coverFrom : Nat → List Frag → Option Nat
  | p, [] => some p
  | p, f :: t => if f.off = p then coverFrom (p + f.n) t else none

/-- A message of `n` elements is complete. -/
def fragsComplete (l : List Frag) (n : Nat) : Bool := coverFrom 0 (sortFrags l) == some n && !l.isEmpty

/-! ### Writing -/

/-- Packs nibbles, low first. -/
def packNibbles : List Word → List Byte
  | a :: b :: t => BitVec.ofNat 8 (a.toNat % 16 + b.toNat % 16 * 16) :: packNibbles t
  | _ => []

/-- MX blocks on the wire. -/
def writeMx (fmt : Nat) : List Byte → List Word → List Byte
  | [], _ => []
  | sc :: t, w =>
    let els := w.take 32
    sc :: ((if fmt = 5 then packNibbles els else els.map (fun x => BitVec.ofNat 8 x.toNat)) ++ writeMx fmt t (w.drop 32))

/-- The sticky map of a list of elements (R56). -/
def writeMap (l : List XpElem) : List Byte :=
  (List.range (mapBytes l.length)).map (fun i =>
    BitVec.ofNat 8 ((List.range 4).foldl (fun acc k =>
      acc + (match l[4 * i + k]? with
        | some x => x.st.toNat
        | none => 0) * pow2 (2 * k)) 0))

/-- The lowest set bit of a 320-bit word, 320 when there is none. -/
def lowBit (a : BitVec 320) : Nat := ((List.range 320).find? (fun i => a.getLsbD i)).getD 320

/-- WBASE of a datagram (R58). -/
def xpWbase (l : List XpElem) : Nat := min 160 (l.foldl (fun acc x => min acc (lowBit x.a)) 320)

/-- Every element fits the window at `wb`: bits [319:wb + 159] all equal (R58). -/
def xpFits (l : List XpElem) (wb : Nat) : Bool :=
  l.all (fun x => let v := x.a.toInt / (pow2 wb : Int); decide (-(pow2 159 : Int) ≤ v) && decide (v < (pow2 159 : Int)))

/-- An XP datagram's value part (R56, R57). -/
def writeXp (fmt wb : Nat) (l : List XpElem) : List Byte :=
  let word := fun (x : XpElem) => if fmt = 8 then leBytes 20 (x.a.toNat / pow2 wb % pow2 160) else leBytes 40 x.a.toNat
  [BitVec.ofNat 8 wb, 0] ++ leBytes 2 l.length ++ [0, 0, 0, 0] ++ l.flatMap word ++ writeMap l

/-- The payload limit of R127. -/
abbrev payloadLimit : Nat := 9082

/-- The largest element count of one fragment: the frame limit, whole blocks for MX, and MAXE (R103, R127). -/
def fragMax (fmt : Nat) (hasIdx : Bool) (maxe : Nat) : Nat :=
  let per := fun (n : Nat) => valueBytes fmt n + (if hasIdx then 4 * n else 0)
  let fit := ((List.range 4097).reverse.find? (fun n => decide (per n ≤ payloadLimit))).getD 1
  let n := if maxe = 0 then fit else min fit maxe
  if isMx fmt then max 32 (n / 32 * 32) else max 1 n

/-- Cuts `total` elements into pieces of at most `k`: offsets and counts. -/
def cuts (k : Nat) : Nat → Nat → Nat → List (Nat × Nat)
  | 0, _, _ => []
  | fuel + 1, off, left => if left = 0 then [] else (off, min k left) :: cuts k fuel (off + min k left) (left - min k left)

/-- The index part of a piece. -/
def idxPart (st : Stream) (off n : Nat) : List Byte := ((st.idx.drop off).take n).flatMap wordBytes

/-- A piece of an XP20 stream: XP20 where the window fits, cut again at the XP40 count otherwise (R58, R127); the flag says
whether a datagram fell back. -/
def xp20Piece (st : Stream) (maxe : Nat) (p : Nat × Nat) : List Frag × Bool :=
  let one := fun (off n : Nat) =>
    let l := (st.xp.drop off).take n
    if xpFits l (xpWbase l) then (⟨off, n, 8, writeXp 8 (xpWbase l) l ++ idxPart st off n⟩, false)
    else ((⟨off, n, 9, writeXp 9 0 l ++ idxPart st off n⟩ : Frag), true)
  let l := (st.xp.drop p.1).take p.2
  if xpFits l (xpWbase l) then ([(one p.1 p.2).1], false)
  else
    let k := fragMax 9 (!st.idx.isEmpty) maxe
    let fs := (cuts k 4097 p.1 p.2).map (fun q => one q.1 q.2)
    (fs.map Prod.fst, fs.any Prod.snd)

/-- Elements of the value part of a stream that is not PLEAT. -/
def streamCount (st : Stream) : Nat :=
  match st.fmt with
  | some f => if isXp f then st.xp.length else if f = 10 then 256 * st.pleat.length else st.raw.length
  | none => 0

/-- The datagrams of a stream that is neither empty nor PLEAT, and whether one fell back to XP40 (R58, R103, R127). -/
def splitStream (st : Stream) (maxe : Nat) : List Frag × Bool :=
  let hasIdx := !st.idx.isEmpty
  match st.fmt with
  | some 8 =>
    let ps := (cuts (fragMax 8 hasIdx maxe) 4097 0 st.xp.length).map (xp20Piece st maxe)
    (ps.flatMap Prod.fst, ps.any Prod.snd)
  | some 9 =>
    ((cuts (fragMax 9 hasIdx maxe) 4097 0 st.xp.length).map (fun p =>
      ⟨p.1, p.2, 9, writeXp 9 0 ((st.xp.drop p.1).take p.2) ++ idxPart st p.1 p.2⟩), false)
  | some f =>
    ((cuts (fragMax f hasIdx maxe) 4097 0 st.raw.length).map (fun p =>
      let w := (st.raw.drop p.1).take p.2
      let bytes := if isMx f then writeMx f ((st.scales.drop (p.1 / 32)).take (p.2 / 32)) w
        else w.flatMap (fun x => leBytes (elemBytes f) x.toNat)
      ⟨p.1, p.2, f, bytes ++ idxPart st p.1 p.2⟩), false)
  | none => ([], false)

/-- Every stream's bytes counted in its own form (R102). -/
def streamBytes (st : Stream) : Nat :=
  (match st.fmt with
    | some f =>
      if isXp f then 40 * st.xp.length
      else if isMx f then (st.raw.length + 31) / 32 * mxBlockBytes f
      else if f = 10 then 1024 * st.pleat.length
      else st.raw.length * elemBytes f
    | none => 0) + 4 * st.idx.length

/-- The empty stream. -/
def emptyStream : Stream := ⟨none, [], [], [], [], []⟩

end Sys2Proof.Machine
end

