-- ==== Sys2Proof/Machine/Stitch.lean ====
section
/-! DEFINITION. The stitch word (R88) and the checker that a committed page has to pass (R89-R91, R100, R101, R110). -/

namespace Sys2Proof.Machine

/-- A stitch as its word spells it (R88). -/
structure Stitch where
  op : Nat
  fa : Nat
  fb : Nat
  dst : Nat
  sa : Nat
  sb : Nat
  imm : Nat
  deriving DecidableEq, Repr

/-- The fields of a stitch word (R88). -/
def stitchOf (w : Dword) : Stitch :=
  let n := w.toNat
  { op := n / pow2 58 % 64, fa := n / pow2 54 % 16, fb := n / pow2 50 % 16, dst := n / pow2 44 % 64,
    sa := n / pow2 38 % 64, sb := n / pow2 32 % 64, imm := n % pow2 32 }

/-- The word of a stitch (R88). -/
def stitchWord (t : Stitch) : Dword :=
  BitVec.ofNat 64 (t.op * pow2 58 + t.fa * pow2 54 + t.fb * pow2 50 + t.dst * pow2 44 + t.sa * pow2 38
    + t.sb * pow2 32 + t.imm)

/-- Every field within its bits. -/
def Stitch.inRange (t : Stitch) : Bool :=
  decide (t.op < 64 ∧ t.fa < 16 ∧ t.fb < 16 ∧ t.dst < 64 ∧ t.sa < 64 ∧ t.sb < 64 ∧ t.imm < pow2 32)

/-- Bits [hi:lo] of IMM. -/
def immBf (t : Stitch) (hi lo : Nat) : Nat := t.imm / pow2 lo % pow2 (hi + 1 - lo)

/-- IMM[31:30], the selector most stitches have (R91). -/
def immSel (t : Stitch) : Nat := immBf t 31 30
/-- VBASE of the vector address (R91). -/
def vaBase (t : Stitch) : Nat := immBf t 17 4
/-- LSEL of the vector address: 0 none, k + 1 counter Lk (R91). -/
def vaSel (t : Stitch) : Nat := immBf t 19 18
/-- Number of vectors, NVM1 + 1 (R91). -/
def vaCount (t : Stitch) : Nat := immBf t 3 0 + 1

/-- Whether each listed field is zero where the stitch does not use it (R89): FMT_A, FMT_B, DST, SRC_A, SRC_B. -/
def unusedZero (t : Stitch) (fa fb dst sa sb : Bool) : Bool :=
  (fa || t.fa == 0) && (fb || t.fb == 0) && (dst || t.dst == 0) && (sa || t.sa == 0) && (sb || t.sb == 0)

/-- The register pair rule (R89). -/
def pairOk (t : Stitch) : Bool := t.dst % 2 == 0 && decide (t.dst ≤ 62)

/-- The checks of one stitch on its own, each a cause of R110 with whether it is met; `i` is its index. -/
def stitchChecks (inFmt i : Nat) (t : Stitch) : List (Nat × Bool) :=
  let sel := immSel t
  let fmtIn := fun (l : List Nat) (f : Nat) => l.contains f
  let zeroBits := fun (hi lo : Nat) => immBf t hi lo == 0
  match t.op with
  | 0x00 | 0x01 => [(4, unusedZero t false false false false false && t.imm == 0)]
  | 0x02 => [(4, unusedZero t false false false false false && zeroBits 15 12), (0xC, sel != 3 && immBf t 11 0 != 0)]
  | 0x03 =>
    [(3, if sel = 1 then fmtIn [0, 6] t.fa else fmtIn [0, 6, 11] t.fa),
     (4, unusedZero t true false true false false && zeroBits 29 20),
     (0xC, (sel == 1 || sel == 2) && immBf t 3 0 == 0)]
  | 0x04 =>
    [(3, fmtIn [0, 6, 11] t.fa), (4, unusedZero t true false false true false && zeroBits 29 20),
     (0xC, sel == 2 && immBf t 3 0 == 0)]
  | 0x05 =>
    [(3, t.fa == 11), (4, unusedZero t true false true false false && zeroBits 31 21), (0xC, immBf t 3 0 == 0)]
  | 0x08 =>
    [(3, decide (t.fa ≤ 7)), (4, unusedZero t true false true false false && zeroBits 31 20), (0xA, t.fa == inFmt),
     (0xC, immBf t 3 0 == 0)]
  | 0x09 =>
    if sel = 1 then [(4, unusedZero t false false false false false && zeroBits 29 20)]
    else if sel = 3 then
      [(3, decide (t.fa ≤ 7) || t.fa == 11), (4, unusedZero t true false false true false && zeroBits 29 0)]
    else [(3, decide (t.fa ≤ 11)), (4, unusedZero t true false false true false && zeroBits 29 20), (0xC, false)]
  | 0x0A =>
    [(3, (decide (1 ≤ t.fa ∧ t.fa ≤ 5) && t.fb == 0) || (t.fa == 7 && t.fb == 6)),
     (4, unusedZero t true true true true false && t.imm == 0)]
  | 0x0B =>
    [(3, t.fa == 0 && (decide (1 ≤ t.fb ∧ t.fb ≤ 5) || t.fb == 10)),
     (4, unusedZero t true true true true false && zeroBits 30 20), (0xC, immBf t 3 0 == 0)]
  | 0x10 =>
    if sel = 0 then
      [(3, decide (t.fa ≤ 10)), (4, unusedZero t true false false false false && zeroBits 29 20), (0xA, t.fa == inFmt)]
    else if sel = 1 then
      [(3, fmtIn [0, 6] t.fa), (4, unusedZero t true false false true false && zeroBits 29 20), (0xC, immBf t 3 0 == 0)]
    else if sel = 2 then
      [(3, fmtIn [0, 6] t.fa && t.fa == t.fb), (4, zeroBits 29 0)]
    else [(3, decide (t.fa ≤ 11) && decide (t.fb ≤ 11)), (4, zeroBits 29 20), (0xC, false)]
  | 0x11 =>
    if sel = 2 then
      [(3, fmtIn [0, 1, 2, 6] t.fa && fmtIn [1, 2] t.fb), (4, t.sb == 0 && zeroBits 29 16)]
    else [(3, fmtIn [0, 1, 2, 6] t.fa && fmtIn [0, 1, 2] t.fb), (4, zeroBits 29 0), (0xC, sel != 3)]
  | 0x18 =>
    [(3, t.fb == 11 && (if sel = 0 then decide (t.fa ≤ 7) || t.fa == 10
        else if sel = 1 then fmtIn [0, 6] t.fa else fmtIn [0, 6, 11] t.fa)),
     (4, t.sa == 0 && zeroBits 29 0), (0xA, sel != 0 || t.fa == inFmt), (0xC, sel != 3)]
  | 0x19 =>
    [(3, fmtIn [0, 6, 11] t.fa && t.fb == 11), (4, zeroBits 31 2), (5, pairOk t),
     (0xC, !(immBf t 1 1 == 1 && t.fa != 0))]
  | 0x1A =>
    [(3, fmtIn [0, 6] t.fa && t.fb == 11), (4, zeroBits 31 10), (5, pairOk t),
     (0xC, decide (1 ≤ immBf t 8 0 ∧ immBf t 8 0 ≤ 256) && !(immBf t 9 9 == 1 && t.fa != 0))]
  | 0x1B =>
    [(3, t.fa == 0 && t.fb == 11), (4, zeroBits 31 17), (5, pairOk t),
     (0xC, decide (immBf t 15 0 < 0x7F80) || immBf t 15 0 == 0x8000)]
  | 0x20 =>
    if immBf t 1 0 = 0 then [(4, unusedZero t false false false false false && zeroBits 31 2)]
    else
      [(3, t.fa == 11 || (t.fa == 0 && immBf t 1 0 != 1)), (4, unusedZero t true false false true false && zeroBits 31 2), (0xC, immBf t 1 0 == 1)]
  | 0x21 =>
    [(4, unusedZero t false false false false false && zeroBits 29 13), (0xC, decide (immBf t 12 0 ≤ 4096))]
  | 0x22 => [(4, unusedZero t false false false false false && zeroBits 31 4)]
  | 0x23 =>
    [(4, unusedZero t false false false false false && zeroBits 29 24 && zeroBits 15 8),
     (6, decide (immBf t 7 0 ≤ i)), (0xC, sel != 3 && immBf t 7 0 != 0)]
  | _ => [(2, false)]

/-- The lowest cause a stitch breaks on its own, 0 when none (R110, step 3). -/
def stitchCause (inFmt i : Nat) (t : Stitch) : Nat :=
  (stitchChecks inFmt i t).foldl (fun acc c => if c.2 then acc else if acc = 0 then c.1 else min acc c.1) 0

/-- A page as its 256 stitches. -/
def pageStitches (words : Tab Dword) : List Stitch :=
  (List.range 256).map (fun i => stitchOf (match words.lookup i with
    | some w => w
    | none => 0))

/-- The loops of a page: target, BRANCH index, counter (R100). -/
def pageLoops (l : List Stitch) : List (Nat × Nat × Nat) :=
  (l.zipIdx).filterMap (fun p => if p.1.op = 0x23 then some (p.2 - immBf p.1 7 0, p.2, immSel p.1) else none)

/-- Two loops offend: they overlap without nesting, or nest on one counter (R101). -/
def loopsClash (x y : Nat × Nat × Nat) : Bool :=
  let (a, b, k) := x
  let (c, d, m) := y
  let apart := decide (b < c ∨ d < a)
  let nested := decide ((a ≤ c ∧ d ≤ b) ∨ (c ≤ a ∧ b ≤ d))
  x != y && !(apart || (nested && k != m))

/-- The lowest BRANCH among the offending loops (R110, step 4). -/
def loopError (l : List Stitch) : Option Nat :=
  let ls := pageLoops l
  (ls.find? (fun x => ls.any (fun y => loopsClash x y))).map (fun x => x.2.1)

/-- Whether every path from an entry reaches an END: one lies at or after it (R110, step 5). -/
def reachesEnd (l : List Stitch) (entry : Nat) : Bool := (l.drop entry).any (fun t => t.op == 0x01)

/-- Where control goes after a stitch, with the trip counts; none after END (R100).  Loop values do not matter here. -/
def nextPc (t : Stitch) (pc : Nat) (trips : List Nat) : Option (Nat × List Nat) :=
  if t.op = 0x01 then none
  else if t.op = 0x02 then some (pc + 1, trips.set (immSel t) (immBf t 11 0))
  else if t.op = 0x23 then
    let k := trips.getD (immSel t) 0
    if k = 0 then some (pc + 1, trips)
    else if k = 1 then some (pc + 1, trips.set (immSel t) 0)
    else some (pc - immBf t 7 0, trips.set (immSel t) (k - 1))
  else some (pc + 1, trips)

/-- Whether an invocation executes its END within `fuel` stitches (R101): control depends on the immediate trip counts
alone, so the count of this run is the worst case. -/
def endsWithin (l : List Stitch) : Nat → Nat → List Nat → Bool
  | 0, _, _ => false
  | fuel + 1, pc, trips =>
    match l[pc]? with
    | none => false
    | some t =>
      match nextPc t pc trips with
      | none => true
      | some (pc, trips) => endsWithin l fuel pc trips

/-- The checker's answer on a page and its configuration after its CRC has matched: cause and index (R110, steps 3 to 6). -/
def checkPage (words : Tab Dword) (cfg : Word) : Nat × Nat :=
  let l := pageStitches words
  let inFmt := bf cfg 19 16
  let arrive := bf cfg 7 0
  let done := bf cfg 15 8
  match (l.zipIdx).find? (fun p => stitchCause inFmt p.2 p.1 != 0) with
  | some p => (stitchCause inFmt p.2 p.1, p.2)
  | none =>
    match loopError l with
    | some i => (7, i)
    | none =>
      if !reachesEnd l arrive || !reachesEnd l done then (9, 255)
      else if !endsWithin l 65536 arrive [0, 0, 0] then (8, arrive)
      else if !endsWithin l 65536 done [0, 0, 0] then (8, done)
      else (0, 0)

/-- The bytes of a page as stored, low word first, followed by SBCFG, for its CRC (R88, R109). -/
def pageBytes (words : Tab Dword) (cfg : Word) : List Byte :=
  (List.range 256).flatMap (fun i => leBytes 8 (tabGet 0 words i).toNat) ++ wordBytes cfg

end Sys2Proof.Machine
end

