-- ==== Sys2Proof/Machine/Trace.lean ====
section
/-! DEFINITION. Chalk filters, trace records and observation areas (16_observation_and_selftest). -/

namespace Sys2Proof.Machine

/-- Bytes in a MiB. -/
abbrev mib : Nat := 0x100000

/-- A panel's observation area: device address and size in bytes, none where it has none or its quota does not cover it (R457). -/
def obsArea (s : State) (p : Nat) : Option (Nat × Nat) :=
  let w := regGet s .DBG_PNL_OBS p
  let (b, l) := quotaOf s p
  let off := bf w 31 16 * mib
  let n := bf w 15 0 * mib
  if n = 0 ∨ l < off + n ∨ 16 ≤ p then none else some (b + off, n)

/-- Counters of an observation area. -/
def areaGet (s : State) (p : Nat) : PnlObs := tabGet ⟨0, 0, 0, 0⟩ s.obs.areas p
/-- Sets them. -/
def areaSet (s : State) (p : Nat) (x : PnlObs) : State := { s with obs := { s.obs with areas := tabSet ⟨0, 0, 0, 0⟩ s.obs.areas p x } }

/-- Filter `f` matches a chunk's panel and chalk (R452). -/
def filterHits (s : State) (panel : Nat) (chalk : Word) (f : Nat) : Bool :=
  regBf s .DBG_FILT_CTRL f 3 0 == panel && (chalk &&& regGet s .DBG_FILT_MASK f) == (regGet s .DBG_FILT_KEY f &&& regGet s .DBG_FILT_MASK f)

/-- The filters with a bit of DBG_FILT_CTRL set. -/
def filtersWith (s : State) (b : Nat) : List Nat := (regKeys s .DBG_FILT_CTRL).filter (fun f => regBit s .DBG_FILT_CTRL f b)

/-- Adds to count `k` of every matching filter with COUNT_EN (R452): 0 chunks, 1 elements, 2 NACKs, 3 aborts. -/
def filterCount (s : State) (panel : Nat) (chalk : Word) (k n : Nat) : State :=
  (filtersWith s 31).foldl (fun s f => if filterHits s panel chalk f then ctrAdd s .DBG_FILT_CNT (4 * f + k) n else s) s

/-- A record's 32 bytes (R454). -/
def traceBytes (r : TraceRec) : List Byte :=
  [BitVec.ofNat 8 r.typ, BitVec.ofNat 8 (r.panel % 16), BitVec.ofNat 8 r.unit, BitVec.ofNat 8 (r.stage % 4)] ++ wordBytes r.chalk ++
  leBytes 8 r.time.toNat ++ wordBytes r.coll ++ wordBytes r.epoch ++ wordBytes r.chunk ++ wordBytes r.arg

/-- Slots of the device ring (R456). -/
abbrev devRingSlots : Nat := 201326592

/-- A record is written to the device ring, and except a saturation record to its panel's ring (R453, R456, R457, R461). -/
def traceWrite (s : State) (r : TraceRec) : State :=
  let n := (ctrGet s .DBG_DEV_RING_HEAD 0).toNat
  let s := hbmWrite s (traceBase + 32 * (n % devRingSlots)) (traceBytes r)
  let s := ctrInc (ctrInc s .DBG_DEV_RING_HEAD 0) .DBG_CNT_TRACE_REC 0
  if r.typ = 8 then s
  else match obsArea s r.panel with
  | none => s
  | some (a, l) =>
    let x := areaGet s r.panel
    let nrec := (l - 148 * 1024) / 32
    areaSet (hbmWrite s (a + 148 * 1024 + 32 * (x.head.toNat % nrec)) (traceBytes r)) r.panel { x with head := x.head + 1 }

/-- The domain of a unit that writes trace records, where it has one (R28, R266). -/
def unitDom (u : Nat) : Option Nat :=
  if u < 32 then some (engDom u)
  else match u with
  | 0x20 | 0x21 | 0x22 => some 11
  | 0x23 | 0x25 => some 18
  | 0x24 => some 17
  | 0x26 => some 1
  | 0x27 => some 2
  | _ => none

/-- A unit's trace FIFO. -/
def fifoGet (s : State) (u : Nat) : TraceFifo := tabGet ⟨[], 0⟩ s.obs.fifos u
/-- Sets it. -/
def fifoSet (s : State) (u : Nat) (x : TraceFifo) : State := { s with obs := { s.obs with fifos := tabSet ⟨[], 0⟩ s.obs.fifos u x } }

/-- The oldest record of a unit's FIFO is written out (R453). -/
def traceDrain (s : State) (u : Nat) : State :=
  match (fifoGet s u).recs with
  | [] => s
  | r :: t => traceWrite (fifoSet s u { fifoGet s u with recs := t }) r

/-- A record joins its unit's FIFO; when it is full the record is dropped and counted, or with LOSSLESS the unit waits until a
place frees, which happens here at once (R453, R459). -/
def tracePush (s : State) (r : TraceRec) : State :=
  let u := r.unit
  let s := if 64 ≤ (fifoGet s u).recs.length ∧ regBit s .DBG_TRACE_CFG 0 1 then traceDrain s u else s
  let x := fifoGet s u
  if 64 < x.recs.length + 1 + b2n (x.lost != 0) then
    let s := fifoSet s u { x with lost := x.lost + 1 }
    let s := areaSet s r.panel { areaGet s r.panel with lost := (areaGet s r.panel).lost + 1 }
    raiseEv (ctrInc s .DBG_CNT_TRACE_LOST 0) .DBG_EVENT 0 0
  else
    let lost : List TraceRec :=
      if x.lost = 0 then [] else [{ r with typ := 9, arg := BitVec.ofNat 32 (min x.lost (pow2 32 - 1)) }]
    fifoSet s u { recs := x.recs ++ lost ++ [r], lost := 0 }

/-- A record of a chunk matched by a filter with TRACE_EN, while tracing is enabled (R453, R455). -/
def traceChunk (s : State) (unit typ panel stage : Nat) (chalk coll : Word) (epoch chunk arg : Nat) : State :=
  if regBit s .DBG_TRACE_CFG 0 0 && (filtersWith s 30).any (filterHits s panel chalk) then
    tracePush s { typ := typ, panel := panel, unit := unit, stage := stage, chalk := chalk, time := traceTime s, coll := coll,
                  epoch := BitVec.ofNat 32 epoch, chunk := BitVec.ofNat 32 chunk, arg := BitVec.ofNat 32 arg }
  else s

/-- The 4 KiB header of an observation area (R457). -/
def areaHeader (s : State) (p size : Nat) (x : PnlObs) : List Byte :=
  leBytes 4 0x50535441 ++ leBytes 4 (size / mib) ++ leBytes 8 x.head.toNat ++ leBytes 8 x.lost.toNat ++
  leBytes 4 ((size - 148 * 1024) / 32) ++ wordBytes x.swNext ++
  (List.range 5).flatMap (fun i => leBytes 8 (ctrGet s .DBG_PNL_FLAG (5 * p + i)).toNat) ++ leBytes 8 x.pseq.toNat ++ List.replicate 4016 0

/-- The filter table of an observation area, each entry its first 40 bytes (R457). -/
def areaFilter (s : State) (p f : Nat) : List Byte :=
  if regBf s .DBG_FILT_CTRL f 3 0 = p then
    leBytes 8 f ++ (List.range 4).flatMap (fun k => leBytes 8 (ctrGet s .DBG_FILT_CNT (4 * f + k)).toNat)
  else List.replicate 40 0

end Sys2Proof.Machine
end

