-- ==== Sys2Proof/Machine/SeamBase.lean ====
section
/-! DEFINITION. What the Seam engines and the Coordinator share: contexts, stage slots, bolts, scratchpad room, open
collectives, rank maps (03_stitch_programs, 04_collective_protocol). -/

namespace Sys2Proof.Machine

/-! ### Engines, contexts, slots -/

/-- An engine in service with nothing recorded. -/
def engReset : Engine := ⟨.normal, [], [], [], [], none, [], [], 0⟩
/-- An engine. -/
def engGet (s : State) (e : Nat) : Engine := tabGet engReset s.seam.engines e
/-- Sets an engine. -/
def engSet (s : State) (e : Nat) (x : Engine) : State :=
  { s with seam := { s.seam with engines := tabSet engReset s.seam.engines e x } }

/-- A context with nothing in it. -/
def ctxReset : Ctx := ⟨[], false, 0, 0, 0, 0, 0⟩
/-- Context `k`, 16 × engine + context. -/
def ctxGet (s : State) (k : Nat) : Ctx := tabGet ctxReset s.seam.ctxs k
/-- Sets a context. -/
def ctxSet (s : State) (k : Nat) (x : Ctx) : State := { s with seam := { s.seam with ctxs := tabSet ctxReset s.seam.ctxs k x } }

/-- A stage slot with no program. -/
def slotReset : StageSlot := ⟨⟨[], 0, 0⟩, none, 0, 0, false, false, none⟩
/-- Stage slot `i`, 8 × engine + slot. -/
def slotGet (s : State) (i : Nat) : StageSlot := tabGet slotReset s.seam.slots i
/-- Sets a stage slot. -/
def slotSet (s : State) (i : Nat) (x : StageSlot) : State := { s with seam := { s.seam with slots := tabSet slotReset s.seam.slots i x } }

/-- The stage slot a context is bound to (R117). -/
def ctxSlot (s : State) (k : Nat) : Nat := 8 * (k / 16) + regBf s .SEAM_CTX_BIND k 26 24
/-- Granules of a context's scratch area (R117). -/
def ctxSpa (s : State) (k : Nat) : Nat := regBf s .SEAM_CTX_BIND k 10 0
/-- A context is bound. -/
def ctxBound (s : State) (k : Nat) : Bool := regBit s .SEAM_CTX_BIND k 31
/-- The next stage of a context, where it has one (R86). -/
def ctxNext (s : State) (k : Nat) : Option Nat :=
  if regBit s .SEAM_CTX_BIND k 23 then some (16 * regBf s .SEAM_CTX_BIND k 22 18 + regBf s .SEAM_CTX_BIND k 17 14) else none

/-- The page that chunks of a generation run on (R111). -/
def slotPage (s : State) (i gen : Nat) : Page :=
  let x := slotGet s i
  if x.active.gen = gen then x.active else x.prev.getD x.active

/-- The setting the next chunk of a context runs under: a held write applies at that boundary (R71, R204). -/
def nextSetting (s : State) (r : Rid) (k : Nat) : Word := rwsBase s r k

/-! ### Bolts (R83, R84, R146, R265) -/

/-- A bolt. -/
def boltGet (s : State) (b : Nat) : Option Bolt := tabGet none s.seam.bolts b
/-- Sets a bolt. -/
def boltSet (s : State) (b : Nat) (x : Option Bolt) : State := { s with seam := { s.seam with bolts := tabSet none s.seam.bolts b x } }

/-- The bolts in use. -/
def bolts (s : State) : List (Nat × Bolt) :=
  s.seam.bolts.filterMap (fun e => e.2.map (fun b => (e.1, b)))

/-- The bolts that satisfy a predicate. -/
def boltsWhere (s : State) (p : Bolt → Bool) : List (Nat × Bolt) := (bolts s).filter (fun e => p e.2)

/-- A bolt belongs to a collective. -/
def Bolt.ofColl (b : Bolt) (panel : Nat) (coll : Word) : Bool := b.panel == panel && b.coll == coll

/-- The bolt of a chunk at a stage. -/
def chunkBolt (s : State) (panel : Nat) (coll : Word) (stage epoch chunk : Nat) : Option (Nat × Bolt) :=
  (bolts s).find? (fun e => e.2.ofColl panel coll && e.2.stage == stage && e.2.epoch == epoch && e.2.chunk == chunk)

/-- Granules of an accumulator area (R83). -/
def accGranules (mode elems : Nat) : Nat := (elems * (if mode = 0 then 40 else 4) + 4095) / 4096

/-- Payload bytes of a message received so far; of one that came as a stream from inside the gateway, the bytes its values and indices take. -/
def msgBytes (m : Msg) : Nat :=
  if m.frags.isEmpty then valueBytes m.data.fmt m.elems + 4 * m.data.idx.length else (m.frags.map (fun f => f.payload.length)).sum

/-- Every predecessor of an index has been counted (R82). -/
def inTurn (b : Bolt) (i : Nat) : Bool := (b.want.filter (fun j => decide (j < i))).all (fun j => b.counted.contains j)

/-- Granules of the parked contributions of an ORDERED chunk: those that came before a predecessor had been counted, each until its invocation
ends and its message leaves the bolt (R82, R83). -/
def parkedGranules (b : Bolt) : Nat := (b.msgs.map (fun m => if m.parked then (msgBytes m + 4095) / 4096 else 0)).sum

/-- Granules a bolt holds; a reservation holds an EXACT chunk's, since its mode is not yet fixed (R42, R142). -/
def boltGranules (b : Bolt) : Nat :=
  accGranules (if b.state = .reserved then 0 else b.mode) b.elems + parkedGranules b

/-- Free granules of an engine (R77, R83).  A contribution that has to be parked where too few are left is accepted all the same, and no granule is
free then (log 83). -/
def freeGranules (s : State) (e : Nat) : Nat :=
  let areas := ((List.range 16).map (fun c => if ctxBound s (16 * e + c) then ctxSpa s (16 * e + c) else 0)).sum
  let held := ((boltsWhere s (fun b => b.ctx / 16 == e)).map (fun p => boltGranules p.2)).sum
  1536 - areas - held

/-- Open-chunk entries of an engine in use (R77). -/
def openChunks (s : State) (e : Nat) : Nat := (boltsWhere s (fun b => b.ctx / 16 == e)).length

/-- Bolts of a context. -/
def ctxBolts (s : State) (k : Nat) : List (Nat × Bolt) := boltsWhere s (fun b => b.ctx == k)

/-- Contexts of a panel in use: those that hold a bolt (R31). -/
def panelContexts (s : State) (p : Nat) : List Nat := dedup ((boltsWhere s (fun b => b.panel == p)).map (fun e => e.2.ctx))

/-- The unit that owns a bolt: the Coordinator while it is RESERVED, its engine afterwards (R146). -/
def boltOwner (b : Bolt) : Nat := if b.state = .reserved then 0x22 else b.ctx / 16

/-- No chunk of a context is open. -/
def ctxIdle (s : State) (k : Nat) : Bool := (ctxBolts s k).all (fun p => p.2.state == .reserved)

/-- The settings held for a context take effect once no chunk of it is open (R71, R399). -/
def ctxBoundary (s : State) (k : Nat) : State :=
  if !ctxIdle s k then s
  else [Rid.SEAM_CTX_ARITH, .PLT_CTX_CB].foldl (fun s r => applyHeld s r k (fun s v => regSet s r k v)) s

/-- A free of a bolt by a unit: by any other than its owner a pointer fault 0x05, and the bolt stays (R146, R265). -/
def boltFree (s : State) (unit b : Nat) : State :=
  match boltGet s b with
  | none => s
  | some x => if boltOwner x = unit then ctxBoundary (boltSet s b none) x.ctx else pointerFault s unit (BitVec.ofNat 32 b) 0 5

/-! ### Invocations and messages -/

/-- The invocation running in a stage slot. -/
def runOf (s : State) (i : Nat) : Option Inv := (slotGet s i).run

/-- Sets the invocation running in a stage slot. -/
def runSet (s : State) (i : Nat) (x : Option Inv) : State := slotSet s i { slotGet s i with run := x }

/-- A bolt has an invocation running. -/
def boltRunning (s : State) (b : Nat) : Bool := s.seam.slots.any (fun e => match e.2.run with
  | some x => x.bolt == b
  | none => false)

/-- A vector register: N = 0 and nothing in it at the start of an invocation (R78, R80). -/
def invReg (x : Inv) (r : Nat) : VReg := tabGet ⟨[], []⟩ x.v r

/-- Writes a vector register. -/
def invSetReg (x : Inv) (r : Nat) (v : VReg) : Inv := { x with v := tabSet ⟨[], []⟩ x.v r v }

/-- Changes the message of a contributor index at a bolt. -/
def msgMod (s : State) (b i : Nat) (f : Msg → Msg) : State :=
  match boltGet s b with
  | none => s
  | some x => boltSet s b (some { x with msgs := x.msgs.map (fun m => if m.index = i then f m else m) })

/-- The part of the Pleat arrays that waits for a bobbin for a contribution's decoded values. -/
def decSub (b i : Nat) : Nat := b * 2048 + i

/-- What a message holds is returned: the bobbins, cells and charges of its frames, its blocks with the decoders and their bobbin. -/
def msgFree (s : State) (b : Nat) (m : Msg) : State :=
  let s := m.handles.foldl (fun s h => bobFree s 0x22 h) (cellsFree s m.cells)
  let s := match m.dbob with
    | some h => bobFree s 0x24 h
    | none => s
  let s := { s with plt := { s.plt with dec := s.plt.dec.filter (fun d => !(d.bolt == b && d.index == m.index)) },
                    bob := { s.bob with waits := s.bob.waits.filter (fun w => !(w.unit == 0x24 && w.sub == decSub b m.index)) } }
  if m.charges.isEmpty then s
  else m.charges.foldl (fun s q => pfcCheck s (q.1 / 8) (q.1 % 8)) (msgMod s b m.index (fun m => { m with charges := [] }))

/-- A stream is discarded, or leaves its bobbin: its cells and the bobbin are returned (R255, R258). -/
def streamFree (s : State) (unit : Nat) (h : Option Word) (o : Stream) : State :=
  let s := cellsFree s (cellsOf (streamBytes o))
  match h with
  | some h => bobFree s unit h
  | none => s

/-- A Pleat contribution's blocks are copied into the bobbin of the decoded values, 1,024 B a block: what brought it is released (R207, R255). -/
def decodeCopy (s : State) (b i : Nat) : State :=
  match (boltGet s b).bind (fun x => x.msgs.find? (fun m => m.index == i)) with
  | none => s
  | some m =>
    let s := m.handles.foldl (fun s h => bobFree s 0x24 h) (cellsMove s m.cells (4 * m.decode))
    msgMod s b i (fun m => { m with handles := [], cells := 4 * m.decode })

/-- The message of a contributor index leaves its bolt. -/
def msgDrop (s : State) (b i : Nat) : State :=
  match boltGet s b with
  | none => s
  | some x =>
    let s := (x.msgs.filter (fun m => m.index == i)).foldl (fun s m => msgFree s b m) s
    boltSet s b (some { x with msgs := x.msgs.filter (fun m => m.index != i) })

/-- The page before the last commit is let go when no open chunk refers to it (R111). -/
def pageRelease (s : State) (i : Nat) : State :=
  let x := slotGet s i
  match x.prev with
  | none => s
  | some p =>
    if (bolts s).any (fun e => ctxSlot s e.2.ctx == i && e.2.state != .reserved && e.2.gen == p.gen) then s
    else slotSet s i { x with prev := none }

/-- The codebook slot's REF count: contexts that name it, and chunks open on those contexts (R203). -/
def codebookRef (s : State) (cb : Nat) : Nat :=
  let names := fun (w : Word) => bit w 31 && bf w 7 0 == cb
  ((regKeys s .PLT_CTX_CB).filter (fun k => names (regGet s .PLT_CTX_CB k))).length +
  (boltsWhere s (fun b => b.state != .reserved && names b.cb)).length

/-! ### Collectives -/

/-- The open collective of a panel with an ID. -/
def collFind (s : State) (p : Nat) (id : Word) : Option Coll := s.cco.colls.find? (fun c => c.panel == p && c.id == id)

/-- Changes a collective. -/
def collMod (s : State) (p : Nat) (id : Word) (f : Coll → Coll) : State :=
  { s with cco := { s.cco with colls := s.cco.colls.map (fun c => if c.panel == p && c.id == id then f c else c) } }

/-- An open epoch. -/
def epochFind (c : Coll) (e : Nat) : Option Epoch := c.epochs.find? (fun x => x.num == e)

/-- Changes an open epoch. -/
def epochMod (s : State) (p : Nat) (id : Word) (e : Nat) (f : Epoch → Epoch) : State :=
  collMod s p id (fun c => { c with epochs := c.epochs.map (fun x => if x.num == e then f x else x) })

/-- The number of the lowest open epoch, or of the next one. -/
def lowestEpoch (c : Coll) : Nat := match c.epochs with
  | x :: _ => x.num
  | [] => c.nextEpoch

/-- Elements of a chunk; in the bucket's last chunk the first CONTRIB gives the remainder (R126). -/
def chunkCount (c : Coll) (chunk elems : Nat) : Bool :=
  if chunk + 1 = c.bucketChunks then decide (1 ≤ elems ∧ elems ≤ c.chunkElems) else elems == c.chunkElems

/-- The gateway is the site root of a collective (R163). -/
def isRoot (c : Coll) : Bool := 4 ≤ c.role

/-- Stages of a collective that its CTX entries name. -/
def hasStage (c : Coll) (st : Nat) : Bool := c.ctx.any (fun x => x.1 == st)

/-- The stage of a collective that a context runs. -/
def stageOf (c : Coll) (k : Nat) : Option Nat := (c.ctx.find? (fun x => x.2 == k)).map Prod.fst

/-! ### Rank map (R148-R150) -/

/-- Entry `i` of a rank map as it stands in HBM (R148). -/
def rmapEntry (s : State) (c : Coll) (i : Nat) : RmapEnt :=
  let b := hbmBytes s (c.rmapAddr + 32 * i) 32
  { rank := leField b 0 3, kind := leField b 3 1 % 4, stage := leField b 3 1 / 64, ip := beNat (slice b 4 16), port := leField b 20 2,
    group := leField b 22 1 % 64, drec := leField b 24 2 }

/-- Contributor indices of a stage: the entries that are no spares (R134). -/
def stageIndices (s : State) (c : Coll) (st : Nat) : List Nat :=
  (List.range c.nrmap).filter (fun i => (rmapEntry s c i).kind != 3 && (rmapEntry s c i).stage == st)

/-- An index's entry under a set of stand-ins: address, port and delivery are the spare's (R150). -/
def rmapWith (s : State) (c : Coll) (subs : List (Nat × Nat)) (i : Nat) : RmapEnt :=
  let e := rmapEntry s c i
  match subs.lookup i with
  | some j => let x := rmapEntry s c j; { e with ip := x.ip, port := x.port, drec := x.drec }
  | none => e

/-- The stand-ins an epoch runs under: those it opened with, or those in force for one not yet open (R150). -/
def epochSubs (c : Coll) (e : Nat) : List (Nat × Nat) := match epochFind c e with
  | some x => x.subs
  | none => c.subs

/-- Contributions a stage expects for a chunk (R134). -/
def stageNeed (s : State) (c : Coll) (st : Nat) : Nat := (stageIndices s c st).length

/-- The contributor index of a Level 3 entry is its site's (R165); of any other entry its place in the map (R148). -/
def indexOf (s : State) (c : Coll) (st i : Nat) : Nat := if st = 2 then (rmapEntry s c i).rank else i

/-- The contributors of a stage as index and entry, under an epoch's stand-ins. -/
def contributors (s : State) (c : Coll) (st e : Nat) : List (Nat × RmapEnt) :=
  (stageIndices s c st).map (fun i => (indexOf s c st i, rmapWith s c (epochSubs c e) i))

/-- The index of the gateway's own lower stage at a stage, KIND 10b (R148). -/
def ownIndex (s : State) (c : Coll) (st : Nat) : Option Nat :=
  ((stageIndices s c st).find? (fun i => (rmapEntry s c i).kind == 2)).map (indexOf s c st)

/-- Endpoints of a collective under an epoch's stand-ins: Level 1 entries of KIND 00b. -/
def endpoints (s : State) (c : Coll) (e : Nat) : List RmapEnt :=
  ((contributors s c 0 e).map Prod.snd).filter (fun x => x.kind == 0)

/-- Spares of Level 1 that stand in for nobody under an epoch's stand-ins: an abort and a RESUME reach them as well (R149, R152, R160). -/
def idleSpares (s : State) (c : Coll) (e : Nat) : List RmapEnt :=
  ((List.range c.nrmap).filter (fun i => (rmapEntry s c i).kind == 3 && (rmapEntry s c i).stage == 0 && !((epochSubs c e).any (fun q => q.2 == i)))).map
    (rmapEntry s c)

/-- Child gateways of a collective: Level 2 entries of KIND 01b. -/
def childGateways (s : State) (c : Coll) (e : Nat) : List RmapEnt :=
  ((contributors s c 1 e).map Prod.snd).filter (fun x => x.kind == 1)

/-- Delivery record indices that an epoch's results go to: those of the endpoints, under the epoch's stand-ins (R157). -/
def deliveries (s : State) (c : Coll) (e : Nat) : List Nat :=
  dedup (((endpoints s c e).map (fun x => x.drec)).filter (fun d => decide (d < c.ndrec)))

/-! ### Remnant region (R175-R177) -/

/-- The span's Remnant region exists: a narrowing format other than FP32 and INT32 (R169, R171). -/
def remRegion (c : Coll) : Option SpanCfg :=
  match c.span with
  | some p => if p.fmt = 0 ∨ p.fmt = 6 then none else some p
  | none => none

/-- Bytes of a residual. -/
def resBytes (p : SpanCfg) : Nat := if p.resFp32 then 4 else 2

/-- The bank stride (R175). -/
def bankStride (c : Coll) (p : SpanCfg) : Nat := (c.bucketChunks * c.chunkElems * resBytes p + 4095) / 4096 * 4096

/-- Bytes of the whole region (R182). -/
def remSize (c : Coll) (p : SpanCfg) : Nat := 4096 + p.banks * bankStride c p

/-- The address of a residual (R175). -/
def remAddrOf (c : Coll) (p : SpanCfg) (bank chunk elem : Nat) : Nat :=
  p.remAddr + 4096 + bank * bankStride c p + (chunk * c.chunkElems + elem) * resBytes p

/-- Banks an epoch reads and writes (R177); a barrier has none and is not counted among the open epochs (R141; log 44). -/
def remBanks (c : Coll) (p : SpanCfg) (e : Nat) : Nat × Nat :=
  let first := ((c.epochs.find? (fun x => !x.barrier)).map (fun x => x.num)).getD c.nextEpoch
  if p.banks = 2 then (c.bank, 1 - c.bank)
  else if e = first then (c.bank, (c.bank + 1) % 3)
  else ((c.bank + 1) % 3, (c.bank + 2) % 3)

/-- A chunk none of whose CONTRIBs is held or counted any longer is as it was before its first: its bolt is RESERVED again, and the next CONTRIB
sets format, mode and count (R42, R105, R129, R146; log 66). -/
def boltUnopen (s : State) (k : Nat) : State :=
  match boltGet s k with
  | none => s
  | some b =>
    if b.state ≠ .open ∨ !b.msgs.isEmpty ∨ !b.counted.isEmpty then s
    else
      let n := match collFind s b.panel b.coll with
        | some c => c.chunkElems
        | none => b.elems
      pageRelease (boltSet s k (some { b with
        state := .reserved, elems := n, fixed := false, mode := 0, fmt := 0, gen := 0, arith := 0, cb := 0, acc := [], flags := 0, firstUs := 0, rounds := 0, chalk := 0 }))
        (ctxSlot s b.ctx)

end Sys2Proof.Machine
end

