-- ==== Sys2Proof/Machine/LineWire.lean ====
section
/-! DEFINITION. The Selvedge line frame as bytes (R314-R316): overhead, time fields, scrambler. -/

namespace Sys2Proof.Machine

/-- The frame alignment signal (R315). -/
abbrev lineFas : Nat := 0x3C5A96E10F78C3A5

/-- A time in 2^-16 ns as 48-bit seconds, 32-bit nanoseconds and a 16-bit fraction, and back (R315). -/
def timeBytes (t : Nat) : List Byte := beBytes 6 (t / 65536 / 1000000000) ++ beBytes 4 (t / 65536 % 1000000000) ++ beBytes 2 (t % 65536)
/-- The time that 12 bytes spell. -/
def timeParse (b : List Byte) : Nat := (beNat (slice b 0 6) * 1000000000 + beNat (slice b 6 4)) * 65536 + beNat (slice b 10 2)

/-- The 1,536 bytes of an overhead, big-endian, reserved bytes zero (R315, R316). -/
def ohBytes (h : LineOh) : List Byte :=
  let z := fun (n : Nat) => List.replicate n (0 : Byte)
  beBytes 8 lineFas ++ [BitVec.ofNat 8 h.mfas, BitVec.ofNat 8 (h.fver % 16 * 16 + h.mode % 4 * 4)] ++ beBytes 2 h.gid ++ beBytes 4 h.mfc ++
  [BitVec.ofNat 8 (h.mid % 64), BitVec.ofNat 8 (h.mstate % 8)] ++ beBytes 8 h.txActive.toNat ++ beBytes 8 h.activeNext.toNat ++
  beBytes 8 h.rdi.toNat ++ beBytes 8 h.rxOk.toNat ++ [BitVec.ofNat 8 (b2n h.ctlch + 2 * b2n h.side), 0] ++
  beBytes 2 h.cmTxGen ++ beBytes 2 h.cmNextGen ++ beBytes 2 h.cmRxRdy ++ z 6 ++ timeBytes h.txTime ++ z 4 ++ timeBytes h.rxTime ++
  beBytes 4 h.echoMfc ++ [BitVec.ofNat 8 h.echoMfas] ++ z 31 ++
  (List.range 80).flatMap (fun j => beBytes 4 (h.slots.getD j 0).toNat) ++ (List.range 4).flatMap (fun j => beBytes 4 (h.tti.getD j 0).toNat) ++ z 1072

/-- The overhead that bytes spell; reserved bytes are ignored (R315, R316). -/
def ohParse (b : List Byte) : LineOh :=
  let f := fun (o n : Nat) => beNat (slice b o n)
  { mfas := f 8 1, fver := f 9 1 / 16, mode := f 9 1 / 4 % 4, gid := f 10 2, mfc := f 12 4, mid := f 16 1 % 64, mstate := f 17 1 % 8,
    txActive := BitVec.ofNat 64 (f 18 8), activeNext := BitVec.ofNat 64 (f 26 8), rdi := BitVec.ofNat 64 (f 34 8), rxOk := BitVec.ofNat 64 (f 42 8),
    ctlch := f 50 1 % 2 == 1, side := f 50 1 / 2 % 2 == 1, cmTxGen := f 52 2, cmNextGen := f 54 2, cmRxRdy := f 56 2,
    txTime := timeParse (slice b 64 12), rxTime := timeParse (slice b 80 12), echoMfc := f 92 4, echoMfas := f 96 1,
    tti := (List.range 4).map (fun j => BitVec.ofNat 32 (f (448 + 4 * j) 4)), slots := (List.range 80).map (fun j => BitVec.ofNat 32 (f (128 + 4 * j) 4)) }

/-! ### The scrambler (R314) -/

/-- One bit of the frame-synchronous scrambler x^16 + x^12 + x^3 + x + 1, stage 1 in bit 0: what it gives and its next stages (log 84). -/
def scramBit (r : Nat) : Nat × Nat :=
  let out := r / 32768 % 2
  (out, (r * 2 + (out + r / 2048 + r / 4 + r) % 2) % 65536)

/-- Eight bits, the most significant first, from an accumulator on. -/
def scramByte : Nat → Nat → Nat → Nat × Nat
  | 0, a, r => (a, r)
  | n + 1, a, r => let (b, r) := scramBit r; scramByte n (2 * a + b) r

/-- Bytes as the scrambler gives or takes them from stages `r` on. -/
def scramRun : Nat → List Byte → List Byte
  | _, [] => []
  | r, b :: t => let (k, r) := scramByte 8 0 r; (b ^^^ BitVec.ofNat 8 k) :: scramRun r t

/-- Bytes of a frame scrambled or descrambled: all after the FAS, from 0xFFFF on (R314). -/
def lineScramble (b : List Byte) : List Byte := b.take 8 ++ scramRun 0xFFFF (b.drop 8)

/-- A frame's 65,536 bytes: overhead, then slot j at byte 1,536 + 800j, scrambled (R314). -/
def lineFrameBytes (h : LineOh) (slots : List (List Byte)) : List Byte :=
  lineScramble (ohBytes h ++ (List.range 80).flatMap (fun j => slice (slots.getD j []) 0 800))

end Sys2Proof.Machine

namespace Sys2Proof

open Sys2Proof.Machine

/-- The FAS of a received frame is right (R315, R328). -/
def RxLineFrame.fasOk (f : RxLineFrame) : Bool := beNat (slice f.head 0 8) == lineFas

/-- The overhead of a received frame. -/
def RxLineFrame.oh (f : RxLineFrame) : LineOh := ohParse (lineScramble f.head)

/-- The slots of a received frame, each with its descriptor. -/
def RxLineFrame.slotsIn (f : RxLineFrame) : List SlotIn := (f.slots.zip f.oh.slots).map (fun t => ⟨t.2, t.1⟩)

end Sys2Proof
end

