-- ==== Sys2Proof/Machine/Line.lean ====
section
/-! DEFINITION. Line framers (10_line_framing): groups and members, connection memory, streams and idle cells, defects,
protection, frames sent and received. -/

namespace Sys2Proof.Machine

/-! ### Groups and channels -/

/-- A line channel. -/
def lineCh (s : State) (k : Nat) : LineCh := tabGet LineCh.reset s.line.chs k
/-- Sets a line channel. -/
def lineChSet (s : State) (k : Nat) (x : LineCh) : State := { s with line := { s.line with chs := tabSet LineCh.reset s.line.chs k x } }
/-- A line group. -/
def lineGrp (s : State) (g : Nat) : LineGrp := tabGet LineGrp.reset s.line.grps g
/-- Sets a line group. -/
def lineGrpSet (s : State) (g : Nat) (x : LineGrp) : State := { s with line := { s.line with grps := tabSet LineGrp.reset s.line.grps g x } }

/-- LINE_CH_CFG.EN. -/
def chEn (s : State) (k : Nat) : Bool := regBit s .LINE_CH_CFG k 31
/-- LINE_CH_CFG.LGRP. -/
def chGroup (s : State) (k : Nat) : Nat := regBf s .LINE_CH_CFG k 29 24
/-- LINE_CH_CFG.MID. -/
def chMid (s : State) (k : Nat) : Nat := regBf s .LINE_CH_CFG k 21 16
/-- LINE_GRP_CFG.MODE: concatenated (R336). -/
def grpConcat (s : State) (g : Nat) : Bool := regBit s .LINE_GRP_CFG g 30
/-- The enabled channels of a group, by ascending MID (R313). -/
def members (s : State) (g : Nat) : List Nat :=
  sortBy (chMid s) ((List.range 64).filter (fun k => chEn s k && chGroup s k == g))
/-- The channel of a member. -/
def memberCh (s : State) (g m : Nat) : Option Nat := (members s g).find? (fun k => chMid s k == m)

/-- A group event: LINE_GRP_EVENT and LINE_EVENT.GRP (R335). -/
def grpEvent (s : State) (g b : Nat) : State := raiseEv (raiseEv s .LINE_GRP_EVENT g b) .LINE_EVENT 0 1

/-- PROT_EN, PROT and WORK channels of a group (R330). -/
def protEn (s : State) (g : Nat) : Bool := regBit s .LINE_GRP_PROT g 31
/-- The WORK channel. -/
def workCh (s : State) (g : Nat) : Nat := regBf s .LINE_GRP_PROT g 5 0
/-- The PROT channel. -/
def protCh (s : State) (g : Nat) : Nat := regBf s .LINE_GRP_PROT g 13 8
/-- Slot 79 of a channel carries its group's control channel (R330). -/
def chCtl (s : State) (k : Nat) : Bool :=
  let g := chGroup s k
  chEn s k && (workCh s g == k || (protEn s g && protCh s g == k))
/-- The selected time channel of a group (R331). -/
def selCh (s : State) (g : Nat) : Option Nat :=
  match (lineGrp s g).sel with
  | 1 => some (workCh s g)
  | 2 => some (protCh s g)
  | _ => none

/-- Three times the frame period of a modulation in picoseconds: DP-16QAM, DP-8QAM, DP-QPSK (R314). -/
def framePs3 : Nat → Nat
  | 0 => 3932160
  | 1 => 5242880
  | _ => 7864320

/-- The modulation of a channel: OPT_CH_CTRL.MODFMT. -/
def chMod (s : State) (k : Nat) : Nat := regBf s .OPT_CH_CTRL k 25 24

/-! ### Slots of a session (R317, R320) -/

/-- The slots of a session in its group's transmit page, with their member. -/
def sessSlots (s : State) (g k : Nat) : List Nat :=
  ((lineGrp s g).txPage.filter (fun e => bit e.2 31 && bf e.2 11 0 == k)).map Prod.fst

/-- The channels a session's stream leaves by, each with how many slots: its member's in a slot-mapped group, every member
set in TX_ACTIVE in a concatenated one (R317). -/
def sessMembers (s : State) (k : Nat) : List (Nat × Nat) :=
  let g := regBf s .SELV_SESS_CFG k 21 16
  let act := (lineGrp s g).txActive
  if grpConcat s g then
    ((members s g).filter (fun c => act.getLsbD (chMid s c))).map (fun c => (c, if chCtl s c then 79 else 80))
  else
    let sl := sessSlots s g k
    match sl with
    | [] => []
    | x :: _ =>
      match memberCh s g (x / 80) with
      | some c => if act.getLsbD (x / 80) ∧ ¬ (lineCh s c).rdi ∧ ¬ calOut s c then [(c, sl.length)] else []
      | none => []

/-- A session's stream can carry segments: its group is up and gives it slots (R299, R320, R329). -/
def lineReady (s : State) (k : Nat) : Bool := domOn s 18 && !(sessMembers s k).isEmpty

/-- The stream key of a session: its own number, or 4096 + g in a concatenated group. -/
def sessStream (s : State) (k : Nat) : Nat :=
  let g := regBf s .SELV_SESS_CFG k 21 16
  if grpConcat s g then 4096 + g else k

/-- A transmit stream. -/
def txStream (s : State) (i : Nat) : TxStream := tabGet ⟨0, 0, []⟩ s.line.tx i
/-- Sets a transmit stream. -/
def txStreamSet (s : State) (i : Nat) (x : TxStream) : State := { s with line := { s.line with tx := tabSet ⟨0, 0, []⟩ s.line.tx i x } }
/-- A receive stream. -/
def rxStream (s : State) (i : Nat) : RxStream := tabGet ⟨false, 0, 0, false⟩ s.line.rx i
/-- Sets a receive stream. -/
def rxStreamSet (s : State) (i : Nat) (x : RxStream) : State :=
  { s with line := { s.line with rx := tabSet ⟨false, 0, 0, false⟩ s.line.rx i x } }

/-- A segment's cells join its session's stream (R317). -/
def lineQueue (s : State) (k cells : Nat) : State :=
  let i := sessStream s k
  let x := txStream s i
  txStreamSet s i { x with queue := x.queue ++ [cells] }

/-- 130 cells of a session that start now finish before an instant (ns), at the session's slot rate (R185). -/
def fitsBefore (s : State) (k close : Nat) : Bool :=
  match sessMembers s k with
  | [] => false
  | (c, n) :: t =>
    let slots := n + (t.map Prod.snd).sum
    decide (nowNs s * 1000 * 3 * 800 * slots + 8320 * framePs3 (chMod s c) ≤ close * 1000 * 3 * 800 * slots)

/-! ### Filling slots (R316-R319) -/

/-- One 800 B slot filled from a stream: bytes left, position, FSB found, cells of data and idle cells completed.  A cell that
begins takes the next segment in the queue when none is in progress, or is idle (R318). -/
def fillSlot (send : Bool) : Nat → Nat → TxStream → Option Nat → Nat → Nat → TxStream × Option Nat × Nat × Nat
  | 0, _, x, f, d, i => (x, f, d, i)
  | n + 1, pos, x, f, d, i =>
    if 800 ≤ pos then (x, f, d, i)
    else
      let left := 64 - x.carry
      let begins := x.carry == 0
      let (x, f) :=
        if begins && x.cur == 0 then
          (match send, x.queue with
            | true, q :: t => { x with cur := q, queue := t }
            | _, _ => x, some (f.getD pos))
        else (x, f)
      if pos + left ≤ 800 then
        let (d, i) := if x.cur = 0 then (d, i + 1) else (d + 1, i)
        fillSlot send n (pos + left) { x with carry := 0, cur := x.cur - 1 } f d i
      else ({ x with carry := x.carry + (800 - pos) }, f, d, i)

/-- Cells sent in a millisecond join the last 100 ms of a member (R354). -/
def noteSent (ms idle all : Nat) : List (Nat × Nat × Nat) → List (Nat × Nat × Nat)
  | (m, i, a) :: t => if m = ms then (m, i + idle, a + all) :: t else (ms, idle, all) :: ((m, i, a) :: t).filter (fun e => decide (ms < e.1 + 100))
  | [] => [(ms, idle, all)]

/-- A slot of a stream filled on a member's channel: its FSB, and the cells counted in the group (R316, R335). -/
def sendSlot (s : State) (g k i : Nat) (send : Bool) : Nat × State :=
  let (x, f, d, e) := fillSlot send 16 0 (txStream s i) none 0 0
  let c := lineCh s k
  let s := lineChSet s k { c with sent := noteSent (s.localUs / 1000) e (d + e) c.sent }
  (f.getD 0x3FF, ctrAdd (ctrAdd (txStreamSet s i x) .LINE_GRP_CNT_TX_DATA g d) .LINE_GRP_CNT_TX_IDLE g e)

/-- The descriptor of a slot (R316). -/
def slotDesc (used shared ctl : Bool) (sess fsb : Nat) : Word :=
  BitVec.ofNat 32 (b2n used * pow2 31 + b2n shared * pow2 30 + b2n ctl * pow2 29 + sess * pow2 16 + fsb)

/-- The slots of one member's frame, filled in ascending order; a slot-mapped session sends only idle cells while RDI stands or its member is
calibrated, the segment in progress given up (R317, R320, R329, R356). -/
def sendMember (s : State) (g k : Nat) : List Word × State :=
  let x := lineGrp s g
  let m := chMid s k
  let active := x.txActive.getLsbD m
  (List.range 80).foldl (fun (acc : List Word × State) j =>
    let (l, s) := acc
    if j = 79 ∧ chCtl s k then (l ++ [slotDesc false false true 0 0x3FF], s)
    else if !active then (l ++ [slotDesc false false false 0 0x3FF], s)
    else if grpConcat s g then
      let (f, s) := sendSlot s g k (4096 + g) true
      (l ++ [slotDesc true true false 0 f], s)
    else
      let e := tabGet 0 x.txPage (80 * m + j)
      if bit e 31 then
        let s := if (lineCh s k).rdi || calOut s k then txStreamSet s (bf e 11 0) { txStream s (bf e 11 0) with cur := 0 } else s
        let (f, s) := sendSlot s g k (bf e 11 0) (!(lineCh s k).rdi && !calOut s k)
        (l ++ [slotDesc true false false (bf e 11 0) f], s)
      else (l ++ [slotDesc false false false 0 0x3FF], s)) ([], s)

/-! ### Defects and protection (R328, R329, R331) -/

/-- Whether the time source of a group should move off a channel with a defect: the other protection member must be free of
defects (R331, R334). -/
def protSwitch (s : State) (g k : Nat) : State :=
  let x := lineGrp s g
  if protEn s g ∧ x.sel = 1 ∧ workCh s g = k ∧ (lineCh s (protCh s g)).defects = 0 then
    grpEvent (lineGrpSet s g { x with sel := 2, wtrUs := none }) g 2
  else if x.sel = 2 ∧ protCh s g = k ∧ (lineCh s (workCh s g)).defects = 0 then
    grpEvent (lineGrpSet s g { x with sel := 1, wtrUs := none }) g 2
  else if workCh s g = k then lineGrpSet s g { x with wtrUs := none }
  else s

/-- Bytes of a receive stream are lost with the next cell boundary among them: the segment in progress is discarded, its cells counted, and the stream is in
HUNT (R318, R329, R333). -/
def rxGap (s : State) (g i : Nat) : State :=
  let x := rxStream s i
  if x.hunt then s
  else
    let s := if x.left ≠ 0 then ctrAdd s .LINE_GRP_CNT_LOST g x.total else s
    grpEvent (ctrInc (rxStreamSet s i ⟨true, 0, 0, false⟩) .LINE_GRP_CNT_HUNT g) g 7

/-- The sessions whose receive slots lie on a member. -/
def rxSessions (s : State) (g m : Nat) : List Nat :=
  dedup (((lineGrp s g).rxPage.filter (fun e => e.1 / 80 == m && bit e.2 31)).map (fun e => bf e.2 11 0))

/-- A frame of a member of a slot-mapped group's receive stream is not taken: the streams on it have a gap (R329). -/
def gapMember (s : State) (g k : Nat) : State :=
  if grpConcat s g ∨ !(lineCh s k).inStream then s else (rxSessions s g (chMid s k)).foldl (fun s i => rxGap s g i) s

/-- A defect is declared on a channel: its data cells are no longer taken (R328, R329, R331). -/
def defectSet (s : State) (k b : Nat) : State :=
  let c := lineCh s k
  if c.defects.getLsbD b then s
  else
    let g := chGroup s k
    let s := lineChSet (gapMember s g k) k { c with defects := c.defects ||| BitVec.ofNat 6 (pow2 b), aligned := 0, rxOkSent := false, rdiSent := true, inStream := false }
    let s := raiseEv (ctrInc s .LINE_CH_CNT_DEFECT k) .LINE_CH_EVENT k 0
    let s := raiseEv s .LINE_EVENT 0 0
    let s := if c.inStream then grpEvent s g 0 else s
    if c.defects = 0 then protSwitch s g k else s

/-- A defect clears (R328): when all have, CLEARED is set and WTR starts where WORK is free again (R331). -/
def defectClear (s : State) (k b : Nat) : State :=
  let c := lineCh s k
  if !c.defects.getLsbD b then s
  else
    let d := c.defects &&& ~~~(BitVec.ofNat 6 (pow2 b))
    let s := lineChSet s k { c with defects := d }
    if d ≠ 0 then s
    else
      let g := chGroup s k
      let s := raiseEv s .LINE_CH_EVENT k 1
      let x := lineGrp s g
      if workCh s g = k ∧ x.sel = 2 ∧ regBit s .LINE_GRP_PROT g 30 then lineGrpSet s g { x with wtrUs := some s.localUs } else s

/-- Sets or clears a defect as its condition says; neither changes nothing. -/
def defectIf (s : State) (k b : Nat) (set clear : Bool) : State :=
  if set then defectSet s k b else if clear then defectClear s k b else s

/-- TX_ACTIVE changes: MEMBER_REMOVED and MEMBER_ADDED, and MSTATE NORM for a member that joins (R326). -/
def setTxActive (s : State) (g : Nat) (a : Dword) : State :=
  let old := (lineGrp s g).txActive
  let s := lineGrpSet s g { lineGrp s g with txActive := a }
  let s := (members s g).foldl (fun s k =>
    if a.getLsbD (chMid s k) ∧ (lineCh s k).mstate = 1 then lineChSet s k { lineCh s k with mstate := 2 } else s) s
  let s := if old &&& ~~~a ≠ 0 then grpEvent s g 0 else s
  if a &&& ~~~old ≠ 0 then grpEvent s g 1 else s

/-- A LINE_CH_CFG value takes effect: a channel whose EN clears leaves its group at once, one whose EN is set has LOS where its
die reports it (R328). -/
def lineChApply (s : State) (k : Nat) (v : Word) : State :=
  let g := chGroup s k
  let was := chEn s k
  let s := if was ∧ ¬ bit v 31 then
      let x := lineGrp s g
      let m := ~~~(BitVec.ofNat 64 (pow2 (chMid s k)))
      let s := if x.txActive &&& ~~~m ≠ 0 then setTxActive s g (x.txActive &&& m) else s
      lineChSet s k LineCh.reset
    else s
  let s := regSet s .LINE_CH_CFG k v
  if ¬ was ∧ bit v 31 ∧ (optCh s k).los then defectSet s k 0 else s

/-! ### Calibration and the framer (R354-R356) -/

/-- Two channels whose calibrations never overlap: of one die, or of one group (R354). -/
def calShare (s : State) (j k : Nat) : Bool :=
  j / 16 == k / 16 || (chEn s j && chEn s k && chGroup s j == chGroup s k)

/-- A calibration that runs keeps this channel's from starting (R354). -/
def calBlocked (s : State) (k : Nat) : Bool :=
  (List.range 64).any (fun j => (optCh s j).cal != .none && calShare s j k)

/-- A channel sends its calibration pattern: at once where it is lit, and otherwise when its launch power has ramped up again (R356, R357). -/
def patternOn (s : State) (k : Nat) : State :=
  let x := optCh s k
  optChSet s k { x with cal := .pattern, light := if x.light = .lit then .pattern else x.light }

/-- A channel's calibration starts (R356, steps 1 to 3): the time source moves off it, its member leaves a concatenated group; the
pattern begins at once where there is nothing to wait for. -/
def calBegin (s : State) (k : Nat) : State :=
  let g := chGroup s k
  let s := { s with opt := { s.opt with need := s.opt.need.filter (· != k), forced := s.opt.forced.filter (· != k) } }
  let s := if chEn s k && selCh s g == some k then protSwitch s g k else s
  if chEn s k && grpConcat s g then
    optChSet (lineChSet s k { lineCh s k with mstate := 3 }) k { optCh s k with cal := .leaving }
  else patternOn s k

/-- Forced calibrations start in the order of their needs, none past an earlier one of its die or group (R355). -/
def startForced (s : State) : State :=
  ((s.opt.need.filter (s.opt.forced.contains ·)).foldl (fun (acc : State × List Nat) k =>
    if calBlocked acc.1 k || acc.2.any (fun j => calShare acc.1 j k) then (acc.1, acc.2 ++ [k])
    else (calBegin acc.1 k, acc.2)) (s, [])).1

/-- A calibration ends: CAL_DONE, and forced ones that waited start (R355, R356). -/
def calFinish (s : State) (k : Nat) : State :=
  let d := k / 16
  let s := optChSet s k { optCh s k with cal := .none, calTemp := some (optDie s d).temp }
  startForced (raiseEv (ctrInc s .OPT_CNT_CAL d) .OPT_EVENT d 3)

/-- What an MFAS 0 means for a member in calibration: out of TX_ACTIVE its pattern begins, back in it the calibration ends (R356). -/
def calStep (s : State) (g k : Nat) : State :=
  let isIn := (lineGrp s g).txActive.getLsbD (chMid s k)
  match (optCh s k).cal with
  | .leaving => if isIn then s else patternOn s k
  | .returning => if isIn && !(lineCh s k).rdi then calFinish s k else s
  | _ => s

/-! ### Frames sent (R315, R323, R326, R327, R329) -/

/-- The members that stay or join at the next MFAS 0: ADD or returning members the far end reports RX_OK and not RDI; LEAVE
members go, and of a concatenated group those with RDI (R326, R327, R329). -/
def wantActive (s : State) (g : Nat) : Dword :=
  (members s g).foldl (fun a k =>
    let c := lineCh s k
    if c.mstate = 3 ∨ (c.rdi && grpConcat s g) then a
    else if c.rxOkRecv ∧ ¬ c.rdi ∧ (c.mstate = 1 ∨ c.mstate = 2) then a ||| BitVec.ofNat 64 (pow2 (chMid s k))
    else a ||| ((lineGrp s g).txActive &&& BitVec.ofNat 64 (pow2 (chMid s k)))) 0

/-- The members of a group whose RDI stands. -/
def rdiMask (s : State) (g : Nat) : Dword :=
  (members s g).foldl (fun a k => if (lineCh s k).rdi then a ||| BitVec.ofNat 64 (pow2 (chMid s k)) else a) 0

/-- What happens at an MFAS 0: the announced members and the announced transmit page take effect, and new announcements are
made for one whole multiframe (R323, R326, R327). -/
def multiframe (s : State) (g : Nat) : State :=
  let x := lineGrp s g
  let s := match x.next with
    | some a => setTxActive s g a
    | none => s
  let x := lineGrp s g
  let page := (tabGet [] s.regs (ridNum .LINE_CM_TX_SB)).filterMap (fun e =>
    if e.1 / 640 = g then some (e.1 % 640, e.2) else none)
  let x := if x.nextGen ≠ 0 then { x with txGen := x.nextGen, txPage := page, txWait := false, nextGen := 0 } else x
  let gen := regBf s .LINE_GRP_CM_SBGEN g 15 0
  let x := if x.txWait ∧ x.sbValid ∧ x.farReady = gen then { x with nextGen := gen } else x
  let s := lineGrpSet s g x
  let s := applyHeld s .LINE_GRP_CFG g (fun s v => regSet s .LINE_GRP_CFG g v)
  let s := (members s g).foldl (fun s k => calStep s g k) s
  let x := lineGrp s g
  let want := wantActive s g
  lineGrpSet s g { x with mfc := (x.mfc + 1) % pow2 32, next := if want = x.txActive then none else some want }

/-- Held writes of a group and of its channels take effect at the frame boundary; LINE_GRP_CFG waits for MFAS 0 (R334, R399). -/
def frameHeld (s : State) (g : Nat) : State :=
  let put := fun (s : State) (r : Rid) => applyHeld s r g (fun s v => regSet s r g v)
  let s := put (put s .LINE_GRP_PROT) .LINE_GRP_SKEW_BUF
  (List.range 64).foldl (fun s k => if chGroup s k = g then applyHeld s .LINE_CH_CFG k (fun s v => lineChApply s k v) else s) s

/-- The next frame's counters: MFAS one above the last, and at 0 the multiframe's changes (R314).  RDI cancels an addition that is announced; from a
concatenated group it removes the member at once (R329, R334). -/
def nextMfas (s : State) (g : Nat) : State :=
  let x := lineGrp s g
  let m := rdiMask s g
  let out := if grpConcat s g then m else m &&& ~~~x.txActive
  let s := lineGrpSet s g { x with mfas := (x.mfas + 1) % 256, next := x.next.map (fun a => a &&& ~~~out) }
  let s := frameHeld s g
  let s := if (x.mfas + 1) % 256 = 0 then multiframe s g else s
  if grpConcat s g then
    let x := lineGrp s g
    if x.txActive &&& m ≠ 0 then setTxActive s g (x.txActive &&& ~~~m) else s
  else s

/-- The overhead of a frame (R315). -/
def txOverhead (s : State) (g k phase : Nat) (slots : List Word) : LineOh :=
  let x := lineGrp s g
  let mask := fun (p : LineCh → Bool) => (members s g).foldl (fun (a : BitVec 64) c =>
    if p (lineCh s c) then a ||| BitVec.ofNat 64 (pow2 (chMid s c)) else a) 0
  let c := lineCh s k
  let (m, f, t) := c.last.getD (0, 0, 0)
  { mfas := x.mfas, fver := 1, mode := b2n (grpConcat s g), gid := regBf s .LINE_GRP_CFG g 15 0, mfc := x.mfc, mid := chMid s k,
    mstate := c.mstate, txActive := x.txActive, activeNext := x.next.getD x.txActive,
    rdi := mask (fun c => c.rdiSent), rxOk := mask (fun c => c.rxOkSent),
    ctlch := chCtl s k, side := protEn s g && protCh s g == k, cmTxGen := if grpConcat s g then 0 else x.txGen,
    cmNextGen := x.nextGen, cmRxRdy := if x.rxWait then regBf s .LINE_GRP_CM_SBGEN g 15 0 else 0,
    txTime := (servedAt s phase).toNat, rxTime := t, echoMfc := m, echoMfas := f,
    tti := [BitVec.ofNat 32 (regBf s .BAST_GWID 0 15 0 * 65536 + k * 256), 0, 0, 0], slots := slots }

/-- LINE_FRAME_TRANSMIT: a frame of every member of a group leaves: counters, slots, overhead (R314-R320, R323, R326, R329). -/
def execLineFrameTransmit (group phase : Nat) (s : State) : Result :=
  .next <|
    if !domOn s 18 ∨ !regBit s .LINE_GRP_CFG group 31 then s
    else
      let s := nextMfas s group
      let x := lineGrp s group
      let key := x.mfc * 256 + x.mfas
      let times := tabSet 0 (x.txTimes.filter (fun e => decide (key < e.1 + 65536))) key (servedAt s phase).toNat
      let s := lineGrpSet s group { x with txTimes := times }
      (members s group).foldl (fun s k =>
        let (l, s) := sendMember s group k
        if carriesLight s k then send s (.lineFrame k (lineScramble (ohBytes (txOverhead s group k phase l)))) else s) s

/-! ### Return to WORK -/

/-- WTR_EXPIRY: with REVERT set the time source returns to WORK (R331). -/
def execWtrExpiry (group : Nat) (s : State) : Result :=
  .next <|
    let x := lineGrp s group
    if regBit s .LINE_GRP_PROT group 30 ∧ x.sel = 2 ∧ (lineCh s (workCh s group)).defects = 0 then
      grpEvent (lineGrpSet s group { x with sel := 1, wtrUs := none }) group 2
    else s

/-! ### Frames received (R315, R318, R323-R325, R328, R333) -/

/-- One received cell of a stream: idle cells and cells in HUNT are discarded; a cell at a segment boundary that is neither
idle nor a good header, or whose bytes are lost, sends the stream into HUNT; a segment with a lost byte is discarded whole
and its cells counted (R318, R333). -/
def rxCell (s : State) (g i : Nat) (c : LineCell) (lost : Bool) : State :=
  let x := rxStream s i
  let hunt := fun (s : State) => grpEvent (ctrInc (rxStreamSet s i ⟨true, 0, 0, false⟩) .LINE_GRP_CNT_HUNT g) g 7
  let finish := fun (s : State) (x : RxStream) =>
    if x.left ≠ 0 then rxStreamSet s i x
    else
      let s := rxStreamSet s i ⟨false, 0, 0, false⟩
      if x.lost then ctrAdd s .LINE_GRP_CNT_LOST g x.total else s
  if x.hunt then s
  else if x.left ≠ 0 then
    finish (ctrInc s .LINE_GRP_CNT_RX_DATA g) { x with left := x.left - 1, lost := x.lost || lost }
  else if lost then hunt s
  else match c with
  | .idle => s
  | .head n => finish (ctrInc s .LINE_GRP_CNT_RX_DATA g) ⟨false, n - 1, n, false⟩
  | .other => hunt s

/-- The cells of a received slot: a stream in HUNT resumes in a slot whose FSB is not 0x3FF, with the cell that starts there; (FSB + 63) / 64 cells end in
the slot before that one does (R316, R318). -/
def rxSlot (s : State) (g i : Nat) (t : SlotIn) : State :=
  let resume := (rxStream s i).hunt && bf t.desc 9 0 != 0x3FF
  let s := if resume then rxStreamSet s i ⟨false, 0, 0, false⟩ else s
  let cells := if resume then t.cells.drop ((bf t.desc 9 0 + 63) / 64) else t.cells
  cells.foldl (fun s c => rxCell s g i c.1 c.2) s

/-- The slots of a member of a slot-mapped group, by the receive page whose generation the frame carries (R321, R323, R324). -/
def rxMapped (s : State) (g m : Nat) (l : List SlotIn) : State :=
  let page := (lineGrp s g).rxPage
  (l.zipIdx).foldl (fun s t =>
    let e := tabGet 0 page (80 * m + t.2)
    if !bit e 31 then s
    else
      let sess := bf e 11 0
      if !bit t.1.desc 31 ∨ bf t.1.desc 27 16 ≠ regBf s .SELV_SESS_PEER sess 11 0 then
        grpEvent (ctrAdd s .LINE_GRP_CNT_SLOT_MISMATCH g t.1.cells.length) g 6
      else rxSlot s g sess t.1) s

/-- Where a frame waits in the skew region, of which the spec gives no layout; none where the device has no such region (R268, R325; log 87). -/
def skewPlace (s : State) (g mid key : Nat) : Option Nat :=
  let n := s.mem.skewGiB * gib / 65536
  if n = 0 then none else some (skewBase s + Config.skewPlace (64 * g + mid) key % n * 65536)

/-- A member joins or leaves the receive stream (R325, R335). -/
def streamMember (s : State) (g k : Nat) (now : Bool) : State :=
  let c := lineCh s k
  let s := lineChSet s k { c with inStream := now }
  if now && !c.inStream then grpEvent s g 1 else if c.inStream && !now then grpEvent s g 0 else s

/-- The receive stream follows the TX_ACTIVE of a received frame (R325, R327, R329). -/
def rxMembers (s : State) (g : Nat) (act : Dword) : State :=
  (members s g).foldl (fun s k =>
    let c := lineCh s k
    streamMember s g k (act.getLsbD (chMid s k) && c.rxOkSent && c.defects == 0)) s

/-- A member is taken out of the receive stream as if defective, until it has been aligned again (R277, R326). -/
def memberOut (s : State) (g k : Nat) : State :=
  let s := streamMember s g k false
  lineChSet s k { lineCh s k with aligned := 0, rxOkSent := false, rdiSent := true }

/-- A member that frame `key` waits for: set in TX_ACTIVE of that frame, aligned, without a defect, and not yet past it (R325). -/
def skewWaits (s : State) (g key : Nat) (act : Dword) (k : Nat) : Bool :=
  let c := lineCh s k
  act.getLsbD (chMid s k) && c.rxOkSent && c.defects == 0 &&
  !(lineGrp s g).skewBuf.any (fun f => f.key == key && f.mid == chMid s k) &&
  (match c.last with
    | some (mfc, mfas, _) => decide (mfc * 256 + mfas < key)
    | none => true)

/-- The slots of a member's aligned frame join the stream: read from the skew region, where an uncorrectable block removes the member, and with slot 79
left out where it carries the control channel (R277, R317, R330). -/
def skewTake (s : State) (g : Nat) (f : SkewFrame) : State :=
  let bad := fun (s : State) (k : Nat) => rxGap (memberOut s g k) g (4096 + g)
  let (ok, s) := match skewPlace s g f.mid f.key with
    | none => (true, s)
    | some a =>
      let s := countBytes .MEM_CNT_RD_BYTES 256 s a 64000
      match ueIn s a 64000 with
      | some b => (false, recordUe s (32 * b))
      | none => (true, s)
  if ok then (if f.ctl then f.slots.take 79 else f.slots).foldl (fun s t => rxSlot s g (4096 + g) t) s
  else match memberCh s g f.mid with
    | some k => bad s k
    | none => rxGap s g (4096 + g)

/-- The stream of a concatenated group takes the frames of one number, members in ascending MID among those of TX_ACTIVE; a frame or member that is
missing leaves a gap (R317, R325, R329). -/
def rxConcat (s : State) (g key : Nat) : State :=
  let x := lineGrp s g
  let fs := sortBy (fun f => f.mid) (x.skewBuf.filter (fun f => f.key == key))
  let act := (fs.head?.map (fun f => f.active)).getD 0
  let first := fs.foldl (fun a f => min a f.us) s.localUs
  let s := lineGrpSet s g { x with skewBuf := x.skewBuf.filter (fun f => f.key != key), skewUs := s.localUs - first, rxKey := some key }
  let s := rxMembers s g act
  let s := if x.rxKey.any (fun q => q + 1 != key) then rxGap s g (4096 + g) else s
  ((List.range 64).filter (fun m => act.getLsbD m)).foldl (fun s m =>
    match fs.find? (fun f => f.mid == m), (memberCh s g m).any (fun k => (lineCh s k).inStream) with
    | some f, true => skewTake s g f
    | _, _ => rxGap s g (4096 + g)) s

/-- The frames whose number nothing is waited for any more are taken, in ascending order (R325). -/
def skewDrain (g : Nat) : Nat → State → State
  | 0, s => s
  | n + 1, s =>
    match sortBy (fun f => f.key) (lineGrp s g).skewBuf with
    | [] => s
    | f :: _ => if (members s g).any (skewWaits s g f.key f.active) then s else skewDrain g n (rxConcat s g f.key)

/-- The largest lead in µs a member may have: its share of the allocation, among the members that are aligning or active, at its payload rate, and 8 ms
(R325). -/
def leadLimit (s : State) (g k : Nat) : Nat :=
  let n := max 1 ((members s g).filter (fun j => (lineCh s j).defects &&& 31#6 == 0)).length
  let bytes := regBf s .LINE_GRP_SKEW_BUF g 9 0 * 0x4000000 / n
  min 8000 (bytes * framePs3 (chMod s k) / (3 * 64000 * 1000000))

/-- Members, aligning ones too, that lead beyond their limit raise SKEW, and it clears within the limit (R325, R328). -/
def skewCheck (s : State) (g : Nat) : State :=
  (members s g).foldl (fun s k =>
    let old := ((lineGrp s g).skewBuf.filter (fun f => f.mid == chMid s k)).foldl (fun a f => min a f.us) s.localUs
    defectIf s k 5 (decide (leadLimit s g k < s.localUs - old)) (decide (s.localUs - old ≤ leadLimit s g k))) s

/-- How far in µs a frame of an aligning member comes behind the frames taken (R325, R326). -/
def skewLate (s : State) (g k key : Nat) : Nat :=
  match (lineGrp s g).rxKey with
  | some q => (q - key) * framePs3 (chMod s k) / 3000000
  | none => 0

/-- The receive page follows CM_TXGEN: the standby of that generation becomes active; whether the frame's slots are taken
(R323, R324). -/
def cmFollow (s : State) (g gen : Nat) : Bool × State :=
  let x := lineGrp s g
  if gen = x.rxGen then (true, s)
  else if x.sbValid ∧ x.rxWait ∧ gen = regBf s .LINE_GRP_CM_SBGEN g 15 0 then
    let page := (tabGet [] s.regs (ridNum .LINE_CM_RX_SB)).filterMap (fun e =>
      if e.1 / 640 = g then some (e.1 % 640, e.2) else none)
    (true, grpEvent (lineGrpSet s g { x with rxPage := page, rxGen := gen, rxWait := false }) g 3)
  else (false, grpEvent s g 5)

/-- The counts that declare and clear LOF, LOM, FEC_DEG and ID, one frame later; of a frame without its FAS neither number nor identity is read.  The group's
modulation is that of the members already active (R312, R328). -/
def frameCounts (s : State) (k : Nat) (f : RxLineFrame) : State :=
  let c := lineCh s k
  let g := chGroup s k
  let run := fun (ok : Bool) (n : Nat) => if ok then 0 else n + 1
  let seq := f.oh.mfas == (c.mfas + 1) % 256
  let fec := f.fecUncorr == 0
  let twin := (members s g).any (fun j => j != k && chMid s j == f.oh.mid)
  let modOk := (members s g).all (fun j => j == k || !((lineCh s j).inStream || (lineGrp s g).txActive.getLsbD (chMid s j)) || chMod s j == chMod s k)
  let idOk := f.oh.fver == 1 && f.oh.gid == regBf s .LINE_GRP_CFG g 15 0 && f.oh.mode == b2n (grpConcat s g) && modOk && !twin
  let c := { c with fasBad := run f.fasOk c.fasBad, fasGood := run (!f.fasOk) c.fasGood,
                    fecBad := run fec c.fecBad, fecGood := run (!fec) c.fecGood }
  let c := if f.fasOk then { c with mfasBad := run seq c.mfasBad, mfasGood := run (!seq) c.mfasGood, idGood := run (!idOk) c.idGood, mfas := f.oh.mfas }
    else { c with mfas := (c.mfas + 1) % 256 }
  let s := lineChSet s k c
  let s := defectIf s k 1 (decide (5 ≤ c.fasBad)) (decide (2 ≤ c.fasGood))
  let s := defectIf s k 2 (decide (5 ≤ c.mfasBad)) (decide (2 ≤ c.mfasGood))
  let s := defectIf s k 3 (decide (4 ≤ c.fecBad)) (decide (64 ≤ c.fecGood))
  defectIf s k 4 (f.fasOk && !idOk) (decide (2 ≤ c.idGood))

/-- The alignment count of R326, step 2: 64 multiframes without a defect set RX_OK. -/
def alignCount (s : State) (k : Nat) : State :=
  let c := lineCh s k
  if c.defects ≠ 0 then lineChSet s k { c with aligned := 0 }
  else
    let n := min 16384 (c.aligned + 1)
    lineChSet s k { c with aligned := n, rxOkSent := decide (16384 ≤ n), rdiSent := c.rdiSent && decide (n < 16384) }

/-- RDI and RX_OK of our members as the far end reports them (R315, R329). -/
def backward (s : State) (g : Nat) (oh : LineOh) : State :=
  (members s g).foldl (fun s k =>
    let c := lineCh s k
    let r := oh.rdi.getLsbD (chMid s k)
    let s := lineChSet s k { c with rdi := r, rxOkRecv := oh.rxOk.getLsbD (chMid s k) }
    if r ∧ ¬ c.rdi then raiseEv s .LINE_CH_EVENT k 2 else s) s

/-- Line time from the group's selected channel: one echo a multiframe, of a frame whose transmit time is still kept (R391). -/
def lineEcho (s : State) (g k : Nat) (f : RxLineFrame) : State :=
  let t1 := tabGet 0 (lineGrp s g).txTimes (f.oh.echoMfc * 256 + f.oh.echoMfas)
  if selCh s g = some k ∧ f.oh.mfas = 0 ∧ t1 ≠ 0 then
    let q := fun (n : Int) => n / 4096
    lineMeasure s g (q t1) (q f.oh.rxTime) (q f.oh.txTime) (q (servedAt s f.phase))
  else s

/-- The first good frame on a protection channel selects it when none is selected. -/
def selectFirst (s : State) (g k : Nat) : State :=
  let x := lineGrp s g
  if x.sel = 0 ∧ chCtl s k then lineGrpSet s g { x with sel := if workCh s g = k then 1 else 2 } else s

/-- A frame of a member of a concatenated group waits in the skew buffer, unless its number has been taken already; one that comes too late is not
aligned (R325, R326). -/
def skewEnter (s : State) (g k key : Nat) (f : RxLineFrame) : State :=
  let x := lineGrp s g
  if x.rxKey.any (fun q => decide (key ≤ q)) then
    (if leadLimit s g k < skewLate s g k key then memberOut s g k else s)
  else
    let s := match skewPlace s g (chMid s k) key with
      | some a => countBytes .MEM_CNT_WR_BYTES 256 s a 64000
      | none => s
    let x := lineGrp s g
    lineGrpSet s g { x with skewBuf := x.skewBuf ++ [⟨key, chMid s k, s.localUs, f.oh.txActive, f.oh.ctlch, f.slotsIn⟩] }

/-- A good frame of a defect-free channel: overhead taken, its slots given to the streams (R315-R325). -/
def frameTake (s : State) (g k : Nat) (f : RxLineFrame) : State :=
  let c := lineCh s k
  let key := f.oh.mfc * 256 + f.oh.mfas
  let before := c.last
  let s := lineChSet s k { c with tti := f.oh.tti, last := some (f.oh.mfc, f.oh.mfas, (servedAt s f.phase).toNat) }
  let s := lineEcho (selectFirst (backward s g f.oh) g k) g k f
  let s := lineGrpSet s g { lineGrp s g with farReady := f.oh.cmRxRdy, rxActive := f.oh.txActive }
  if grpConcat s g then
    let s := skewCheck (skewEnter s g k key f) g
    skewDrain g (lineGrp s g).skewBuf.length s
  else
    let s := rxMembers s g f.oh.txActive
    let (take, s) := cmFollow s g f.oh.cmTxGen
    if take && (lineCh s k).inStream then
      let s := if before.any (fun q => (q.1 * 256 + q.2.1 + 1) != key) then gapMember s g k else s
      rxMapped s g (chMid s k) f.slotsIn
    else s

/-- LINE_FRAME_RECEIVE: a frame of an enabled channel whose die is powered (R328-R333); one that is not taken leaves a gap in the streams on it (R329). -/
def execLineFrameReceive (ch : Nat) (f : RxLineFrame) (s : State) : Result :=
  .next <|
    if !chEn s ch ∨ 64 ≤ ch ∨ !domOn s 18 ∨ !domOn s (dieDom (ch / 16)) then s
    else
      let s := ctrAdd (ctrAdd s .LINE_CH_CNT_FEC_CORR ch f.fecCorr) .LINE_CH_CNT_FEC_UNCORR ch f.fecUncorr
      let s := alignCount (frameCounts s ch f) ch
      if (lineCh s ch).defects = 0 ∧ f.fasOk then frameTake s (chGroup s ch) ch f else gapMember s (chGroup s ch) ch

/-! ### Connection memory (R321-R323) -/

/-- Bytes of a standby page. -/
def cmPageBytes (s : State) (r : Rid) (g : Nat) : List Byte :=
  (List.range 640).flatMap (fun i => wordBytes (regGet s r (640 * g + i)))

/-- The entries in use of a standby page: member, slot, session. -/
def cmEntries (s : State) (r : Rid) (g : Nat) : List (Nat × Nat × Nat) :=
  (tabGet [] s.regs (ridNum r)).filterMap (fun e =>
    if e.1 / 640 = g ∧ bit e.2 31 then some (e.1 % 640 / 80, e.1 % 80, bf e.2 11 0) else none)

/-- The lowest ERR a pair of standby pages breaks, 0 when none (R322). -/
def cmErr (s : State) (g : Nat) : Nat :=
  let t := cmEntries s .LINE_CM_TX_SB g
  let r := cmEntries s .LINE_CM_RX_SB g
  let all := t ++ r
  let gen := regGet s .LINE_GRP_CM_SBGEN g
  let crc := crc32c (cmPageBytes s .LINE_CM_TX_SB g ++ cmPageBytes s .LINE_CM_RX_SB g ++ wordBytes gen)
  let split := fun (l : List (Nat × Nat × Nat)) => l.any (fun a => l.any (fun b => a.2.2 == b.2.2 && a.1 != b.1))
  if crc ≠ regGet s .LINE_GRP_CM_SBCRC g then 1
  else if all.any (fun e => !regBit s .SELV_SESS_CFG e.2.2 31 || regBf s .SELV_SESS_CFG e.2.2 21 16 != g) then 2
  else if split t || split r then 3
  else if all.any (fun e => e.2.1 == 79 && (match memberCh s g e.1 with
    | some k => chCtl s k
    | none => false)) then 4
  else if all.any (fun e => (memberCh s g e.1).isNone) then 5
  else if grpConcat s g then 7
  else if bf gen 15 0 = 0 then 8
  else 0

/-- CM_CLEAR: both standby pages zero, SB_VALID cleared, a swap that waits abandoned (R322, R334). -/
def execCmClear (req : Requester) (group : Nat) (s : State) : Result :=
  .next <| guardWrite s req .LINE_GRP_CM_CTRL group fun s =>
    let drop := fun (s : State) (r : Rid) =>
      { s with regs := tabSet [] s.regs (ridNum r) ((tabGet [] s.regs (ridNum r)).filter (fun e => e.1 / 640 != group)) }
    let s := drop (drop s .LINE_CM_TX_SB) .LINE_CM_RX_SB
    let x := lineGrp s group
    lineGrpSet s group { x with sbValid := false, txWait := false, rxWait := false, nextGen := 0 }

/-- CM_COMMIT: the check starts, or ERR 0x06 while one runs or a swap waits (R322). -/
def execCmCommit (req : Requester) (group : Nat) (s : State) : Result :=
  .next <| guardWrite s req .LINE_GRP_CM_CTRL group fun s =>
    let x := lineGrp s group
    if x.checking ∨ x.txWait ∨ x.rxWait then grpEvent (lineGrpSet s group { x with err := 6 }) group 4
    else lineGrpSet s group { x with checking := true }

/-- CM_CHECK_DONE: SB_VALID with both waits, or ERR and CM_REFUSED (R322, R323). -/
def execCmCheckDone (group : Nat) (s : State) : Result :=
  .next <|
    let x := lineGrp s group
    if !x.checking then s
    else
      let e := cmErr s group
      let x := { x with checking := false, err := BitVec.ofNat 8 e }
      if e = 0 then lineGrpSet s group { x with sbValid := true, txWait := true, rxWait := true }
      else grpEvent (lineGrpSet s group { x with sbValid := false }) group 4

/-! ### Members and configuration (R313, R326, R327, R336) -/

/-- ADD: the member is sent with MSTATE ADD and idle cells (R326). -/
def execMemberAdd (req : Requester) (ch : Nat) (s : State) : Result :=
  .next <| guardWrite s req .LINE_CH_CMD ch fun s =>
    if chEn s ch ∧ (lineCh s ch).mstate ≠ 2 then lineChSet s ch { lineCh s ch with mstate := 1 } else s

/-- REMOVE: MSTATE LEAVE; the member goes at the MFAS 0 after one whole multiframe (R327). -/
def execMemberRemove (req : Requester) (ch : Nat) (s : State) : Result :=
  .next <| guardWrite s req .LINE_CH_CMD ch fun s =>
    if chEn s ch then lineChSet s ch { lineCh s ch with mstate := 3 } else s

/-- A LINE_CH_CFG value breaks R313: a MID held by another channel of the group, a MID beyond the mode's range, an absent
die, or a change of LGRP or MID while EN is set. -/
def lineChBad (s : State) (k : Nat) (v : Word) : Bool :=
  let old := regGet s .LINE_CH_CFG k
  let g := bf v 29 24
  let m := bf v 21 16
  (bit old 31 && (bf old 29 24 != g || bf old 21 16 != m)) || !ldPresent s (k / 16) ||
  (bit v 31 && (decide (!grpConcat s g ∧ 7 < m) ||
    (List.range 64).any (fun j => j != k && chEn s j && chGroup s j == g && chMid s j == m)))

/-- LINE_CH_CFG_WRITE: joins a channel to a group, or is not accepted (R313). -/
def execLineChCfgWrite (req : Requester) (ch : Nat) (value : Word) (s : State) : Result :=
  .next <| guardWrite s req .LINE_CH_CFG ch fun s =>
    let v := acceptWord .LINE_CH_CFG (rwsBase s .LINE_CH_CFG ch) value
    if lineChBad s ch v then s
    else rwsPut s .LINE_CH_CFG ch v (!chEn s ch) (fun s v => lineChApply s ch v)

/-- LINE_GRP_CFG_WRITE: not accepted when MODE or GID changes while a channel of the group is enabled; applied at the group's
next MFAS 0, at once when no channel is enabled (R334, R336). -/
def execLineGrpCfgWrite (req : Requester) (group : Nat) (value : Word) (s : State) : Result :=
  .next <| guardWrite s req .LINE_GRP_CFG group fun s =>
    let old := regGet s .LINE_GRP_CFG group
    let v := acceptWord .LINE_GRP_CFG (rwsBase s .LINE_GRP_CFG group) value
    let busy := !(members s group).isEmpty
    if busy ∧ (bf old 30 30 ≠ bf v 30 30 ∨ bf old 15 0 ≠ bf v 15 0) then s
    else rwsPut s .LINE_GRP_CFG group v (!busy) (fun s v => regSet s .LINE_GRP_CFG group v)

/-! ### Control cells between site roots (R330) -/

/-- The 64 B control cell of a tack word: type 0x01, zero bytes, the word with bit 255 first (R330). -/
def controlCell (w : BitVec 256) : List Byte := 1 :: List.replicate 31 0 ++ beBytes 32 w.toNat

/-- Three copies of a control cell leave on a channel of a group (R246, R330). -/
def sendCells (s : State) (g ch : Nat) (cell : List Byte) : State :=
  if chEn s ch ∧ chGroup s ch = g then (List.range 3).foldl (fun s _ => send s (.controlCell ch cell)) s else s

/-- A tack leaves on the control channel of a group: on WORK, and on PROT where PROT_EN is set (R330). -/
def sendControl (s : State) (g typ cause panel : Nat) (hold : Bool) (coll : Word) (epoch : Nat) : State :=
  let x := lineGrp s g
  let q := x.tackSeq + 1
  let w := tackSeal { sync := tackSync, typ := BitVec.ofNat 8 typ, cause := BitVec.ofNat 8 cause, panel := BitVec.ofNat 4 panel,
                      hold := hold, flagsResv := 0, seq := q, src := BitVec.ofNat 16 (regBf s .BAST_GWID 0 15 0), coll := coll,
                      epoch := BitVec.ofNat 48 epoch, aux := 0, resv := 0, crc := 0 }
  let s := sendCells (lineGrpSet s g { x with tackSeq := q }) g (workCh s g) (controlCell w)
  if protEn s g then sendCells s g (protCh s g) (controlCell w) else s

end Sys2Proof.Machine
end

