-- ==== Sys2Proof/Machine/SelvWire.lean ====
section
/-! DEFINITION. Selvedge on the wire (09_selvedge_transport): the 64 B segment header, twin datagrams. -/

namespace Sys2Proof

open Sys2Proof.Machine

/-- The header carries chunk fields: DATA of a SPAN session (R284). -/
def hasChunks (typ kind : Nat) : Bool := typ == 1 && kind == 0

/-- The 64 bytes of a header, big-endian, with VER 0x1 and reserved fields zero (R284). -/
def segBytes (h : SegHdr) : List Byte :=
  [BitVec.ofNat 8 (0x10 + h.typ % 16), BitVec.ofNat 8 (h.kind % 4 * 64 + b2n h.rtx * 32)] ++ beBytes 2 (h.dst % 4096) ++ beBytes 2 (h.src % 4096) ++
  beBytes 2 h.gen.toNat ++ beBytes 4 h.seq.toNat ++ beBytes 8 h.txc ++ beBytes 4 h.cumAck.toNat ++ beBytes 4 h.rwndEnd.toNat ++
  beBytes 2 (h.plen % 16384) ++
  (if hasChunks h.typ h.kind then
    [BitVec.ofNat 8 (h.part % 16 * 16 + h.npart % 16), BitVec.ofNat 8 (h.fmt % 16 * 16)] ++ beBytes 4 h.coll.toNat ++ beBytes 6 h.epoch ++
    beBytes 4 h.firstChunk ++ beBytes 2 h.present.toNat ++ (h.cflags ++ List.replicate 16 0).take 16
  else List.replicate 34 0)

/-- The header of 64 bytes; `resvOk` says that VER is 0x1 and every reserved field zero (R284, R291). -/
def segParse (b : List Byte) : SegHdr :=
  let f := fun (o n : Nat) => beNat (slice b o n)
  let typ := f 0 1 % 16
  let kind := f 1 1 / 64
  { typ := typ, kind := kind, rtx := f 1 1 / 32 % 2 == 1, dst := f 2 2 % 4096, src := f 4 2 % 4096, gen := BitVec.ofNat 16 (f 6 2),
    seq := BitVec.ofNat 32 (f 8 4), txc := f 12 8, cumAck := BitVec.ofNat 32 (f 20 4), rwndEnd := BitVec.ofNat 32 (f 24 4), plen := f 28 2 % 16384,
    part := f 30 1 / 16, npart := f 30 1 % 16, fmt := f 31 1 / 16, coll := BitVec.ofNat 32 (f 32 4), epoch := f 36 6, firstChunk := f 42 4,
    present := BitVec.ofNat 16 (f 46 2), cflags := slice b 48 16,
    resvOk := b.length == 64 && f 0 1 / 16 == 1 && f 1 1 % 32 == 0 && decide (f 2 2 < 4096 ∧ f 4 2 < 4096 ∧ f 28 2 < 16384) &&
      (if hasChunks typ kind then f 31 1 % 16 == 0 else (slice b 30 34).all (· == 0)) }

/-- The header of a received segment. -/
def RxSegment.hdr (g : RxSegment) : SegHdr := segParse g.head

end Sys2Proof

namespace Sys2Proof.Machine

/-- A twin datagram: its 16 B header, big-endian, and its records (R304). -/
def twinBody (typ count : Nat) (copySeq crc : Word) (recs : List Byte) : List Byte :=
  [BitVec.ofNat 8 typ, 0] ++ beBytes 2 count ++ beBytes 4 copySeq.toNat ++ beBytes 4 crc.toNat ++ [0, 0, 0, 0] ++ recs

end Sys2Proof.Machine
end

