-- ==== Sys2Proof/Machine/Thimble.lean ====
section
/-! DEFINITION. Thimble (12_thimble): key slots, key use and switchover, key loads, bulk lanes, alarms. -/

namespace Sys2Proof.Machine

/-! ### Sessions, slots, groups -/

/-- A Selvedge session. -/
def selvGet (s : State) (k : Nat) : SelvSess := tabGet SelvSess.reset s.selv.sess k

/-- Sets a Selvedge session. -/
def selvSet (s : State) (k : Nat) (x : SelvSess) : State :=
  { s with selv := { s.selv with sess := tabSet SelvSess.reset s.selv.sess k x } }

/-- An empty key slot (R364). -/
def keySlotReset : KeySlot := ⟨.empty, 0, 0, 0, 0, none, false, false, false⟩

/-- A key slot. -/
def keySlot (s : State) (i : Nat) : KeySlot := tabGet keySlotReset s.thm.slots i

/-- Sets a key slot. -/
def keySlotSet (s : State) (i : Nat) (k : KeySlot) : State :=
  { s with thm := { s.thm with slots := tabSet keySlotReset s.thm.slots i k } }

/-- Thimble's record of a session; after a full reset slot 2s is active. -/
def thmSess (s : State) (k : Nat) : ThmSess := tabGet ⟨false, 0, false⟩ s.thm.sess k

/-- Sets Thimble's record of a session. -/
def thmSessSet (s : State) (k : Nat) (x : ThmSess) : State :=
  { s with thm := { s.thm with sess := tabSet ⟨false, 0, false⟩ s.thm.sess k x } }

/-- The active slot of a session (R364). -/
def activeSlot (s : State) (k : Nat) : Nat := 2 * k + b2n (thmSess s k).active1

/-- The next slot of a session (R364). -/
def nextSlot (s : State) (k : Nat) : Nat := 2 * k + b2n (!(thmSess s k).active1)

/-- A key-load group; before an image is applied it has no encapsulation key. -/
def keyGroup (s : State) (g : Nat) : KeyGroup := tabGet ⟨false, none, none, 0, [], false, 0⟩ s.thm.groups g

/-- Sets a key-load group. -/
def keyGroupSet (s : State) (g : Nat) (x : KeyGroup) : State :=
  { s with thm := { s.thm with groups := tabSet ⟨false, none, none, 0, [], false, 0⟩ s.thm.groups g x } }

/-- THM_ALARM.LATCHED (R375). -/
def alarmLatched (s : State) : Bool := bit s.thm.alarm 31

/-! ### Key switchover (R366, R367) -/

/-- The next slot becomes active, the old active slot RETIRED, and KEY_SWITCH is set (R366). -/
def keySwitchNow (s : State) (k : Nat) : State :=
  let o := activeSlot s k
  let s := keySlotSet s o { keySlot s o with state := .retired }
  let t := thmSess s k
  raiseEv (thmSessSet s k { t with active1 := !t.active1, switchReq := false }) .THM_EVENT 0 2

/-- A session enters KEY_STOP, and KEY_STOP is set (R367). -/
def keyStop (s : State) (k : Nat) : State :=
  let x := selvGet s k
  if x.state = .keyStop then s
  else raiseEv (selvSet s k { x with state := .keyStop, prev := x.state }) .THM_EVENT 0 3

/-- 2^36 uses end a key (R366, R367). -/
abbrev keyLimit : Nat := 2 ^ 36
/-- 2^35 uses set KEY_NEAR (R365). -/
abbrev keyNearAt : Nat := 2 ^ 35

/-- The key switch that precedes a segment (R366): a SWITCH that waits, or a spent key, with a VALID next slot. -/
def keyForSegment (s : State) (k : Nat) : State :=
  let a := keySlot s (activeSlot s k)
  let n := keySlot s (nextSlot s k)
  if ((thmSess s k).switchReq ∨ keyLimit ≤ a.use) ∧ n.state = .valid then keySwitchNow s k else s

/-- Whether a transmit key is at hand: no alarm, PD19 on, the active slot VALID and not spent (R364, R367, R375, R376). -/
def keyReady (s : State) (k : Nat) : Bool :=
  let a := keySlot s (activeSlot s k)
  !alarmLatched s && domOn s 19 && a.state == .valid && decide (a.use < keyLimit)

/-! ### Bulk lanes (R372, R373) -/

/-- The lane with the most bytes that an urgent segment may suspend (R373). -/
def laneVictim (s : State) (sess : Nat) : Option Nat :=
  (s.thm.lanes.foldl (fun (acc : Option (Nat × Nat)) e =>
    match e.2 with
    | some j =>
      if j.urgent || j.suspended || j.sess == sess then acc
      else match acc with
        | some (_, b) => if b < j.bytes then some (e.1, j.bytes) else acc
        | none => some (e.1, j.bytes)
    | none => acc) none).map Prod.fst

/-- A segment takes the free lane with the lowest number; without one an urgent segment suspends a lane, counted, and
any other takes the next lane that frees (R372, R373; log 14). -/
def laneTake (s : State) (sess : Nat) (urgent : Bool) (bytes : Nat) : State :=
  let put := fun (i : Nat) (j : LaneJob) =>
    { s with thm := { s.thm with lanes := tabSet none s.thm.lanes i (some j) } }
  match (List.range 96).find? (fun i => (tabGet none s.thm.lanes i).isNone) with
  | some i => put i ⟨sess, urgent, bytes, false⟩
  | none =>
    match (if urgent then laneVictim s sess else none) with
    | some i =>
      match tabGet none s.thm.lanes i with
      | some j => ctrInc (put i { j with suspended := true }) .THM_CNT_PREEMPT 0
      | none => s
    | none => s

/-! ### Using a key (R365, R290) -/

/-- One transmission under the active key: its TXC, its use counted, KEY_NEAR at 2^35, KEY_STOP at 2^36 with no VALID
next key (R290, R365-R367).  The counter restarts at 0 only for a key loaded since the session last transmitted that was
not VALID at a takeover (R290). -/
def keyUseOne (s : State) (k : Nat) (urgent : Bool) (bytes : Nat) : Nat × State :=
  let i := activeSlot s k
  let a := keySlot s i
  let x := selvGet s k
  let txc := if a.fresh && !a.atTakeover then 0 else x.txc
  let u := a.use + 1
  let s := keySlotSet s i { a with use := u, fresh := false, near := a.near || u == keyNearAt }
  let n := keySlot s (nextSlot s k)
  let s := keySlotSet s (nextSlot s k) { n with fresh := false }
  let s := selvSet s k { x with txc := txc + 1 }
  let s := ctrInc (laneTake s k urgent bytes) .THM_CNT_ENC_SEG 0
  let s := if u = keyNearAt ∧ !a.near then raiseEv s .THM_EVENT 0 1 else s
  let s := if keyLimit ≤ u ∧ n.state ≠ .valid then keyStop s k else s
  (txc, s)

/-! ### Verifying (R362, R368, R374) -/

/-- Which slot a received segment verifies under: 0 the active slot, 1 a VALID next slot, 2 a RETIRED slot, 3 none (R368). -/
def verifyBy (s : State) (k : Nat) (g : RxSegment) : Nat :=
  let fits := fun (q : KeySlot) => g.tagOk && g.key == q.key && g.salt == q.rxSalt
  let a := keySlot s (activeSlot s k)
  let n := keySlot s (nextSlot s k)
  if a.state = .valid ∧ fits a then 0
  else if n.state = .valid ∧ fits n then 1
  else if n.state = .retired ∧ fits n then 2
  else if a.state = .retired ∧ fits a then 2
  else 3

/-- The slot whose key verified. -/
def verifiedSlot (s : State) (k w : Nat) : Nat :=
  if w = 0 then activeSlot s k
  else if w = 2 ∧ (keySlot s (nextSlot s k)).state ≠ .retired then activeSlot s k
  else nextSlot s k

/-! ### Commands on keys -/

/-- THM_SESS_CMD.SWITCH: the switch applies to the next segment that starts; without a VALID next slot it is ignored
and counted (R366). -/
def switchCmd (s : State) (k : Nat) : State :=
  if (keySlot s (nextSlot s k)).state = .valid then thmSessSet s k { thmSess s k with switchReq := true }
  else ctrInc s .THM_CNT_SWITCH_REFUSED 0

/-- THM_SESS_CMD.CLEAR_RETIRED: a RETIRED slot of the session becomes EMPTY (R368). -/
def clearRetiredCmd (s : State) (k : Nat) : State :=
  let one := fun (s : State) (i : Nat) => if (keySlot s i).state = .retired then keySlotSet s i keySlotReset else s
  one (one s (2 * k)) (2 * k + 1)

/-- THM_KLD_CMD.GO: BUSY is set at once; while a load of the group is in progress the new one is refused, counted, with the result of the
first check of R371 that fails, 0x08 at the latest (R370, R371; log 15). -/
def goCmd (s : State) (g : Nat) : State :=
  let q := keyGroup s g
  if q.busy then
    ctrInc (keyGroupSet s g { q with result := if alarmLatched s then 7 else if q.kek.isNone then 6 else 8 }) .THM_CNT_KLD_REFUSED 0
  else keyGroupSet s g { q with busy := true }

/-- The function whose vector 4 a key load of a group raises (R408): group 16 is the physical function's, which has none. -/
def kldVector (s : State) (g : Nat) : State := if g < 16 then irqRaise s (vfFn g) 4 else s

/-- The fields of a load's 48 B plaintext (R370). -/
structure KeyLoad where
  key : BitVec 256
  txSalt : Word
  rxSalt : Word
  sess : Nat
  slot : Nat
  resvOk : Bool
  seq : Word
  deriving DecidableEq, Repr

/-- Parses the plaintext of a key load, big-endian (R370). -/
def parseKeyLoad (p : List Byte) : KeyLoad :=
  let ss := beNat (slice p 40 2)
  let sl := beNat (slice p 42 1)
  { key := BitVec.ofNat 256 (beNat (slice p 0 32)), txSalt := BitVec.ofNat 32 (beNat (slice p 32 4)),
    rxSalt := BitVec.ofNat 32 (beNat (slice p 36 4)), sess := ss % 4096, slot := sl % 2,
    resvOk := ss < 4096 && sl < 2 && beNat (slice p 43 1) == 0, seq := BitVec.ofNat 32 (beNat (slice p 44 4)) }

/-- The session holds its active slot: ADMIT, OPENING, OPEN or CLOSING (R371, check 0x03). -/
def slotHeld (s : State) (k : Nat) : Bool :=
  match (selvGet s k).state with
  | .admission | .opening | .open | .closing => true
  | _ => false

/-- The result of a load, by the checks of R371 in their order (0x08 is GO's). -/
def keyLoadResult (s : State) (g : Nat) (plain : Option (List Byte)) : Nat :=
  let q := keyGroup s g
  if alarmLatched s then 7
  else if q.kek.isNone then 6
  else match plain with
  | none => 1
  | some p =>
    let l := parseKeyLoad p
    if !l.resvOk ∨ l.txSalt = l.rxSalt then 5
    else if g ≠ 16 ∧ sessPanel s l.sess ≠ some g then 2
    else if l.seq.toNat ≤ q.seq.toNat then 4
    else if activeSlot s l.sess = 2 * l.sess + l.slot ∧ slotHeld s l.sess then 3
    else 0

/-- KEYWAIT ends when the active slot is VALID: the session enters ADMIT behind those already there (R299, R300). -/
def keyWaitEnd (s : State) (k : Nat) : State :=
  let x := selvGet s k
  if x.state = .keywait ∧ (keySlot s (activeSlot s k)).state = .valid then
    let s := selvSet s k { x with state := .admission }
    { s with selv := { s.selv with admission := s.selv.admission ++ [k] } }
  else s

/-- KEY_STOP ends when a key is loaded: the session switches to a key in the next slot, or uses the key that replaced
the spent one, and returns to its previous state; one that was to be admitted waits for it again (R300, R367). -/
def keyStopEnd (s : State) (k i : Nat) : State :=
  if (selvGet s k).state = .keyStop then
    let s := if i = nextSlot s k then keySwitchNow s k else s
    let x := selvGet s k
    let s := selvSet s k { x with state := x.prev }
    if x.prev = .admission ∧ !s.selv.admission.contains k then { s with selv := { s.selv with admission := s.selv.admission ++ [k] } } else s
  else s

/-- KEY_LOAD_COMPLETE: the load is unwrapped (`plain`, none where the KW integrity check fails) and checked; an accepted
load writes its slot as VALID with KEY_USE 0, and BUSY clears with the result (R370, R371). -/
def keyLoadDone (s : State) (g : Nat) (plain : Option (List Byte)) : State :=
  let q := keyGroup s g
  if !q.busy then s
  else
    let r := keyLoadResult s g plain
    let s := keyGroupSet s g { q with busy := false, result := BitVec.ofNat 8 r }
    let s :=
      if r ≠ 0 then ctrInc s .THM_CNT_KLD_REFUSED 0
      else
        let l := parseKeyLoad (plain.getD [])
        let i := 2 * l.sess + l.slot
        let s := keySlotSet s i ⟨.valid, l.key, l.txSalt, l.rxSalt, 0, none, false, true, false⟩
        let s := keyGroupSet s g { keyGroup s g with seq := l.seq }
        let s := raiseEv s .THM_EVENT 0 4
        keyStopEnd (keyWaitEnd s l.sess) l.sess i
    kldVector s g

/-- Encapsulation for a group with an encapsulation key: a fresh KEK and ciphertext (free values), READY, THM_KLD_SEQ 0 (R369). -/
def encapsulate (s : State) (g : Nat) : State :=
  let q := keyGroup s g
  if q.hasEk then
    let n := s.fresh
    keyGroupSet { s with fresh := n + 1 } g { q with kek := some (Config.kek n), ct := some n, seq := 0 }
  else s

/-- Every key slot, KEK and ciphertext is erased (R375). -/
def eraseKeys (s : State) : State :=
  let groups := s.thm.groups.foldl (fun t e => tabSet ⟨false, none, none, 0, [], false, 0⟩ t e.1
    { e.2 with kek := none, ct := none }) s.thm.groups
  { s with thm := { s.thm with slots := [], groups := groups } }

/-- The alarm's effects (R375): keys erased, cause and LATCHED recorded, ALARM set, every session that is not CLOSED in
KEY_STOP, vector 4 of every virtual function as THM_ALARM latches (R408; log 89).  While PORST_N is asserted the latch clears at release, so nothing
happens (R491). -/
def alarm (s : State) (cause : Nat) : State :=
  if s.boot.porst then s
  else
    let was := alarmLatched s
    let s := eraseKeys s
    let a := BitVec.ofNat 32 (pow2 cause + pow2 31)
    let s := raiseEv { s with thm := { s.thm with alarm := s.thm.alarm ||| a } } .THM_EVENT 0 0
    let s := (tabKeys s.selv.sess).foldl (fun s k =>
      let x := selvGet s k
      if x.state = .closed ∨ x.state = .keyStop then s else selvSet s k { x with state := .keyStop, prev := x.state }) s
    if was then s else (List.range 16).foldl (fun s n => irqRaise s (vfFn n) 4) s

/-- Both key slots of a session become EMPTY (R405). -/
def sessKeysReset (s : State) (k : Nat) : State :=
  thmSessSet (keySlotSet (keySlotSet s (2 * k) keySlotReset) (2 * k + 1) keySlotReset) k ⟨(thmSess s k).active1, 0, false⟩

/-- Panel reset's part (R369, R405): the panel's key slots become EMPTY, those of a session still sending its CLOSEs once it has sent them (R303; log 64), and its
KEK and ciphertext go; the KEK is renewed as the reset ends. -/
def panelKeysReset (s : State) (p : Nat) : State :=
  let s := ((sessionsOf s p).filter (fun k => (selvGet s k).state != .closing)).foldl sessKeysReset s
  keyGroupSet s p { keyGroup s p with kek := none, ct := none }

/-- THM_SESS_KEY (R378). -/
def sessKeyWord (s : State) (k : Nat) : Word :=
  let code := fun (q : KeySlot) => match q.state with
    | .empty => 0
    | .valid => 1
    | .retired => 2
  let t := thmSess s k
  BitVec.ofNat 32 (t.tagFail * pow2 16 + b2n (keySlot s (activeSlot s k)).near * 256
    + code (keySlot s (2 * k + 1)) * 16 + code (keySlot s (2 * k)) * 4 + b2n t.active1)

/-- A session is urgent (R373). -/
def sessUrgent (s : State) (k : Nat) : Bool := regBit s .THM_SESS_CFG k 0

end Sys2Proof.Machine
end

