-- ==== Sys2Proof/Machine/Selvedge.lean ====
section
/-! DEFINITION. Selvedge transport (09_selvedge_transport): segments sent and received, acknowledgement, retransmission,
opening and closing, twin standby. -/

namespace Sys2Proof.Machine

/-! ### Serial numbers (R288, R291) -/

/-- a precedes b in 32-bit serial-number arithmetic (R288). -/
def precedes (a b : Word) : Bool := let d := (b - a).toNat; decide (1 ≤ d ∧ d ≤ 2 ^ 31 - 1)

/-- a precedes b in 16-bit serial-number arithmetic (R291). -/
def precedes16 (a b : BitVec 16) : Bool := let d := (b - a).toNat; decide (1 ≤ d ∧ d ≤ 2 ^ 15 - 1)

/-! ### Configuration -/

/-- SELV_SESS_CFG.VALID. -/
def sessValid (s : State) (k : Nat) : Bool := regBit s .SELV_SESS_CFG k 31
/-- SELV_SESS_CFG.PANEL. -/
def sessPanelNo (s : State) (k : Nat) : Nat := regBf s .SELV_SESS_CFG k 30 27
/-- SELV_SESS_CFG.KIND: 0 SPAN, 1 FRAME. -/
def sessKind (s : State) (k : Nat) : Nat := regBf s .SELV_SESS_CFG k 26 25
/-- RTX_MAX (R310). -/
def rtxMax (s : State) (k : Nat) : Nat := regBf s .SELV_SESS_STALL k 23 16

/-- A session event; FAULT sets SELV_EVENT.SESS_FAULT too. -/
def sessEvent (s : State) (k b : Nat) : State := raiseEv s .SELV_SESS_EVENT k b

/-- The state a session receives in: a stopped one receives as before (R367). -/
def recvState (x : SelvSess) : SessState := if x.state = .keyStop then x.prev else x.state

/-- A SPAN session takes chunks: configured, open or being opened; one that is CLOSED, CLOSING or in FAULT takes none (R282, R298, R302, R303). -/
def sessTakes (s : State) (k : Nat) : Bool :=
  let st := recvState (selvGet s k)
  sessValid s k && sessKind s k == 0 && (st == .keywait || st == .admission || st == .opening || st == .open)

/-! ### Retransmit slots (R268, R289) -/

/-- Slots the device may hold: those of the region, and the cap of R11. -/
def slotLimit (s : State) : Nat := min (s.mem.rtxGiB * gib / 8320) (2 ^ 24 * (hbmStacks s).length / 8)

/-- The lowest free slots, `n` of them, when so many are free. -/
def slotsTake (s : State) (n : Nat) : Option (List Nat × State) :=
  if slotLimit s < s.selv.slots.length + n then none
  else
    let ids := (List.range (s.selv.slots.length + n)).filter (fun i => !s.selv.slots.contains i)
    let got := ids.take n
    some (got, { s with selv := { s.selv with slots := got.foldl (fun l i => insertRising i l) s.selv.slots } })

/-- Slots freed. -/
def slotsFree (s : State) (l : List Nat) : State :=
  { s with selv := { s.selv with slots := s.selv.slots.filter (fun i => !l.contains i) } }

/-! ### Discarding (R301-R303) -/

/-- Every segment of a session that holds a slot. -/
def sessSegs (x : SelvSess) : List DataSeg := x.openSeg.toList ++ x.queue ++ x.held.map (fun h => h.seg)

/-- Everything a session holds is discarded, in both directions, with its slots; `count` says whether the transmit segments count
in SELV_CNT_GEN_DISCARD. -/
def sessDiscard (s : State) (k : Nat) (count : Bool) : State :=
  let x := selvGet s k
  let l := sessSegs x
  let s := slotsFree s (l.map (fun g => g.slot))
  let s := if count then ctrAdd s .SELV_CNT_GEN_DISCARD 0 l.length else s
  selvSet s k { x with openSeg := none, queue := [], held := [], store := [], parts := [], dlv := 0, stream := [], resync := false }

/-- A session leaves the admission queue. -/
def admitDrop (s : State) (k : Nat) : State := { s with selv := { s.selv with admission := s.selv.admission.filter (· != k) } }

/-- A session enters FAULT (R302). -/
def sessFault (s : State) (k cause : Nat) : State :=
  let s := admitDrop (sessDiscard s k true) k
  let s := selvSet s k { selvGet s k with state := .fault, prev := .fault, fcause := BitVec.ofNat 8 cause }
  raiseEv (sessEvent s k 0) .SELV_EVENT 0 0

/-- A session enters CLOSED (R303). -/
def sessClosed (s : State) (k : Nat) : State :=
  let s := admitDrop (sessDiscard s k false) k
  sessEvent (selvSet s k { selvGet s k with state := .closed, prev := .closed, closesLeft := 0 }) k 2

/-- A session that has closed in a reset of its panel: its key slots become EMPTY (R405; log 64). -/
def closedKeys (s : State) (k : Nat) : State := if (panelGet s (sessPanelNo s k)).state = .resetting then sessKeysReset s k else s

/-- SEQ restarts at 0 in both directions under a generation. -/
def seqRestart (x : SelvSess) : SelvSess :=
  { x with sndNxt := 0, sndUna := 0, rcvNxt := 0, rcvExp := 0, rwndEnd := 0, peerRwnd := 0, accepted := 0 }

/-! ### Transmitting (R283, R284, R288-R290, R305) -/

/-- RWND_END: RCVNXT plus the smaller of the window and the room left in the store, never moving backward (R294). -/
def rwndNow (s : State) (k : Nat) : Word :=
  let x := selvGet s k
  let room := min (regBf s .SELV_SESS_WIN k 24 0) (Config.recvStore k - x.store.length)
  let r := x.rcvNxt + BitVec.ofNat 32 room
  if precedes x.rwndEnd r then r else x.rwndEnd

/-- The initial RWND_END, which every OPEN carries (R294, R299). -/
def rwndFirst (s : State) (k : Nat) : Word := BitVec.ofNat 32 (min (regBf s .SELV_SESS_WIN k 24 0) (Config.recvStore k))

/-- This gateway is the active of a twin pair (R304). -/
def twinActive (s : State) : Bool := regBit s .SELV_TWIN_CFG 0 31 && !regBit s .SELV_TWIN_CFG 0 30

/-- The TXC that a session's next transmission takes (R290). -/
def nextTxc (s : State) (k : Nat) : Nat :=
  let a := keySlot s (activeSlot s k)
  if a.fresh && !a.atTakeover then 0 else (selvGet s k).txc

/-- The twin's acknowledged reservation covers the next transmission; with none the active transmits nothing, but after a takeover until a copy of
its own is acknowledged (R305, R306; log 79). -/
def resvOk (s : State) (k : Nat) : Bool :=
  !twinActive s || (match (selvGet s k).resv with
    | some r => decide (nextTxc s k < r)
    | none => s.selv.twin.alone)

/-- A segment may start on a session: key, reservation, line (R305, R320, R367). -/
def mayStart (s : State) (k : Nat) : Bool := keyReady s k && resvOk s k && lineReady s k

/-- Cells of a segment (R283). -/
def segCells (plen : Nat) : Nat := (80 + plen + 63) / 64

/-- The header of a segment of any type with a SEQ and a TXC (R284). -/
def segHdr (s : State) (k typ : Nat) (rtx : Bool) (seq : Word) (txc : Nat) (g : DataSeg) : SegHdr :=
  let x := selvGet s k
  { typ := typ, kind := sessKind s k, rtx := rtx, dst := regBf s .SELV_SESS_PEER k 11 0, src := k, gen := x.gen, seq := seq, txc := txc,
    cumAck := if typ = 3 then 0 else x.rcvExp, rwndEnd := if typ = 3 then rwndFirst s k else x.rwndEnd, plen := g.payload.length,
    part := g.part, npart := g.npart, fmt := g.fmt, coll := g.coll, epoch := g.epoch, firstChunk := g.firstChunk, present := g.present,
    cflags := if typ = 1 ∧ sessKind s k = 0 then g.cflags ++ List.replicate (16 - g.cflags.length) 0 else List.replicate 16 0,
    resvOk := true }

/-- Where a slot starts in the retransmit region (R268). -/
def rtxSlot (i : Nat) : Nat := rtxBase + i * 8320

/-- A segment is kept in its slot in whole cells, header and payload; the fields of a transmission and the tag are those of each (R268, R289,
R293). -/
def slotStore (s : State) (k : Nat) (g : DataSeg) : State :=
  hbmWrite s (rtxSlot g.slot) (segBytes (segHdr s k 1 false 0 0 g) ++ g.payload ++
    List.replicate (64 * segCells g.payload.length - 64 - g.payload.length) 0)

/-- A segment's payload, read from its slot; none where that is uncorrectable (R277, R293). -/
def slotRead (s : State) (g : DataSeg) : Option (List Byte) × State :=
  match hbmRead s (rtxSlot g.slot) (64 + g.payload.length) with
  | (none, s) => (none, s)
  | (some bs, s) => (some (bs.drop 64), s)

/-- A segment of any type leaves under a new TXC and the current key (R283, R290, R366). -/
def sendSegment (s : State) (k typ : Nat) (rtx : Bool) (seq : Word) (g : DataSeg) : State :=
  let s := keyForSegment s k
  let q := keySlot s (activeSlot s k)
  let s := selvSet s k { selvGet s k with rwndEnd := rwndNow s k }
  let cells := segCells g.payload.length
  let (txc, s) := keyUseOne s k (sessUrgent s k) (80 + g.payload.length)
  let hdr := segHdr s k typ rtx seq txc g
  let s := ctrInc (send s (.segment k hdr g.payload q.key q.txSalt)) .SELV_CNT_TX_SEG 0
  lineQueue (if rtx then ctrInc s .SELV_CNT_RTX_SEG 0 else s) k cells

/-- A segment with no chunk fields. -/
def bareSeg (payload : List Byte) : DataSeg := ⟨0, 0, 0, 0, 0, 0, 0, [], payload, 0, none, false⟩

/-- An ACK, OPEN, OPEN_ACK or CLOSE leaves where a segment may start; it takes no SEQ of its own (R284, R292).  An active twin
at its reservation sets RESV_WAIT instead (R305). -/
def sendCtl (s : State) (k typ : Nat) (payload : List Byte) : State :=
  let s := keyForSegment s k
  if mayStart s k then sendSegment s k typ false (if typ = 3 then 0 else (selvGet s k).sndNxt) (bareSeg payload)
  else if keyReady s k && lineReady s k && !resvOk s k then raiseEv s .SELV_EVENT 0 1
  else s

/-- The blocks of segments held beyond CUM_ACK, ascending: first SEQ and SEQ after the last (R292). -/
def sackBlocks (exp : Word) (l : List StoredSeg) : List (Word × Word) :=
  let offs := sortBy id ((l.map (fun g => (g.seq - exp).toNat)).filter (fun d => decide (d < 2 ^ 31)))
  let blocks := offs.foldl (fun (acc : List (Nat × Nat)) d =>
    match acc with
    | (a, b) :: t => if d = b then (a, b + 1) :: t else if d < b then acc else (d, d + 1) :: acc
    | [] => [(d, d + 1)]) []
  blocks.reverse.map (fun p => (exp + BitVec.ofNat 32 p.1, exp + BitVec.ofNat 32 p.2))

/-- The payload of an ACK (R292). -/
def ackPayload (x : SelvSess) : List Byte :=
  let bl := (sackBlocks x.rcvExp x.store).take 256
  beBytes 2 bl.length ++ List.replicate 14 0 ++ bl.flatMap (fun p => beBytes 4 p.1.toNat ++ beBytes 4 p.2.toNat)

/-- A segment that `sendCtl` is given now leaves (R305, R320, R367). -/
def ctlGoes (s : State) (k : Nat) : Bool := mayStart (keyForSegment s k) k

/-- An ACK is sent; where it may not leave yet it stays due (R292). -/
def sendAck (s : State) (k : Nat) : State :=
  sendCtl (if ctlGoes s k then selvSet s k { selvGet s k with accepted := 0 } else s) k 2 (ackPayload (selvGet s k))

/-- An OPEN_ACK is sent, and noted where it has left (R299). -/
def sendOpenAck (s : State) (k : Nat) : State :=
  sendCtl (if ctlGoes s k then selvSet s k { selvGet s k with oackSent := true } else s) k 4 []

/-! ### Span windows (R185, R187, R296) -/

/-- A span window. -/
def spw (s : State) (g : Nat) : Spw := tabGet ⟨false, false, false, 0, 0⟩ s.spw g

/-- When an open window closes, in ns. -/
def spwClose (s : State) (g : Nat) : Nat := (spw s g).since + (spw s g).openFor

/-- A window carries a session's segments: open, of the session's panel (R185, R187). -/
def winOpen (s : State) (k g : Nat) : Bool := (spw s g).isOpen && regBf s .TM_SPW_CTRL g 11 8 == sessPanelNo s k

/-- A line group carries sessions of a collective whose span names an open window that holds TC0 back (R185). -/
def tc0Held (s : State) (grp : Nat) : Bool :=
  (List.range 16).any (fun w => (spw s w).isOpen && regBit s .TM_SPW_CTRL w 1 &&
    s.cco.colls.any (fun c => c.panel == regBf s .TM_SPW_CTRL w 11 8 && (match c.span with
      | some p => p.spw == w && (List.range p.nsites).any (fun j => j != p.siteIdx && regBf s .SELV_SESS_CFG (p.sessBase + j) 21 16 == grp)
      | none => false)))

/-- A SPAN segment may leave in a window: it is open, and the segment's cells can finish before the close (R185, R296). -/
def spanAllows (s : State) (k w : Nat) : Bool := winOpen s k w && fitsBefore s k (spwClose s w)

/-- The session transmits DATA: OPEN, or CLOSING for retransmissions (R299, R303). -/
def sessSends (x : SelvSess) : Bool := x.state == .open || x.state == .closing

/-- A span segment is ready on a line group: it may leave at the next boundary (R185). -/
def spanReady (s : State) (grp : Nat) : Bool :=
  (tabKeys s.selv.sess).any (fun k =>
    let x := selvGet s k
    sessKind s k == 0 && regBf s .SELV_SESS_CFG k 21 16 == grp && sessSends x && mayStart s k &&
    ((x.held.filter (fun h => h.due)).map (fun h => h.seg) ++ (if x.state == .open then x.queue.take 1 else [])).any (fun g =>
      g.win.any (spanAllows s k)))

/-- TC0 bytes may leave on a session: its line group is not held for a span window, and no span segment is ready there (R185). -/
def tc0Goes (s : State) (k : Nat) : Bool :=
  let grp := regBf s .SELV_SESS_CFG k 21 16
  !tc0Held s grp && !spanReady s grp

/-- A DATA segment may leave now: a SPAN session's in its window, a FRAME session's unless it carries TC0 bytes that a window holds back (R185, R296;
log 50). -/
def winAllows (s : State) (k : Nat) (g : DataSeg) : Bool :=
  match g.win with
  | some w => spanAllows s k w
  | none => !g.tc0 || tc0Goes s k

/-! ### Open segments (R285-R287, R289) -/

/-- An open segment is sealed: it joins the queue. -/
def sealOpen (s : State) (k : Nat) : State :=
  let x := selvGet s k
  match x.openSeg with
  | some g => slotStore (selvSet s k { x with openSeg := none, queue := x.queue ++ [g] }) k g
  | none => s

/-- Pieces of `n` bytes. -/
def chop (n : Nat) : Nat → List Byte → List (List Byte)
  | 0, _ => []
  | f + 1, bs => if bs.isEmpty then [] else bs.take n :: chop n f (bs.drop n)

/-- A chunk fits an open segment (R285). -/
def joins (g : DataSeg) (coll : Word) (epoch chunk fmt n : Nat) : Bool :=
  g.npart == 1 && g.coll == coll && g.epoch == epoch && g.fmt == fmt && decide (g.firstChunk ≤ chunk ∧ chunk ≤ g.firstChunk + 15) &&
  !g.present.getLsbD (chunk - g.firstChunk) && decide (g.payload.length + n ≤ 8192)

/-- Chunks of an open segment stay in ascending index: where a chunk's bytes and flags go. -/
def joinAt (g : DataSeg) (chunk : Nat) : Nat :=
  ((List.range (chunk - g.firstChunk)).filter (fun i => g.present.getLsbD i)).length

/-- Slots a chunk of `n` bytes needs on a session: none where the session takes no chunks. -/
def chunkSlots (s : State) (k : Nat) (coll : Word) (epoch chunk fmt n : Nat) : Nat :=
  if !sessTakes s k then 0
  else if 8192 < n then (n + 8191) / 8192
  else match (selvGet s k).openSeg with
  | some g => if joins g coll epoch chunk fmt n then 0 else 1
  | none => 1

/-- The narrowed stream of a chunk joins a session: the open segment where it fits, a new one otherwise, its own parts where it
exceeds 8,192 B (R285, R286).  The slots have been found free.  A session that takes no chunks discards it, in FAULT counted like the segments
that it held (R282, R302, R303; log 80). -/
def chunkEnter (s : State) (k : Nat) (coll : Word) (epoch chunk fmt : Nat) (flags : Byte) (bytes : List Byte) (win : Nat) : State :=
  let n := bytes.length
  let x := selvGet s k
  if !sessTakes s k then (if recvState x = .fault then ctrAdd s .SELV_CNT_GEN_DISCARD 0 ((n + 8191) / 8192) else s)
  else if 8192 < n then
    let ps := chop 8192 (n / 8192 + 1) bytes
    match slotsTake (sealOpen s k) ps.length with
    | none => s
    | some (ids, s) =>
      let segs := (ps.zip ids).zipIdx.map (fun p =>
        (⟨coll, epoch, chunk, 1, fmt, p.2, ps.length, [flags], p.1.1, p.1.2, some win, false⟩ : DataSeg))
      let x := selvGet s k
      segs.foldl (fun s g => slotStore s k g) (selvSet s k { x with queue := x.queue ++ segs })
  else
    let fresh := fun (s : State) =>
      match slotsTake s 1 with
      | some ([i], s) => selvSet s k { selvGet s k with openSeg := some ⟨coll, epoch, chunk, 1, fmt, 0, 1, [flags], bytes, i, some win, false⟩ }
      | _ => s
    match x.openSeg with
    | some g =>
      if joins g coll epoch chunk fmt n then
        let i := joinAt g chunk
        let pos := if i = g.cflags.length then g.payload.length else i * n
        selvSet s k { x with openSeg := some { g with
          present := g.present ||| BitVec.ofNat 16 (pow2 (chunk - g.firstChunk)),
          cflags := g.cflags.take i ++ [flags] ++ g.cflags.drop i,
          payload := g.payload.take pos ++ bytes ++ g.payload.drop pos } }
      else fresh (sealOpen s k)
    | none => fresh s

/-- Bytes of a FRAME session's stream enter segments, each sealed at 8,192 B; `tc0` says that they are of TC0 (R287). -/
def streamEnter (k : Nat) (tc0 : Bool) : Nat → State → List Byte → State
  | 0, s, _ => s
  | f + 1, s, bs =>
    if bs.isEmpty then s
    else match (selvGet s k).openSeg with
    | some g =>
      let room := 8192 - g.payload.length
      let s := selvSet s k { selvGet s k with openSeg := some { g with payload := g.payload ++ bs.take room, tc0 := g.tc0 || tc0 } }
      let s := if room ≤ bs.length then sealOpen s k else s
      streamEnter k tc0 f s (bs.drop room)
    | none =>
      match slotsTake s 1 with
      | some ([i], s) => streamEnter k tc0 f (selvSet s k { selvGet s k with openSeg := some { bareSeg [] with slot := i } }) bs
      | _ => s

/-- Slots that `n` bytes of a FRAME session's stream need beyond its open segment. -/
def streamSlots (s : State) (k n : Nat) : Nat :=
  let room := match (selvGet s k).openSeg with
    | some g => 8192 - g.payload.length
    | none => 0
  (n - room + 8191) / 8192

/-- A frame enters a FRAME session behind its descriptor: it waits in its VOQ while the session is not OPEN, while no slot is free or fewer than it needs,
and of TC0 while a span window holds its line group (R185, R287, R289; log 50); whether it did. -/
def frameEnter (s : State) (k cls : Nat) (data : List Byte) : Bool × State :=
  let bs := beBytes 4 (data.length + cls * pow2 14) ++ data
  if (selvGet s k).state ≠ .open ∨ slotLimit s < s.selv.slots.length + max 1 (streamSlots s k bs.length) ∨
      (cls = 0 ∧ tc0Held s (regBf s .SELV_SESS_CFG k 21 16)) then (false, s)
  else (true, streamEnter k (cls == 0) 8 s bs)

/-! ### SEGMENT_TRANSMIT (R288-R290, R293, R296) -/

/-- A held segment is sent again, read from its slot; an uncorrectable read or RTX_MAX faults the session (R293, R302).  Nothing
happens while the segment may not leave. -/
def retransmit (s : State) (k : Nat) (seq : Word) : State :=
  let x := selvGet s k
  match x.held.find? (fun h => h.seq == seq) with
  | none => s
  | some h =>
    if rtxMax s k < h.sent then sessFault s k 2
    else
      let s := keyForSegment s k
      if !sessSends x || !mayStart s k || !winAllows s k h.seg then
        selvSet s k { selvGet s k with held := (selvGet s k).held.map (fun g => if g.seq == seq then { g with due := true } else g) }
      else match slotRead s h.seg with
      | (none, s) => sessFault s k 4
      | (some bs, s) =>
        let s := selvSet s k { selvGet s k with held := (selvGet s k).held.map (fun g =>
          if g.seq == seq then { g with due := false, sent := g.sent + 1, lastUs := s.localUs } else g) }
        sendSegment s k 1 true seq { h.seg with payload := bs }

/-- The head of the queue is sent for the first time under the next SEQ, read from its slot; an uncorrectable read faults the session (R277, R288,
R289, R302). -/
def transmitNew (s : State) (k : Nat) : State :=
  let x := selvGet s k
  match x.queue with
  | [] => s
  | g :: t =>
    let win := BitVec.ofNat 32 (regBf s .SELV_SESS_WIN k 24 0)
    if x.state ≠ .open ∨ !precedes x.sndNxt (x.sndUna + win) ∨ !precedes x.sndNxt x.peerRwnd ∨ !winAllows s k g then s
    else match slotRead s g with
    | (none, s) => sessFault s k 4
    | (some bs, s) =>
      let seq := x.sndNxt
      let s := selvSet s k { x with queue := t, sndNxt := seq + 1, held := x.held ++ [⟨seq, g, s.localUs, 1, false⟩] }
      sendSegment s k 1 false seq { g with payload := bs }

/-- The span window of an open segment is about to close: no second segment would fit after one sent now (R285). -/
def nearClose (s : State) (k : Nat) : Bool :=
  match (selvGet s k).openSeg with
  | some g => (match g.win with
    | some w =>
      let c := spwClose s w
      winOpen s k w && fitsBefore s k c && !fitsBefore s k (c - (c - nowNs s) / 2)
    | none => false)
  | none => false

/-- A held SELV_SESS_CFG or parameter of the session takes effect at a segment boundary, and with it the acknowledgement settings of all
sessions (R309, R399). -/
def sessBoundary (s : State) (k : Nat) : State :=
  [Rid.SELV_SESS_CFG, .SELV_SESS_PEER, .SELV_SESS_RTT, .SELV_SESS_WIN, .SELV_SESS_STALL, .THM_SESS_CFG].foldl (fun s r =>
    applyHeld s r k (fun s v => regSet s r k v))
    ([Rid.SELV_ACK_CFG, .SELV_PACK_HOLD].foldl (fun s r => applyHeld s r 0 (fun s v => regSet s r 0 v)) s)

/-- SEGMENT_TRANSMIT: a retransmission that is due, lowest SEQ first, or else a new segment, at a boundary where one may start. -/
def execSegmentTransmit (sess : Nat) (s : State) : Result :=
  .next <|
    let s := sessBoundary s sess
    let s := keyForSegment (if nearClose s sess then sealOpen s sess else s) sess
    if !sessSends (selvGet s sess) then s
    else if !mayStart s sess then
      (if keyReady s sess && lineReady s sess && !resvOk s sess then raiseEv s .SELV_EVENT 0 1 else s)
    else
      let x := selvGet s sess
      match x.held.find? (fun h => h.due && winAllows s sess h.seg) with
      | some h => retransmit s sess h.seq
      | none => transmitNew s sess

/-- PACK_HOLD_EXPIRY: the open segment is sealed (R285, R287). -/
def execPackHoldExpiry (sess : Nat) (s : State) : Result := .next (sealOpen s sess)

/-- RTX_TIMER_EXPIRY: a held segment is sent again, or the session faults (R293, R302). -/
def execRtxTimerExpiry (sess : Nat) (seq : Word) (s : State) : Result :=
  .next <| if sessSends (selvGet s sess) then retransmit s sess seq else s

/-- ACK_TIMER_EXPIRY: an ACK when DATA has been accepted since the last (R292). -/
def execAckTimerExpiry (sess : Nat) (s : State) : Result :=
  .next <| if 0 < (selvGet s sess).accepted then sendAck s sess else s

/-- STALL_TIMEOUT: a session with segments outstanding faults; one that drains ends its drain (R302, R303). -/
def execStallTimeout (sess : Nat) (s : State) : Result :=
  .next <|
    let x := selvGet s sess
    if x.state = .closing then sessDiscard s sess false
    else if x.state = .open ∧ !x.held.isEmpty then sessFault s sess 1
    else s

/-! ### Receiving (R291, R301) -/

/-- Check 1 of R291. -/
def segWf (g : RxSegment) : Bool :=
  let h := g.hdr
  g.cells == segCells h.plen && g.payload.length == h.plen && decide (h.plen ≤ 8192) && h.resvOk && decide (1 ≤ h.typ ∧ h.typ ≤ 5) &&
  decide (h.kind ≤ 1)

/-- A newer generation is adopted (R301); an OPEN session moves to OPENING. -/
def adoptGen (s : State) (k : Nat) (gen : BitVec 16) : State :=
  let s := sessDiscard s k true
  let x := selvGet s k
  let st := if recvState x = .open then SessState.opening else recvState x
  let x := seqRestart { x with gen := gen, oackSent := false, oackRecv := false }
  let x := if x.state = .keyStop then { x with prev := st } else { x with state := st }
  sessEvent (selvSet s k x) k 3

/-- CUM_ACK and RWND_END of a segment (R291, R293): slots up to CUM_ACK free. -/
def ackTake (s : State) (k : Nat) (h : SegHdr) : State :=
  let x := selvGet s k
  let x := if precedes x.peerRwnd h.rwndEnd then { x with peerRwnd := h.rwndEnd } else x
  let ok := precedes x.sndUna h.cumAck && (h.cumAck == x.sndNxt || precedes h.cumAck x.sndNxt)
  if !ok then selvSet s k x
  else
    let (gone, left) := x.held.partition (fun q => precedes q.seq h.cumAck)
    slotsFree (selvSet s k { x with sndUna := h.cumAck, held := left }) (gone.map (fun q => q.seg.slot))

/-- A tag that verifies under no key: counted; at 16 in a row, where the session's count stays until a segment verifies, the session enters FAULT and
TAG_FAULT is set (R374, R378; log 89). -/
def tagFailed (s : State) (k : Nat) : State :=
  let s := ctrInc (ctrInc s .SELV_CNT_TAG_FAIL 0) .THM_CNT_TAG_FAIL 0
  let t := thmSess s k
  let s := thmSessSet s k { t with tagFail := min 16 (t.tagFail + 1) }
  if t.tagFail = 15 then raiseEv (sessFault s k 3) .THM_EVENT 0 5 else s

/-- Checks 1 to 5 of R291 with what follows them: the session, and the state, when the segment passes. -/
def recvChecks (s : State) (g : RxSegment) : Option Nat × State :=
  let h := g.hdr
  let s := ctrInc s .SELV_CNT_RX_SEG 0
  let k := h.dst
  let x := selvGet s k
  let st := recvState x
  if !segWf g then (none, ctrInc s .SELV_CNT_RX_BAD 0)
  else if !((st == .opening || st == .open || st == .closing) && regBf s .SELV_SESS_PEER k 11 0 == h.src && sessValid s k) then
    (none, if h.typ = 3 ∧ (st = .closed ∨ st = .keywait ∨ st = .admission) then ctrInc s .SELV_CNT_EARLY 0 else ctrInc s .SELV_CNT_RX_NOSESS 0)
  else if alarmLatched s ∨ !domOn s 19 then (none, ctrInc s .THM_CNT_NOKEY 0)
  else
    let w := verifyBy s k g
    if w = 3 then (none, tagFailed s k)
    else
      let s := ctrInc s .THM_CNT_DEC_SEG 0
      let i := verifiedSlot s k w
      let q := keySlot s i
      let s := thmSessSet s k { thmSess s k with tagFail := 0 }
      if precedes16 h.gen x.gen then (none, ctrInc s .SELV_CNT_OLD_GEN 0)
      else if (match q.hiTxc with
        | some t => decide (h.txc ≤ t)
        | none => false) then (none, ctrInc s .SELV_CNT_REPLAY 0)
      else
        let s := keySlotSet s i { q with hiTxc := some h.txc }
        let s := if w = 1 then keySwitchNow s k else s
        let wasOpen := recvState (selvGet s k) == .open
        let newer := precedes16 x.gen h.gen
        let s := if newer then adoptGen s k h.gen else s
        let s := ackTake s k h
        (some k, if newer && wasOpen && h.typ != 3 then sendOpenAck s k else s)

/-- A session that has sent and received OPEN_ACK is OPEN (R299). -/
def openIfDone (s : State) (k : Nat) : State :=
  let x := selvGet s k
  if recvState x = .opening ∧ x.oackSent ∧ x.oackRecv then
    sessEvent (selvSet s k (if x.state = .keyStop then { x with prev := .open } else { x with state := .open })) k 1
  else s

/-- OPEN: answered with OPEN_ACK; a KIND that differs faults the session (R299, R302). -/
def execOpenSegment (seg : RxSegment) (s : State) : Result :=
  .next <|
    if seg.hdr.typ ≠ 3 then s
    else match recvChecks s seg with
    | (none, s) => s
    | (some k, s) =>
      if seg.hdr.kind ≠ sessKind s k then sessFault s k 5
      else openIfDone (sendOpenAck s k) k

/-- OPEN_ACK: with one sent as well the session is OPEN (R299). -/
def execOpenAck (seg : RxSegment) (s : State) : Result :=
  .next <|
    if seg.hdr.typ ≠ 4 then s
    else match recvChecks s seg with
    | (none, s) => s
    | (some k, s) => openIfDone (selvSet s k { selvGet s k with oackRecv := true }) k

/-- CLOSE: the queue discarded, CLOSE sent once, CLOSED (R303). -/
def execCloseSegment (seg : RxSegment) (s : State) : Result :=
  .next <|
    if seg.hdr.typ ≠ 5 then s
    else match recvChecks s seg with
    | (none, s) => s
    | (some k, s) => closedKeys (sessClosed (sendCtl s k 5 []) k) k

/-- The SACK blocks of an ACK. -/
def ackBlocks (p : List Byte) : List (Word × Word) :=
  (List.range (min 256 (beNat (slice p 0 2)))).map (fun i =>
    (BitVec.ofNat 32 (beNat (slice p (16 + 8 * i) 4)), BitVec.ofNat 32 (beNat (slice p (20 + 8 * i) 4))))

/-- A SEQ lies in a block. -/
def inBlock (b : Word × Word) (q : Word) : Bool := (q == b.1 || precedes b.1 q) && precedes q b.2

/-- SEQs of the blocks that lie above a SEQ. -/
def above (bl : List (Word × Word)) (q : Word) : Nat :=
  (bl.map (fun b => if precedes q b.1 then (b.2 - b.1).toNat else if inBlock b q then (b.2 - q).toNat - 1 else 0)).sum

/-- ACK: slots covered by a block free; a gap with three higher SEQs received is sent again, unless sent within the last RTT
(R293). -/
def execAckSegment (seg : RxSegment) (s : State) : Result :=
  .next <|
    if seg.hdr.typ ≠ 2 then s
    else match recvChecks s seg with
    | (none, s) => s
    | (some k, s) =>
      let bl := ackBlocks seg.payload
      let x := selvGet s k
      let (gone, left) := x.held.partition (fun q => bl.any (fun b => inBlock b q.seq))
      let s := slotsFree (selvSet s k { x with held := left }) (gone.map (fun q => q.seg.slot))
      let rtt := regBf s .SELV_SESS_RTT k 15 0
      (left.filter (fun q => decide (3 ≤ above bl q.seq ∧ q.lastUs + rtt ≤ s.localUs))).foldl (fun s q =>
        if sessSends (selvGet s k) then retransmit s k q.seq else s) s

/-- In-order bytes of a FRAME session's stream: whole frames leave for the switch core while cells are free; a bad descriptor drops
the rest of the segment and the stream resumes at the next segment that starts a frame (R287, R294). -/
def frameDeliver (k : Nat) : Nat → State → State
  | 0, s => s
  | f + 1, s =>
    let x := selvGet s k
    if x.stream.length < 4 then s
    else
      let d := beNat (slice x.stream 0 4)
      let n := d % pow2 14
      if pow2 17 ≤ d ∨ n < 64 ∨ 9216 < n then
        selvSet (ctrInc s .SELV_CNT_RX_BAD 0) k { x with stream := [], resync := true }
      else if x.stream.length < 4 + n ∨ cellsLeft s < cellsOf n then s
      else
        let s := selvSet s k { x with stream := x.stream.drop (4 + n) }
        frameDeliver k f (forward s (0x200 + sessPanelNo s k) (d / pow2 14 % 8) (slice x.stream 4 n) true)

/-- A whole frame of a session's stream waits for cells (R294). -/
def streamBlocked (s : State) (k : Nat) : Bool :=
  let x := selvGet s k
  let n := beNat (slice x.stream 0 4) % pow2 14
  decide (4 ≤ x.stream.length ∧ 4 + n ≤ x.stream.length)

/-- In-order segments of a FRAME session join its stream; one is delivered, and RCVNXT passes it, once every frame that ends in it has left for the
switch core (R287, R294).  After a bad descriptor a segment is taken to start a frame when its first descriptor is in range. -/
def streamTake (k : Nat) : Nat → State → State
  | 0, s => s
  | f + 1, s =>
    let x := selvGet s k
    match x.store.find? (fun g => g.seq == x.rcvNxt) with
    | none => s
    | some g =>
      let d := beNat (slice g.payload 0 4)
      let starts := decide (d < pow2 17 ∧ 64 ≤ d % pow2 14 ∧ d % pow2 14 ≤ 9216)
      let st := if x.dlv ≠ 0 then x.stream else if x.resync && !starts then [] else x.stream ++ g.payload
      let s := frameDeliver k 256 (selvSet s k { x with stream := st, dlv := 1, resync := x.resync && (x.dlv != 0 || !starts) })
      if streamBlocked s k then s
      else
        let x := selvGet s k
        streamTake k f (selvSet s k { x with store := x.store.filter (fun h => h.seq != g.seq), rcvNxt := x.rcvNxt + 1, dlv := 0 })

/-- FRAME sessions whose delivery had to wait go on (R294). -/
def streamsOut (s : State) : State :=
  (tabKeys s.selv.sess).foldl (fun s k => if sessKind s k = 1 ∧ domOn s 18 then streamTake k (selvGet s k).store.length s else s) s

/-- The next SEQ expected after what is held. -/
def expAfter (l : List StoredSeg) : Nat → Word → Word
  | 0, e => e
  | f + 1, e => if l.any (fun g => g.seq == e) then expAfter l f (e + 1) else e

/-- Check 6 and what follows: an accepted DATA segment is held for delivery in order, and an ACK leaves after ACK_SEGS segments or at
a new gap (R291, R292, R294). -/
def dataTake (s : State) (k : Nat) (g : RxSegment) : State :=
  let x := selvGet s k
  let q := g.hdr.seq
  if precedes q x.rcvExp ∨ x.store.any (fun h => h.seq == q) then sendAck (ctrInc s .SELV_CNT_DUP 0) k
  else if !precedes q x.rwndEnd then ctrInc s .SELV_CNT_RX_DISCARD 0
  else
    let gap := q != x.rcvExp && !x.store.any (fun h => h.seq == q - 1)
    let store := x.store ++ [⟨q, g.hdr, g.payload⟩]
    let s := selvSet s k { x with store := store, rcvExp := expAfter store store.length x.rcvExp, accepted := x.accepted + 1 }
    let s := if sessKind s k = 1 then streamTake k store.length s else s
    if gap ∨ regBf s .SELV_ACK_CFG 0 23 16 ≤ (selvGet s k).accepted then sendAck s k else s

/-- DATA. -/
def execDataSegment (seg : RxSegment) (s : State) : Result :=
  .next <|
    if seg.hdr.typ ≠ 1 then s
    else match recvChecks s seg with
    | (none, s) => s
    | (some k, s) => dataTake s k seg

/-! ### Opening and closing (R298-R303) -/

/-- An open is requested (R299): from CLOSED or FAULT of a configured session; GEN rises by one except at the first open. -/
def openRequest (s : State) (k : Nat) : State :=
  let x := selvGet s k
  if !sessValid s k ∨ (x.state ≠ .closed ∧ x.state ≠ .fault) then s
  else
    let x := seqRestart { x with gen := if x.started then x.gen + 1 else x.gen, started := true, state := .keywait, prev := .keywait,
                                 oackSent := false, oackRecv := false, closesLeft := 0, fcause := 0 }
    keyWaitEnd (selvSet s k x) k

/-- SESS_OPEN. -/
def execSessOpen (req : Requester) (sess : Nat) (s : State) : Result :=
  .next <| guardWrite s req .SELV_SESS_CTRL sess fun s => openRequest s sess

/-- A session starts to close: CLOSE leaves three times once its drain has ended (R303). -/
def closeStart (s : State) (k : Nat) (drain : Bool) : State :=
  let x := selvGet s k
  if x.state = .closed ∨ x.state = .fault ∨ x.state = .closing then s
  else
    let s := admitDrop s k
    let s := if drain then s else sessDiscard s k false
    selvSet s k { selvGet s k with state := .closing, prev := .closing, closesLeft := 3 }

/-- SESS_CLOSE (R303). -/
def execSessClose (req : Requester) (sess : Nat) (s : State) : Result :=
  .next <| guardWrite s req .SELV_SESS_CTRL sess fun s => closeStart s sess true

/-- CLOSE_REPEAT: once nothing sent is unacknowledged, what remains is discarded and CLOSE leaves; after the third the session
is CLOSED (R303), and in a panel reset its key slots become EMPTY (R405; log 64). -/
def execCloseRepeat (sess : Nat) (s : State) : Result :=
  .next <|
    let x := selvGet s sess
    if x.state ≠ .closing ∨ !x.held.isEmpty then s
    else
      let s := sendCtl (sessDiscard s sess false) sess 5 []
      let x := selvGet s sess
      if x.closesLeft ≤ 1 then
        closedKeys (sessClosed s sess) sess
      else selvSet s sess { x with closesLeft := x.closesLeft - 1 }

/-- OPEN_REPEAT: OPEN is sent again in OPENING (R299). -/
def execOpenRepeat (sess : Nat) (s : State) : Result :=
  .next <| if (selvGet s sess).state = .opening then sendCtl s sess 3 [] else s

/-- SESSION_ADMIT: the first 256 sessions in ADMIT enter OPENING and send OPEN (R299, R300). -/
def execSessionAdmit (s : State) : Result :=
  .next <|
    let l := s.selv.admission.take 256
    let s := { s with selv := { s.selv with admission := s.selv.admission.drop 256 } }
    l.foldl (fun s k =>
      if (selvGet s k).state = .admission then sendCtl (selvSet s k { selvGet s k with state := .opening }) k 3 [] else s) s

/-- SELV_SESS_CFG_WRITE: refused whole when KIND, PANEL or LGRP changes while the session is not CLOSED; applied at the session's
next segment boundary, at once when CLOSED (R309, R311). -/
def execSelvSessCfgWrite (req : Requester) (sess : Nat) (value : Word) (s : State) : Result :=
  .next <| guardWrite s req .SELV_SESS_CFG sess fun s =>
    let old := regGet s .SELV_SESS_CFG sess
    let v := acceptWord .SELV_SESS_CFG (rwsBase s .SELV_SESS_CFG sess) value
    let closed := (selvGet s sess).state == .closed
    if !closed ∧ (bf v 30 25 ≠ bf old 30 25 ∨ bf v 21 16 ≠ bf old 21 16) then s
    else rwsPut s .SELV_SESS_CFG sess v closed (fun s v => regSet s .SELV_SESS_CFG sess v)

/-! ### Twin (R304-R307) -/

/-- A session's record of a copy (R304). -/
def twinRecord (s : State) (k : Nat) : TwinRec :=
  let resv := regBf s .SELV_TWIN_RESV 0 28 0
  { sess := k, gen := (selvGet s k).gen, cfg := regGet s .SELV_SESS_CFG k, peer := regGet s .SELV_SESS_PEER k,
    rtt := regGet s .SELV_SESS_RTT k, win := regGet s .SELV_SESS_WIN k, stall := regGet s .SELV_SESS_STALL k,
    keySel := BitVec.ofNat 8 (b2n (thmSess s k).active1 + 2 * b2n ((keySlot s (nextSlot s k)).state == .valid)),
    txcResv := nextTxc s k + resv, keyUse := (keySlot s (activeSlot s k)).use + resv }

/-- A record's 64 bytes, big-endian (R304). -/
def twinBytes (r : TwinRec) : List Byte :=
  beBytes 2 r.sess ++ beBytes 2 r.gen.toNat ++ beBytes 4 r.cfg.toNat ++ beBytes 4 r.peer.toNat ++ beBytes 4 r.rtt.toNat ++
  beBytes 4 r.win.toNat ++ beBytes 4 r.stall.toNat ++ [r.keySel] ++ List.replicate 7 0 ++ beBytes 8 r.txcResv ++ beBytes 8 r.keyUse ++
  List.replicate 16 0

/-- Groups of 128 records. -/
def datagrams : Nat → List TwinRec → List (List TwinRec)
  | 0, _ => []
  | f + 1, l => if l.isEmpty then [] else l.take 128 :: datagrams f (l.drop 128)

/-- The address of the twin: SELV_TWIN_IP (R304, R310). -/
def twinIp (s : State) : Nat := (List.range 4).foldl (fun a i => a * pow2 32 + (regGet s .SELV_TWIN_IP i).toNat) 0

/-- A twin datagram leaves for SELV_TWIN_IP and SELV_TWIN_PORT on TC5 (R304). -/
def twinSend (s : State) (typ count : Nat) (copySeq crc : Word) (recs : List TwinRec) : State :=
  let ip := twinIp s
  let port := regBf s .SELV_TWIN_CFG 0 15 0
  let body := twinBody typ count copySeq crc (recs.flatMap twinBytes)
  emitNet s (portPanel s (Config.route ip % 256)) ip 5 body (.twin ip port body) none

/-- TWIN_COPY_START: an unacknowledged copy is abandoned with TWIN_FAIL, and the next one leaves: records of the configured sessions,
then COMMIT (R304, R305). -/
def execTwinCopyStart (s : State) : Result :=
  .next <|
    if !twinActive s then s
    else
      let t := s.selv.twin
      let s := if t.busy then raiseEv s .SELV_EVENT 0 2 else s
      let n := t.copySeq + 1
      let recs := ((List.range 4096).filter (sessValid s)).map (twinRecord s)
      let s := (datagrams 33 recs).foldl (fun s l => twinSend s 1 l.length n 0 l) s
      let s := twinSend s 2 recs.length n (crc32c (recs.flatMap twinBytes)) []
      { s with selv := { s.selv with twin := { s.selv.twin with copySeq := n, busy := true, resv := recs.map (fun r => (r.sess, r.txcResv)) } } }

/-- This gateway is the standby of a twin pair (R304). -/
def twinStandby (s : State) : Bool := regBit s .SELV_TWIN_CFG 0 31 && regBit s .SELV_TWIN_CFG 0 30

/-- RECORDS: the standby writes them to its incoming page; a new COPY_SEQ starts a new page (R304). -/
def execTwinRecords (copySeq : Word) (recs : List TwinRec) (s : State) : Result :=
  .next <|
    if !twinStandby s then s
    else
      let t := s.selv.twin
      let old := if t.busy ∧ t.incomingSeq = copySeq then t.incoming else []
      let page := (old.filter (fun r => !recs.any (fun q => q.sess == r.sess))) ++ recs
      { s with selv := { s.selv with twin := { t with incomingSeq := copySeq, busy := true, incoming := page } } }

/-- TWIN_COMMIT: count and CRC checked; a good page is adopted and answered, a bad one discarded with TWIN_FAIL (R304). -/
def execTwinCommit (copySeq : Word) (count : Nat) (crc : Word) (s : State) : Result :=
  .next <|
    if !twinStandby s then s
    else
      let t := s.selv.twin
      let page := sortBy (fun r => r.sess) (if t.busy ∧ t.incomingSeq = copySeq then t.incoming else [])
      let s := { s with selv := { s.selv with twin := { t with incoming := [], busy := false } } }
      if page.length = count ∧ crc32c (page.flatMap twinBytes) = crc then
        twinSend { s with selv := { s.selv with twin := { s.selv.twin with page := some page, pageSeq := copySeq } } } 3 0 copySeq 0 []
      else raiseEv s .SELV_EVENT 0 2

/-- COMMIT_ACK: the reservation advances to the acknowledged copy's, TWIN_DONE (R305). -/
def execCommitAck (copySeq : Word) (s : State) : Result :=
  .next <|
    let t := s.selv.twin
    if !twinActive s ∨ !t.busy ∨ t.copySeq ≠ copySeq then s
    else
      let s := { s with selv := { s.selv with twin := { t with busy := false, acked := copySeq, resv := [], alone := false } } }
      let s := t.resv.foldl (fun s r => selvSet s r.1 { selvGet s r.1 with resv := some r.2 }) s
      raiseEv s .SELV_EVENT 0 3

/-- SELV_TWIN_CFG: with EN newly set no copy has been acknowledged yet (R305). -/
def twinCfgWrite (s : State) (v : Word) : State :=
  let old := regGet s .SELV_TWIN_CFG 0
  let s := regSet s .SELV_TWIN_CFG 0 (acceptWord .SELV_TWIN_CFG old v)
  if bit v 31 && !bit old 31 then
    { s with selv := { s.selv with sess := s.selv.sess.foldl (fun t e => tabSet SelvSess.reset t e.1 { tabGet SelvSess.reset t e.1 with resv := none }) s.selv.sess,
                                   twin := { s.selv.twin with busy := false, resv := [], alone := false } } }
  else s

/-- A key taken over with the uses that a record gives: KEY_NEAR from 2^35 on, as when the count is reached (R306, R365). -/
def takeUse (s : State) (k use : Nat) : State :=
  let i := activeSlot s k
  let a := keySlot s i
  if a.state ≠ .valid then s
  else
    let s := keySlotSet s i { a with use := use, near := a.near || decide (keyNearAt ≤ use) }
    if keyNearAt ≤ use ∧ !a.near then raiseEv s .THM_EVENT 0 1 else s

/-- A session whose active key is spent, with no VALID next one, stops (R367). -/
def spentStop (s : State) (k : Nat) : State :=
  let a := keySlot s (activeSlot s k)
  if a.state = .valid ∧ keyLimit ≤ a.use ∧ (keySlot s (nextSlot s k)).state ≠ .valid then keyStop s k else s

/-- One record taken over: configuration, GEN, TXC at TXC_RESV, the key's use count, and the open under R299 (R306, R290, R367). -/
def takeRecord (s : State) (r : TwinRec) : State :=
  let k := r.sess
  let s := sessDiscard s k false
  let put := fun (s : State) (i : Rid) (v : Word) => regSet s i k (acceptWord i (regGet s i k) v)
  let s := put (put (put (put (put s .SELV_SESS_CFG r.cfg) .SELV_SESS_PEER r.peer) .SELV_SESS_RTT r.rtt) .SELV_SESS_WIN r.win) .SELV_SESS_STALL r.stall
  let s := thmSessSet s k { thmSess s k with active1 := r.keySel.getLsbD 0 }
  let mark := fun (s : State) (i : Nat) =>
    let q := keySlot s i
    if q.state = .valid then keySlotSet s i { q with atTakeover := true } else s
  let s := mark (mark s (2 * k)) (2 * k + 1)
  let s := takeUse s k r.keyUse
  spentStop (openRequest (selvSet s k { selvGet s k with gen := r.gen, started := true, txc := r.txcResv, state := .closed, prev := .closed, resv := none }) k) k

/-- The takeover: the complete page's sessions open at GEN plus one, ROLE becomes active; without a page it is refused with
TWIN_FAIL (R306). -/
def takeover (s : State) : State :=
  let t := s.selv.twin
  match t.page with
  | none => raiseEv s .SELV_EVENT 0 2
  | some page =>
    let s := { s with selv := { s.selv with twin := { t with incoming := [], busy := false, alone := true } } }
    let s := page.foldl takeRecord s
    raiseEv (regPut s .SELV_TWIN_CFG 0 30 30 0) .SELV_EVENT 0 4

/-- TAKEOVER. -/
def execTakeover (req : Requester) (s : State) : Result :=
  .next <| guardWrite s req .SELV_TWIN_CMD 0 fun s => if twinStandby s then takeover s else raiseEv s .SELV_EVENT 0 2

/-- TWIN_AUTO_TAKEOVER: with AUTO set and four periods without a twin datagram (R306). -/
def execTwinAutoTakeover (s : State) : Result :=
  .next <| if twinStandby s && regBit s .SELV_TWIN_CFG 0 29 then takeover s else s

end Sys2Proof.Machine
end

