-- ==== Sys2Proof/Machine/Cco.lean ====
section
/-! DEFINITION. The Collective Coordinator (04_collective_protocol, 05_levels_and_span): messages sent, credits and reservations, aborts,
delivery, closing, the straggler ledger. -/

namespace Sys2Proof.Machine

/-! ### Events, counters -/

/-- A Coordinator event, in the panel's view and in the physical function's, which covers every panel (R161; log 33). -/
def ccoEvent (s : State) (p b : Nat) : State := raiseEv (raiseEv s .CCO_EVENT p b) .CCO_EVENT pfView b

/-- A P-marked Coordinator counter counts in both views (R161); `i` is its place in its array. -/
def ccoCount (s : State) (r : Rid) (p i : Nat) : State := ctrInc (ctrInc s r (viewIdx r p i)) r (viewIdx r pfView i)

/-- A message of an opcode is discarded and counted, or a refusal is counted only, against the panel that owns the port it came by (R30, R130, R131;
log 46). -/
def discardCount (s : State) (p opc : Nat) : State :=
  { s with cco := { s.cco with discarded := tabMod 0 s.cco.discarded (16 * opc + p) (· + 1) } }

/-! ### Messages -/

/-- Where a message came from: the gateway itself, an address and UDP port, a peer site. -/
inductive Sender where
  | self
  | addr (ip port : Nat)
  | site (j : Nat)
  deriving DecidableEq, Repr

/-- The credit limit of an epoch (R143). -/
def creditLimit (c : Coll) (e : Nat) : Nat :=
  if e < c.credit.1 then c.bucketChunks else if e = c.credit.1 then c.credit.2 else 0

/-- A header of this collective and epoch, from the gateway (R121, R123); PANEL is the panel on the receiving gateway where it goes to one. -/
def collHdr (c : Coll) (opc e : Nat) : ScpHdr :=
  { scpBlank with opc := opc, panel := c.panel, crcEn := true, coll := c.id, epoch := e, rank := rankNone }

/-- The panel that a collective has on the gateway at an address (R29, R121, R245; log 34). -/
def peerPanel (c : Coll) (ip : Nat) : Nat := Config.peerPanel c.id ip % 16

/-- The SCP port, to which every message goes but a NACK (R119, R131). -/
def scpPort (s : State) : Nat := regBf s .CCO_UDP_PORT 0 15 0

/-- The UDP port a NACK MISSING goes to: the one recorded for the rank, the SCP port where any is allowed (R131, R145, R148). -/
def nackPort (s : State) (port : Nat) : Nat := if port = 0 then scpPort s else port

/-- An SCP message leaves for an address and UDP port on a class; none goes to a gateway that has refused the version (R123, R133; log 84). -/
def scpSend (s : State) (panel ip port tc : Nat) (body : List Byte) (res : Option Nat) : State :=
  if s.cco.halted.contains ip then
    (match res with
    | some n => cellDrop s n
    | none => s)
  else emitNet s panel ip tc body (.scp ip port tc body) res

/-- A message without a payload to a contributor of a stage: credit limit and rank map generation go with it (R121, R123). -/
def toChild (s : State) (c : Coll) (st : Nat) (x : RmapEnt) (h : ScpHdr) : State :=
  let h := { h with creditLim := creditLimit c h.epoch, rgen := tabGet 0 c.gens st, panel := if x.kind = 1 then peerPanel c x.ip else h.panel }
  if h.opc = opcNack then scpSend s c.panel x.ip (nackPort s x.port) 5 (scpBytes h []) none
  else scpSend s c.panel x.ip (scpPort s) 7 (scpBytes h []) none

/-- A message without a payload to the parent, under its panel and the generation its messages carry (R121, R151). -/
def toParent (s : State) (c : Coll) (h : ScpHdr) : State :=
  scpSend s c.panel c.parentIp (scpPort s) 7 (scpBytes { h with panel := peerPanel c c.parentIp, rgen := c.parentGen } []) none

/-- The types of tacks on a circuit (R245): CREDIT 1, BARRIER 2, RELEASE 3, RESUME 4, ABORT 5, CLOSE 6. -/
abbrev tackAbort : Nat := 5
/-- CLOSE. -/
abbrev tackClose : Nat := 6

/-- A tack to a child gateway, on its circuit and in-band (R247); `typ` as on a circuit. -/
def tackChild (s : State) (c : Coll) (x : RmapEnt) (typ e : Nat) : State :=
  let lim := creditLimit c e
  let s := sendTack s x.ip typ 0 (peerPanel c x.ip) false c.id e (BitVec.ofNat 32 (if typ = 1 then lim else 0))
  toChild s c 1 x { collHdr c (if typ = tackClose then opcClose else opcTack) e with aux := if typ = tackClose then 0 else typ * pow2 24 }

/-- Contributions of an epoch do not go to the parent: its NACK has stopped the collective or the epoch, or made it wait (R132, R133). -/
def upStopped (s : State) (c : Coll) (e : Nat) : Bool :=
  c.stopped || c.paused || c.stoppedEpochs.contains e || s.cco.halted.contains c.parentIp

/-- A BARRIER tack to the parent, in place of contributions (R133, R141, R247). -/
def tackParent (s : State) (c : Coll) (typ e : Nat) : State :=
  if upStopped s c e then s
  else
    let s := sendTack s c.parentIp typ 0 (peerPanel c c.parentIp) false c.id e 0
    toParent s c { collHdr c opcTack e with aux := typ * pow2 24, rank := c.upRank }

/-- The sites of a span other than this one. -/
def peerSites (p : SpanCfg) : List Nat := (List.range p.nsites).filter (· != p.siteIdx)

/-- A tack to a peer site, in the control slots of its session's line group (R173, R330), under the panel that the collective has there (log 34). -/
def tackSite (s : State) (c : Coll) (p : SpanCfg) (j typ cause : Nat) (hold : Bool) (e : Nat) : State :=
  sendControl s (regBf s .SELV_SESS_CFG (p.sessBase + j) 21 16) typ cause (Config.peerPanel c.id (pow2 128 + j) % 16) hold c.id e

/-- TACK messages of one type to every contributor of a stage, 1 CREDIT, 3 RELEASE, 4 RESUME (R141, R143, R139). -/
def tackStage (s : State) (c : Coll) (st typ e : Nat) : State :=
  (contributors s c st e).foldl (fun s x =>
    if x.2.kind = 0 then toChild s c st x.2 { collHdr c opcTack e with aux := typ * pow2 24 }
    else if x.2.kind = 1 ∧ st = 1 then tackChild s c x.2 typ e
    else s) s

/-- TACK RESUME to everyone an abort reached below: the contributors of both stages and the idle spares (R138, R139). -/
def tackResume (s : State) (c : Coll) (e : Nat) : State :=
  let s := (idleSpares s c e).foldl (fun s x => toChild s c 0 x { collHdr c opcTack e with aux := 4 * pow2 24 }) (tackStage s c 0 4 e)
  tackStage s c 1 4 e

/-! ### Credits and reservations (R31, R142, R143) -/

/-- The Coordinator may reserve on a context: bound to the panel and not to be rebound, not faulted, its slot VALID, its engine in service
with its domain ON, room in the open-chunk table (R117, R142, R434, R436, R441). -/
def ctxOpen (s : State) (p k : Nat) : Bool :=
  let e := engGet s (k / 16)
  ctxPanel s k == some p && (heldGet s .SEAM_CTX_BIND k).isNone && !(ctxGet s k).faulted && (slotGet s (ctxSlot s k)).valid &&
  (e.state == .normal || (e.state == .trial && e.trial == some k)) && domReady s (engDom (k / 16)) && decide (openChunks s (k / 16) < 128)

/-- The chunk is tied to the context under trial: it was open on it at the fault (R434). -/
def trialHome (s : State) (p : Nat) (id : Word) (st chunk : Nat) (c : Coll) : Option Nat :=
  (List.range 32).findSome? (fun e =>
    match (engGet s e).trial with
    | some k => if (engGet s e).chunks.any (fun q => q.1 == k && q.2.1 == id && q.2.2 == chunk) && c.ctx.contains (st, k) && ctxPanel s k == some p
        then some k else none
    | none => none)

/-- A collective with a context under trial keeps its other chunks off it (R434). -/
def trialAvoid (s : State) (k : Nat) : Bool := (engGet s (k / 16)).trial == some k

/-- The context with the most free granules, the first named among equals (R142). -/
def bestCtx (s : State) (l : List Nat) : Option Nat :=
  l.foldl (fun acc k => match acc with
    | none => some k
    | some j => if freeGranules s (j / 16) < freeGranules s (k / 16) then some k else acc) none

/-- The contexts a panel may hold bolts on (R31, R402). -/
def ctxQuota (s : State) (p : Nat) : Nat := regBf s .GLB_PANEL_CFG p 25 16

/-- A context takes a bolt of a panel that needs `gran` granules: it is open to reservations, has the room, and is within the panel's quota (R31, R142). -/
def ctxFits (s : State) (p gran k : Nat) : Bool :=
  let used := panelContexts s p
  ctxOpen s p k && decide (gran ≤ freeGranules s (k / 16)) && (used.contains k || decide (used.length < ctxQuota s p))

/-- The context a chunk of a stage would be reserved on: with `home` that one alone, to which the stage below hands its stream (R86). -/
def pickCtx (s : State) (c : Coll) (st chunk gran : Nat) (home : Option Nat) : Option Nat :=
  let l := (c.ctx.filter (fun x => x.1 == st)).map Prod.snd
  match trialHome s c.panel c.id st chunk c with
  | some k => if ctxFits s c.panel gran k then some k else none
  | none => bestCtx s (l.filter (fun k => ctxFits s c.panel gran k && !trialAvoid s k && (match home with
    | some h => h == k || !l.contains h
    | none => true)))

/-- The context that the stage below hands a chunk's stream to: the NEXT of the context that the chunk has there (R86). -/
def chunkHome (s : State) (c : Coll) (st e chunk : Nat) : Option Nat :=
  if st = 0 then none
  else (chunkBolt s c.panel c.id (st - 1) e chunk).bind (fun q => ctxNext s q.2.ctx)

/-- A bolt as it is RESERVED. -/
def newBolt (s : State) (c : Coll) (st e chunk k : Nat) : Bolt :=
  { panel := c.panel, coll := c.id, stage := st, epoch := e, chunk := chunk, state := .reserved, ctx := k, elems := c.chunkElems, fixed := false,
    want := (contributors s c st e).map Prod.fst, mode := 0, fmt := 0, gen := 0, arith := 0, cb := 0, acc := [], flags := 0, msgs := [], counted := [],
    firstUs := 0, rounds := 0, lastIdx := 0, lastUs := 0, prevUs := 0, chalk := 0, done := false, age := 0 }

/-- Bolts in the bolt table (R265). -/
abbrev boltTable : Nat := 8192

/-- Reserves one chunk of one stage: an open-chunk entry and the accumulator area (R142).  None where there is no room. -/
def reserveOne (s : State) (c : Coll) (st e chunk : Nat) : Option State :=
  if (chunkBolt s c.panel c.id st e chunk).isSome then some s
  else
    match (List.range boltTable).find? (fun b => (boltGet s b).isNone), pickCtx s c st chunk (accGranules 0 c.chunkElems) (chunkHome s c st e chunk) with
    | some b, some k => some (boltSet s b (some (newBolt s c st e chunk k)))
    | _, _ => none

/-- Reserves a chunk on every stage of the gateway, Level 3 among them (R142, R172): credit is the collective's, and moves only where every stage
has room (log 65). -/
def reserveChunk (s : State) (c : Coll) (e chunk : Nat) : Option State :=
  ((List.range 3).filter (hasStage c)).foldl (fun a st => match a with
    | some s => reserveOne s c st e chunk
    | none => none) (some s)

/-- A bolt reserved on a context moves to another context of its stage, where one has room (R142, R441). -/
def rehome (s : State) (b : Nat) : State :=
  match boltGet s b with
  | none => s
  | some x => match collFind s x.panel x.coll with
    | none => s
    | some c =>
      if x.state ≠ .reserved then s
      else match pickCtx s c x.stage x.chunk (boltGranules x) none with
        | some k => boltSet s b (some { x with ctx := k })
        | none => s

/-- The engine takes a bolt on a context: it is in service, or the context is the one under trial (R431, R434, R436). -/
def engTakes (s : State) (k : Nat) : Bool :=
  let x := engGet s (k / 16)
  x.state == .normal || (x.state == .trial && x.trial == some k)

/-- An engine's reserved bolts are placed anew, as its reset has emptied the open-chunk table: those tied to the context under trial on it, the
others elsewhere where there is room (R431, R434). -/
def replaceReserved (s : State) (e : Nat) : State :=
  (boltsWhere s (fun b => b.state == .reserved && b.ctx / 16 == e)).foldl (fun s q => rehome s q.1) s

/-- Chunks for which a collective holds reservations or open bolts (R142). -/
def chunksHeld (s : State) (c : Coll) : Nat :=
  (dedup ((boltsWhere s (fun b => b.ofColl c.panel c.id)).map (fun q => (q.2.epoch, q.2.chunk)))).length

/-- No credit is extended: the panel does not take work or is at its context quota, RETIRE has begun, or the collective narrows with Pleat and PD17 is
not ON (R31, R162, R211, R405, R435). -/
def creditStopped (s : State) (c : Coll) : Bool :=
  !panelActive s c.panel || decide (ctxQuota s c.panel ≤ (panelContexts s c.panel).length) || c.retiring || (!domReady s 17 && (match c.span with
    | some p => p.fmt == 10
    | none => false))

/-- Raises the credit limit chunk by chunk while reservations succeed and fewer than CW chunks are held (R142, R143). -/
def creditStep (p : Nat) (id : Word) : Nat → State → State
  | 0, s => s
  | n + 1, s =>
    match collFind s p id with
    | none => s
    | some c =>
      let (e, l) := c.credit
      if creditStopped s c ∨ c.cw ≤ chunksHeld s c then s
      else if l < c.bucketChunks then
        match reserveChunk s c e l with
        | some s => creditStep p id n (collMod s p id (fun c => { c with credit := (e, l + 1) }))
        | none => satMark s 1
      else if e < lowestEpoch c + 1 then creditStep p id n (collMod s p id (fun c => { c with credit := (e + 1, 0) }))
      else s

/-- A TACK CREDIT to the contributors of both stages (R143). -/
def tackCredit (s : State) (c : Coll) (e : Nat) : State := tackStage (tackStage s c 0 1 e) c 1 1 e

/-- The Coordinator raises the limit and announces it for each epoch whose limit moved (R143). -/
def creditRaise (s : State) (p : Nat) (id : Word) : State :=
  match collFind s p id with
  | none => s
  | some c =>
    let s := creditStep p id 400 s
    match collFind s p id with
    | none => s
    | some c' =>
      let s := if c.credit.1 < c'.credit.1 ∧ c.credit.2 < c.bucketChunks then tackCredit s c' c.credit.1 else s
      if c'.credit = c.credit ∨ c'.credit.2 = 0 then s else tackCredit s c' c'.credit.1

/-- Credit of every collective, after room has been freed. -/
def creditAll (s : State) : State := s.cco.colls.foldl (fun s c => creditRaise s c.panel c.id) s

/-! ### The parent's side (R132, R144) -/

/-- The parent's credit covers a chunk; before its first announcement nothing is held back (R144; log 35). -/
def upCovered (c : Coll) (e chunk : Nat) : Bool :=
  match c.parentCredit with
  | none => true
  | some (ce, l) => decide (e < ce) || (e == ce && decide (chunk < l))

/-- A CONTRIB of this gateway leaves for its parent, fragment by fragment (R103, R123). -/
def sendUp (s : State) (c : Coll) (m : UpMsg) (reissue : Bool) : State :=
  m.frags.foldl (fun s f =>
    let h := { collHdr c opcContrib m.epoch with
      panel := peerPanel c c.parentIp, rgen := c.parentGen, mode := m.mode, crcEn := m.crc, fmt := f.fmt, idx := m.hasIdx, reissue := reissue, ncontrib := Config.parentCount c.id % 1024 + 1,
      chunk := m.chunk, rank := c.upRank, arith := m.flags, elems := m.elems, fragOff := f.off, nelem := f.n, plen := f.payload.length,
      layer := m.chalk.toNat % 65536, oper := m.chalk.toNat / 65536 }
    scpSend s c.panel c.parentIp (scpPort s) c.tc (scpBytes h f.payload) none) s

/-- What waits to be sent again leaves where its time has come and credit covers it (R132, R133). -/
def upFlush (s : State) (p : Nat) (id : Word) : State :=
  match collFind s p id with
  | none => s
  | some c =>
    let due := fun (m : UpMsg) => m.again && decide (m.dueUs ≤ s.localUs) && upCovered c m.epoch m.chunk && !upStopped s c m.epoch
    if !c.up.any due then s
    else
      let s := (c.up.filter due).foldl (fun s m => sendUp s c m m.sent) s
      collMod s p id (fun c => { c with up := c.up.map (fun m => if due m then { m with again := false, sent := true } else m) })

/-! ### Result cells and delivery writes (R155-R159, R264) -/

/-- A delivery queue pair. -/
def qpGet (s : State) (n : Nat) : Option Qp := tabGet none s.cco.qps n
/-- Sets it. -/
def qpSet (s : State) (n : Nat) (x : Option Qp) : State := { s with cco := { s.cco with qps := tabSet none s.cco.qps n x } }

/-- The queue pairs in use. -/
def qps (s : State) : List (Nat × Qp) := s.cco.qps.filterMap (fun e => e.2.map (fun q => (e.1, q)))

/-- The queue pair of a delivery record of a collective. -/
def qpOf (s : State) (p : Nat) (id : Word) (drec : Nat) : Option (Nat × Qp) :=
  (qps s).find? (fun e => e.2.panel == p && e.2.coll == id && e.2.drec == drec)

/-- Bytes of a packet: 1,024, 2,048 or 4,096 (R156). -/
def pmtuBytes (q : Qp) : Nat := pow2 (q.pmtu + 7)

/-- Packets of a write. -/
def wrPackets (q : Qp) (len : Nat) : Nat := max 1 ((len + pmtuBytes q - 1) / pmtuBytes q)

/-- The class of a delivery write: its collective's (R123; log 85). -/
def wrClass (s : State) (w : RdmaWr) : Nat := ((collFind s w.panel w.coll).map (fun c => c.tc)).getD 1

/-- The bytes of a packet behind its UDP header: transport headers, whose contents the spec does not lay out, payload, ICRC (R155; log 85). -/
def rdmaBytes (kind : Nat) (imm : Option Word) (payload : List Byte) (icrc : Word) : List Byte :=
  (List.range (12 + (if kind = 0 ∨ kind = 3 then 16 else 0) + (if imm.isSome then 4 else 0))).map (fun i => Config.headerByte (66 + i)) ++ payload ++
    wordBytes icrc

/-- The packets of a write leave from packet `start` on (R155, R157).  The immediate is EPOCH[31:0]. -/
def sendWrite (s : State) (q : Qp) (w : RdmaWr) (start : Nat) : State :=
  let n := wrPackets q w.data.length
  ((List.range n).drop start).foldl (fun s i =>
    let kind := if n = 1 then 3 else if i = 0 then 0 else if i + 1 = n then 2 else 1
    let imm := if w.imm ∧ i + 1 = n then some (BitVec.ofNat 32 w.epoch) else none
    let psn := (w.first + i) % pow2 24
    let payload := (w.data.drop (i * pmtuBytes q)).take (pmtuBytes q)
    let icrc := Config.icrc q.remote psn payload
    emitNet s w.panel q.ip (wrClass s w) (rdmaBytes kind imm payload icrc)
      (.rdma q.ip q.sport q.pkey q.remote kind psn w.addr q.rkey w.data.length imm payload icrc) none) s

/-- A result is written to one endpoint: the next PSNs, the address of R25, the cells held until it is acknowledged. -/
def issueWrite (s : State) (c : Coll) (e chunk drec addr : Nat) (data : List Byte) (imm : Bool) (cell : Nat) (chalk : Word) : State :=
  match qpOf s c.panel c.id drec with
  | none => cellDrop s cell
  | some (n, q) =>
    if q.err then cellDrop s cell
    else
      let k := wrPackets q data.length
      let w : RdmaWr := { panel := c.panel, coll := c.id, epoch := e, chunk := chunk, drec := drec, first := q.psn, last := (q.psn + k - 1) % pow2 24,
                          addr := q.va + addr, data := data, imm := imm, retry := q.retryMax, rnr := q.rnrMax, cell := cell,
                          chalk := chalk }
      let s := qpSet s n (some { q with psn := (q.psn + k) % pow2 24, writes := q.writes ++ [w] })
      sendWrite s q w 0

/-- Writes of epochs that satisfy a predicate are discarded with their cells (R27, R160). -/
def dropWrites (s : State) (p : Nat) (id : Word) (gone : Nat → Bool) : State :=
  (qps s).foldl (fun s e =>
    if e.2.panel = p ∧ e.2.coll = id then
      let (out, left) := e.2.writes.partition (fun w => gone w.epoch)
      out.foldl (fun s w => cellDrop s w.cell) (qpSet s e.1 (some { e.2 with writes := left }))
    else s) s

/-- Delivery writes of a collective outstanding. -/
def writesLeft (s : State) (p : Nat) (id : Word) : Nat := ((qps s).filter (fun e => e.2.panel == p && e.2.coll == id)).foldl (fun n e => n + e.2.writes.length) 0

/-! ### Retiring (R162) -/

/-- The collective's bolts are freed and its writes acknowledged or discarded: RETIRE frees its credit, its reservations, its queue pairs and the
collective, and its command's result is written (R162). -/
def retireFinish (s : State) (p : Nat) (id : Word) : State :=
  match collFind s p id with
  | none => s
  | some c =>
    if !c.retiring ∨ !c.epochs.isEmpty ∨ (bolts s).any (fun e => e.2.ofColl p id && e.2.state != .reserved) ∨ writesLeft s p id ≠ 0 then s
    else
      let s := (boltsWhere s (fun b => b.ofColl p id)).foldl (fun s e => boltFree s 0x22 e.1) s
      let s := (qps s).foldl (fun s e => if e.2.panel = p ∧ e.2.coll = id then qpSet s e.1 none else s) s
      creditAll { s with cco := { s.cco with colls := s.cco.colls.filter (fun x => !(x.panel == p && x.id == id)) } }

/-! ### Aborting (R138, R146, R179, R189) -/

/-- Streams of invocations on a bolt that are not yet accepted are discarded with their bobbins (R113). -/
def dropEmits (s : State) (b : Nat) : State :=
  s.seam.slots.foldl (fun s e => match e.2.run with
    | some x =>
      if x.bolt = b then
        let s := slotSet s e.1 { slotGet s e.1 with run := some { x with emits := [] } }
        x.emits.foldl (fun s m => streamFree s (e.1 / 8) m.bobbin m.out) s
      else s
    | none => s) s

/-- An invocation ends: its output stream, the streams not accepted and its wait for a bobbin go with it. -/
def invFree (s : State) (i : Nat) : State :=
  match runOf s i with
  | none => s
  | some x =>
    let e := i / 8
    let s := x.emits.foldl (fun s m => streamFree s e m.bobbin m.out) (streamFree s e x.bobbin x.out)
    let s := { s with bob := { s.bob with waits := s.bob.waits.filter (fun w => !(w.unit == e && w.sub == i)) } }
    runSet s i none

/-- A chunk's running ARRIVE invocation keeps its message until END where the message is whole; one that still waits for fragments can reach no END and
is cancelled, having written nothing (R105, R113). -/
def abortRuns (s : State) (b : Nat) (x : Bolt) : List Nat × State :=
  s.seam.slots.foldl (fun a e => match e.2.run with
    | some r =>
      if r.bolt ≠ b ∨ r.done then a
      else if x.msgs.any (fun m => m.index == r.index && m.whole) then (r.index :: a.1, a.2)
      else (a.1, invFree a.2 e.1)
    | none => a) ([], s)

/-- A bolt of an aborted epoch: RESERVED it is freed by the Coordinator; otherwise it is ABORTING, and its engine frees it once no
invocation of it runs (R113, R146).  The chunk's abort is counted and traced (R452, R455). -/
def abortBolt (s : State) (b cause : Nat) : State :=
  match boltGet s b with
  | none => s
  | some x =>
    if x.state = .reserved then boltFree s 0x22 b
    else
      let s := traceChunk (filterCount s x.panel x.chalk 3 1) 0x22 4 x.panel x.stage x.chalk x.coll x.epoch x.chunk cause
      let (keep, s) := abortRuns s b x
      let s := (x.msgs.filter (fun m => !keep.contains m.index)).foldl (fun s m => msgFree s b m) s
      let s := dropEmits (boltSet s b (some { x with state := .aborting, msgs := x.msgs.filter (fun m => keep.contains m.index) })) b
      if boltRunning s b then s else pageRelease (boltFree s (x.ctx / 16) b) (ctxSlot s x.ctx)

/-- Segments of aborted epochs that have no SEQ yet leave their session's queue (R189). -/
def dropSegments (s : State) (k : Nat) (gone : DataSeg → Bool) : State :=
  let x := selvGet s k
  let out := (x.openSeg.toList ++ x.queue).filter gone
  let keep := match x.openSeg with
    | some g => if gone g then none else some g
    | none => none
  slotsFree (selvSet s k { x with openSeg := keep, queue := x.queue.filter (fun g => !gone g) }) (out.map (fun g => g.slot))

/-- The messages of an abort: to endpoints, child gateways, parent, and peer site roots, except back toward its sender (R138, R173). -/
def sendAborts (s : State) (c : Coll) (e cause : Nat) (hold : Bool) (sender : Sender) : State :=
  let h := { collHdr c opcAbort e with aux := cause * pow2 24, hold := hold }
  let toward : Nat → Bool := fun ip => match sender with
    | .addr i _ => i == ip
    | _ => false
  let s := (endpoints s c e ++ idleSpares s c e).foldl (fun s x => if toward x.ip then s else toChild s c 0 x h) s
  let s := (childGateways s c e).foldl (fun s x =>
    if toward x.ip then s else toChild (sendTack s x.ip tackAbort cause (peerPanel c x.ip) hold c.id e 0) c 1 x h) s
  let s := if isRoot c || toward c.parentIp then s
    else toParent (sendTack s c.parentIp tackAbort cause (peerPanel c c.parentIp) hold c.id e 0) c { h with rank := c.upRank }
  match c.span with
  | some p => (peerSites p).foldl (fun s j => if sender = .site j then s else tackSite s c p j tackAbort cause hold e) s
  | none => s

/-- Abort of epoch `e` and every later open epoch of a collective (R138).  A closing epoch aborts only for a peer site root (R179);
otherwise the abort is only counted, and a later epoch that is closing stays.  An epoch already aborted or closed is left alone: the first cause stands (R160). -/
def abortEpoch (s : State) (p : Nat) (id : Word) (e cause : Nat) (hold : Bool) (sender : Sender) : State :=
  match collFind s p id with
  | none => s
  | some c =>
    let peer : Bool := match sender with
      | .site _ => true
      | _ => false
    let shut : Epoch → Bool := fun x => x.state == .closing && !peer
    if c.aborted.any (fun a => a.1 == e) ∨ e < lowestEpoch c then s
    else if c.epochs.any (fun x => x.num == e && shut x) then ccoCount s .CCO_CNT_ABORT p cause
    else
      let gone : Nat → Bool := fun n => decide (e ≤ n) && (n == e || c.epochs.any (fun x => x.num == n && !shut x))
      let nums := dedup (e :: ((c.epochs.map (fun x => x.num)).filter gone))
      let s := ccoEvent (ccoCount s .CCO_CNT_ABORT p cause) p 1
      let s := sendAborts s c e cause hold sender
      let s := dropWrites s p id gone
      let s := (boltsWhere s (fun b => b.ofColl p id && gone b.epoch)).foldl (fun s b => abortBolt s b.1 cause) s
      let s := { s with seam := { s.seam with ring := s.seam.ring.filter (fun r => !(r.panel == p && r.coll == id && gone r.epoch)) } }
      let s := match c.span with
        | some q => (peerSites q).foldl (fun s j => dropSegments s (q.sessBase + j) (fun g => g.win.isSome && g.coll == id && gone g.epoch)) s
        | none => s
      let next := max c.nextEpoch (e + 1)
      let s := collMod s p id (fun c => { c with
        epochs := c.epochs.filter (fun x => !gone x.num), aborted := c.aborted ++ nums.map (fun n => (n, cause)), nextEpoch := next,
        credit := if gone c.credit.1 then (next, 0) else c.credit,
        up := c.up.filter (fun m => !gone m.epoch), results := c.results.filter (fun r => !gone r.epoch) })
      retireFinish (creditAll s) p id

/-- Abort of every open epoch of a collective. -/
def abortAll (s : State) (p : Nat) (id : Word) (cause : Nat) (sender : Sender) : State :=
  match collFind s p id with
  | none => s
  | some c => match c.epochs.find? (fun x => x.state != .closing) with
    | some x => abortEpoch s p id x.num cause false sender
    | none => s

/-! ### Closing (R137, R141, R179) -/

/-- The epoch closes: CLOSE to the endpoints with the OR of the flags, a CLOSE tack to each child gateway (R137).  Credit for its chunks that was never
used goes back with its reservations, and credit runs on in the next epoch (R143). -/
def closeEpoch (s : State) (p : Nat) (id : Word) (e : Nat) : State :=
  match collFind s p id with
  | none => s
  | some c => match epochFind c e with
    | none => s
    | some x =>
      let s := (endpoints s c e).foldl (fun s r => toChild s c 0 r { collHdr c opcClose e with arith := x.flags }) s
      let s := (childGateways s c e).foldl (fun s r => tackChild s c r tackClose e) s
      let s := collMod s p id (fun c => { c with epochs := c.epochs.filter (fun y => y.num != e), up := c.up.filter (fun m => m.epoch != e),
                                                  results := c.results.filter (fun r => r.epoch != e),
                                                  credit := if c.credit.1 ≤ e then (e + 1, 0) else c.credit })
      let s := (boltsWhere s (fun b => b.ofColl p id && b.epoch == e && b.state == .reserved)).foldl (fun s q => boltFree s 0x22 q.1) s
      retireFinish (creditAll s) p id

/-- The site root's commit: COLL_ID and LAST_EPOCH, then COMMIT, in the header page; then the epoch closes (R176, R179).  A barrier has written no
residual, so the committed bank stays (R141, R177; log 44). -/
def commitEpoch (s : State) (p : Nat) (id : Word) (e : Nat) : State :=
  match collFind s p id with
  | none => s
  | some c =>
    let s := match remRegion c with
      | some q =>
        let w := if (epochFind c e).any (fun x => x.barrier) then c.bank else (remBanks c q e).2
        let s := hbmWrite s (q.remAddr + 4) (wordBytes id)
        let s := hbmWrite s (q.remAddr + 20) (leBytes 6 e)
        let s := hbmWrite s (q.remAddr + 19) [BitVec.ofNat 8 w]
        collMod s p id (fun c => { c with bank := w, lastEpoch := e })
      | none => s
    closeEpoch s p id e

/-- Every peer's CLOSE tack is held. -/
def allClosed (c : Coll) (x : Epoch) : Bool :=
  match c.span with
  | some p => (peerSites p).all (fun j => x.closes.contains j)
  | none => true

/-- The gateway has nothing to deliver or to pass on in an epoch: no delivery record, no child gateway. -/
def noDelivery (s : State) (c : Coll) (e : Nat) : Bool := (deliveries s c e).isEmpty && (childGateways s c e).isEmpty

/-- Delivery writes of an epoch outstanding. -/
def epochWrites (s : State) (p : Nat) (id : Word) (e : Nat) : Nat :=
  ((qps s).flatMap (fun q => q.2.writes.filter (fun w => w.panel == p && w.coll == id && w.epoch == e))).length

/-- An epoch has ended at this gateway: every chunk delivered, passed on or emitted, and every write with immediate acknowledged, or with the parent's
CLOSE no write and no bolt of it under way (R137; log 44); a barrier once it has been released (R141). -/
def epochDone (s : State) (c : Coll) (x : Epoch) : Bool :=
  if x.barrier then x.released
  else decide (c.bucketChunks ≤ x.done.length) && ((deliveries s c x.num).all (fun d => x.acked.contains d) ||
    (x.closeRecv && epochWrites s c.panel c.id x.num == 0 &&
      !(bolts s).any (fun e => e.2.ofColl c.panel c.id && e.2.epoch == x.num && e.2.state != .reserved)))

/-- Closes an epoch that has ended; at a site root the CLOSE tacks to the peers leave first and the epoch is closing (R179). -/
def tryClose (s : State) (p : Nat) (id : Word) (e : Nat) : State :=
  match collFind s p id with
  | none => s
  | some c => match epochFind c e with
    | none => s
    | some x =>
      if x.state = .closing then (if allClosed c x then commitEpoch s p id e else s)
      else if !epochDone s c x then s
      else match c.span with
      | none => closeEpoch s p id e
      | some q =>
        let s := epochMod s p id e (fun x => { x with state := .closing })
        let s := (peerSites q).foldl (fun s j => tackSite s c q j tackClose 0 false e) s
        if allClosed c x then commitEpoch s p id e else s

/-! ### Delivering a result (R25, R26, R157, R158, R451) -/

/-- Bytes of an element of a result. -/
def resultElemBytes (fmt : Nat) : Nat := if isXp fmt ∨ isMx fmt then 4 else elemBytes fmt

/-- The flag counts of a panel (R451): NAN, OVF, INF, FLUSH, XPFB. -/
def countFlags (s : State) (p : Nat) (fl : Byte) : State :=
  (List.range 5).foldl (fun s i => if fl.getLsbD i then ctrInc s .DBG_PNL_FLAG (5 * p + i) else s) s

/-- RESULT datagrams to one child gateway, each a user of the result's cells until it has left its port (R123, R158, R222). -/
def sendResult (s : State) (c : Coll) (e chunk elems : Nat) (hasIdx crc : Bool) (flags : Byte) (chalk : Word) (frags : List Frag) (cell : Nat)
    (x : RmapEnt) : State :=
  frags.foldl (fun s f =>
    let h := { collHdr c opcResult e with
      panel := peerPanel c x.ip, crcEn := crc, fmt := f.fmt, idx := hasIdx, chunk := chunk, arith := flags, elems := elems, fragOff := f.off, nelem := f.n,
      plen := f.payload.length, layer := chalk.toNat % 65536, oper := chalk.toNat / 65536, creditLim := creditLimit c e, rgen := tabGet 0 c.gens 1 }
    scpSend s c.panel x.ip (scpPort s) c.tc (scpBytes h f.payload) (some cell)) s

/-- A chunk's result is passed to the child gateways and written to the endpoints, the chunk that completes the bucket with
immediate (R25, R26, R157, R158); where a delivery record reads uncorrectable, the open epochs abort instead (R277).  Its cells are counted for every
write and every copy to a child (R158, R264). -/
def deliver (s : State) (p : Nat) (id : Word) (e chunk elems : Nat) (hasIdx crc : Bool) (flags : Byte) (chalk : Word) (frags : List Frag) : State :=
  match collFind s p id with
  | none => s
  | some c => match epochFind c e with
    | none => s
    | some x =>
      if x.done.contains chunk then s
      else
        let x := { x with done := insertRising chunk x.done, flags := x.flags ||| flags }
        let s := countFlags (epochMod s p id e (fun _ => x)) p flags
        let fs := sortFrags frags
        let fmt := (fs.map (fun f => f.fmt)).headD 0
        let vals := fs.flatMap (fun f => f.payload.take (valueBytes f.fmt f.n))
        let idx := fs.flatMap (fun f => f.payload.drop (valueBytes f.fmt f.n))
        let data := vals ++ idx
        let ds := deliveries s c e
        match ds.findSome? (fun d => ueIn s (c.drecAddr + 64 * d) 64) with
        | some b => abortAll (recordUe s (32 * b)) p id 1 .self
        | none =>
          let kids := childGateways s c e
          let users := ds.length + kids.length * frags.length
          let s := if users = 0 then s
            else
              let n := s.cco.nextCell
              let s := { s with cco := { s.cco with nextCell := n + 1 } }
              let s := cellSet (cellsTake s (cellsOf data.length)) n (some ⟨cellsOf data.length, users, none⟩)
              let s := kids.foldl (fun s r => sendResult s c e chunk elems hasIdx crc flags chalk frags n r) s
              ds.foldl (fun s d => issueWrite s c e chunk d (chunk * c.chunkElems * resultElemBytes fmt) data (decide (c.bucketChunks ≤ x.done.length)) n chalk) s
          tryClose s p id e

/-- A chunk emitted to the parent by a gateway with nothing to deliver is done there (R137). -/
def upDone (s : State) (p : Nat) (id : Word) (e chunk : Nat) (flags : Byte) : State :=
  match collFind s p id with
  | none => s
  | some c =>
    if noDelivery s c e then
      tryClose (epochMod s p id e (fun x => { x with done := insertRising chunk x.done, flags := x.flags ||| flags })) p id e
    else s

/-! ### Opening an epoch (R135, R136) -/

/-- Held Coordinator writes take effect at the epoch boundary (R399): those of every panel, and the panel's own. -/
def ccoBoundary (s : State) (p : Nat) : State :=
  let put := fun (s : State) (q : Rid × Nat) => applyHeld s q.1 q.2 (fun s v => regSet s q.1 q.2 v)
  [(Rid.CCO_CFG, 0), (.CCO_UDP_PORT, 0), (.CCO_MISS_CFG, p), (.CCO_SLG_CFG, p), (.CCO_MISS_CFG, pfView), (.CCO_SLG_CFG, pfView)].foldl put s

/-- The first message of the next epoch opens it with the rank map in force (R135, R150). -/
def openEpoch (s : State) (p : Nat) (id : Word) (e : Nat) (barrier : Bool) : State :=
  match collFind s p id with
  | none => s
  | some c =>
    if (epochFind c e).isSome then s
    else
      let x : Epoch := { num := e, state := .open, subs := c.subs, barrier := barrier, arrived := [], done := [], ended := [], flags := 0, acked := [], closes := [], commitWait := false,
                           closeRecv := false, released := false }
      collMod (ccoBoundary s p) p id (fun c => { c with epochs := c.epochs ++ [x], nextEpoch := e + 1 })

/-! ### Barriers (R141) -/

/-- RELEASE of a barrier: down the tree and to the endpoints; the epoch then closes as any other does, at a site root after the exchange of CLOSE
tacks (R141, R179). -/
def releaseBarrier (s : State) (p : Nat) (id : Word) (e : Nat) : State :=
  match collFind s p id with
  | none => s
  | some c => match epochFind c e with
    | none => s
    | some x =>
      if !x.barrier ∨ x.released then s
      else
        let s := epochMod s p id e (fun x => { x with released := true })
        let s := (endpoints s c e).foldl (fun s r => toChild s c 0 r { collHdr c opcTack e with aux := 3 * pow2 24 }) s
        let s := (childGateways s c e).foldl (fun s r => tackChild s c r 3 e) s
        tryClose s p id e

/-- All ranks of a stage have arrived. -/
def stageArrived (s : State) (c : Coll) (x : Epoch) (st : Nat) : Bool :=
  (contributors s c st x.num).all (fun i => x.arrived.contains (st, i.1))

/-- One arrival at a barrier, counted once; a stage whose ranks have all arrived passes it on: to the gateway's next stage, the parent, or
at a site root to every site, where the span stage releases once every site has arrived (R141). -/
def barrierArrive (p : Nat) (id : Word) (e : Nat) : Nat → State → Nat → Nat → State
  | 0, s, _, _ => s
  | n + 1, s, st, i =>
    match collFind s p id with
    | none => s
    | some c => match epochFind c e with
      | none => s
      | some x =>
        if x.arrived.contains (st, i) then s
        else
          let x := { x with arrived := x.arrived ++ [(st, i)] }
          let s := epochMod s p id e (fun _ => x)
          if !stageArrived s c x st then s
          else if st = 2 then releaseBarrier s p id e
          else if st = 1 ∧ isRoot c then
            (match c.span with
            | some q =>
              let s := (peerSites q).foldl (fun s j => tackSite s c q j 2 0 false e) s
              barrierArrive p id e n s 2 q.siteIdx
            | none => s)
          else if st = 0 ∧ hasStage c 1 then
            (match ownIndex s c 1 with
            | some j => barrierArrive p id e n s 1 j
            | none => s)
          else tackParent s c 2 e

/-! ### Straggler ledger (R153, R154, R460) -/

/-- The ledger of a stage. -/
def ledgerOf (c : Coll) (st : Nat) : Ledger := tabGet ⟨[], 0, [], []⟩ c.ledgers st

/-- A STRAGGLER report: trace record, CCO_SLG_ENTRY, and the event where the flag is set (R154, R460).  R161 gives no range for the entry's index and no
places for stage and contributor index in its second word: one entry, the stage in bits 31:30 (log 84). -/
def slgReport (s : State) (b : Bolt) (i count late : Nat) (set : Bool) : State :=
  let words := [b.coll, BitVec.ofNat 32 (b.stage * pow2 30 + i), BitVec.ofNat 32 count, BitVec.ofNat 32 late]
  let put := fun (s : State) (v : Nat) => { s with cco := { s.cco with slg := tabSet [] s.cco.slg v words } }
  let s := put (put s b.panel) pfView
  let s := if set then ccoEvent s b.panel 0 else s
  tracePush s { typ := 7, panel := b.panel, unit := 0x22, stage := b.stage, chalk := b.chalk, time := traceTime s, coll := b.coll,
                epoch := BitVec.ofNat 32 b.epoch, chunk := BitVec.ofNat 32 count, arg := BitVec.ofNat 32 (b2n set * 65536 + i) }

/-- A chunk's completion enters its stage's ledger: who came last and by how much; an index whose share of the last 2^WIN completions
reaches THRESH / 256 is flagged, and cleared below half of it (R153, R154).  The ledger keeps 2^20 completions, the most that WIN can ask for. -/
def ledgerUpdate (s : State) (b : Bolt) : State :=
  match collFind s b.panel b.coll with
  | none => s
  | some c =>
    let win := pow2 (regBf s .CCO_SLG_CFG b.panel 12 8)
    let th := regBf s .CCO_SLG_CFG b.panel 7 0
    let g := ledgerOf c b.stage
    let late := if b.want.length ≤ 1 then 0 else b.lastUs - b.prevUs
    let g := { g with recent := (b.lastIdx :: g.recent).take (pow2 20), total := g.total + 1,
                      late := tabSet 0 g.late b.lastIdx (min (pow2 32 - 1) (tabGet 0 g.late b.lastIdx + late)) }
    let window := g.recent.take win
    let share := fun (i : Nat) => (window.filter (· == i)).length
    let raised := if win ≤ g.total then (dedup window).filter (fun i => !g.suspect.contains i && decide (th * win ≤ 256 * share i)) else []
    let cleared := g.suspect.filter (fun i => decide (512 * share i < th * win))
    let g := { g with suspect := (g.suspect.filter (fun i => !cleared.contains i)) ++ raised }
    let s := collMod s b.panel b.coll (fun c => { c with ledgers := tabSet ⟨[], 0, [], []⟩ c.ledgers b.stage g })
    let s := raised.foldl (fun s i => slgReport s b i (share i) (tabGet 0 g.late i) true) s
    cleared.foldl (fun s i => slgReport s b i (share i) (tabGet 0 g.late i) false) s

/-! ### Completion records (R147) -/

/-- The completion record of a chunk (R147). -/
def complRecord (b : Bolt) : List Byte :=
  leBytes 4 b.coll.toNat ++ leBytes 4 b.chunk ++ leBytes 6 b.epoch ++ [b.flags, BitVec.ofNat 8 (b.stage * 16)]

end Sys2Proof.Machine
end

