-- ==== Sys2Proof/Machine/Pleat.lean ====
section
/-! DEFINITION. The Pleat vector codec (06_pleat_codec): the two-stage search, blocks, codebook slots and their commands,
block requests and decoding. -/

namespace Sys2Proof.Machine

/-! ### Codebooks (R201-R203) -/

/-- A codebook slot with nothing in it. -/
def cbReset : Codebook := ⟨.empty, 0, 0, 0, []⟩
/-- A codebook slot. -/
def cbGet (s : State) (k : Nat) : Codebook := tabGet cbReset s.plt.cbs k
/-- Sets it. -/
def cbSet (s : State) (k : Nat) (x : Codebook) : State := { s with plt := { s.plt with cbs := tabSet cbReset s.plt.cbs k x } }

/-- Elements of a sub-vector: 2, 4 or 8 (R190, R192). -/
def cbD (x : Codebook) : Nat := pow2 (x.dim + 1)

/-- Entry `k` of a codebook: centroid of cell c at 17c, its word w at 17c + 1 + w (R201). -/
def cbEntry (x : Codebook) (k : Nat) : List Val :=
  ((x.entries.drop (k * cbD x)).take (cbD x)).map (fun w => fpDecode bf16 w.toNat)

/-- Every value of an image is finite with a magnitude of at most 1.0, and its length is that of its dimension (R201). -/
def imageOk (dim : Nat) (img : List Byte) : Bool :=
  decide (dim < 3) && img.length == 544 * pow2 (dim + 1) && (readElems 2 (272 * pow2 (dim + 1)) img).all (fun w => decide (w.toNat % 32768 ≤ 0x3F80))

/-- The copy of a codebook slot that a 32 B block lies in; none outside the codebook region (R268; log 74). -/
def codebookCopy (b : Nat) : Option Nat :=
  if codebookBase ≤ 32 * b ∧ 32 * b < ctlStoreBase then some (Config.codebookCopy b % 512) else none

/-- A block of one copy of a slot reads uncorrectable. -/
def cbCopyBad (s : State) (n : Nat) : Bool := s.mem.ue.any (fun b => codebookCopy b == some n)

/-- A slot of which both copies fail becomes EMPTY once its REF count is zero (R277). -/
def cbLost (s : State) (k : Nat) : State :=
  if (cbGet s k).state = .valid ∧ codebookRef s k = 0 ∧ cbCopyBad s (2 * k) ∧ cbCopyBad s (2 * k + 1) then cbSet s k { cbReset with gen := (cbGet s k).gen } else s

/-- A copy of `n` bytes is written to the codebook region, at a place that the spec does not give (R202, R268, R280; log 74). -/
def copyTraffic (n : Nat) (s : State) : State :=
  let (a, s) := freeBelow s 0x2000
  countBytes .MEM_CNT_WR_BYTES (n / 256 + 2) s (codebookBase + 8192 * a) n

/-- A codebook is put into its slot: −0 reads as +0, the fingerprint is the CRC of the image followed by DIM, GEN advances; both copies are
written whole, which clears an uncorrectable error in them (R201, R202, R277, R280). -/
def cbLoad (s : State) (k dim : Nat) (img : List Byte) : State :=
  let x := cbGet s k
  let s := { s with mem := { s.mem with ue := s.mem.ue.filter (fun b => (codebookCopy b).map (· / 2) != some k) } }
  let s := copyTraffic img.length (copyTraffic img.length s)
  let es := (readElems 2 (272 * pow2 (dim + 1)) img).map (fun w => if w = 0x8000 then 0 else w)
  cbSet s k ⟨.valid, x.gen + 1, dim, crc32c (img ++ [BitVec.ofNat 8 dim]), es⟩

/-! ### The search (R195-R197) -/

/-- The product of two finite values. -/
def valMul : Val → Val → Val
  | .fin n m e, .fin k l g => .fin (n != k) (m * l) (e + g)
  | _, _ => .nan

/-- A value rounded to FP32, to nearest-even. -/
def rne32 (v : Val) : Val := valFp32 (BitVec.ofNat 32 (fpRound fp32 false v).1)

/-- One finite value is below another. -/
def valLt (a b : Val) : Bool :=
  match valAdd a (valNeg b) with
  | .fin n m _ => n && m != 0
  | _ => false

/-- The stored norm of an entry: the FP32 sum of squares in ascending element order (R202). -/
def cbNorm (e : List Val) : Val := e.foldl (fun acc x => rne32 (valAdd acc (valMul x x))) (.fin false 0 0)

/-- The distance of the search, less |x|² (R196). -/
def cbDist (x e : List Val) : Val :=
  let dot := (x.zip e).foldl (fun acc p => rne32 (valAdd acc (valMul p.1 p.2))) (.fin false 0 0)
  rne32 (valAdd (cbNorm e) (valNeg (dot.scale 1)))

/-- The nearest of 16 entries from `base` on in steps of `step`, the lower index among equals (R196). -/
def cbNearest (cb : Codebook) (x : List Val) (base step : Nat) : Nat :=
  ((List.range 16).foldl (fun (best : Option (Nat × Val)) i =>
    let d := cbDist x (cbEntry cb (base + step * i))
    match best with
    | none => some (i, d)
    | some (j, e) => if valLt d e then some (i, d) else some (j, e)) none).elim 0 Prod.fst

/-- The code of a sub-vector: cell, then word of that cell (R196). -/
def cbCode (cb : Codebook) (x : List Val) : Nat :=
  let c := cbNearest cb x 0 17
  16 * c + cbNearest cb x (17 * c + 1) 1

/-- The reconstruction of a sub-vector in FP32 (R197). -/
def cbRecon (cb : Codebook) (x : Int) (code : Nat) : List Word :=
  (cbEntry cb (17 * (code / 16) + 1 + code % 16)).map (fun v => BitVec.ofNat 32 (fpRound fp32 false (v.scale x)).1)

/-- A list cut into pieces of `k`. -/
def pieces {α : Type} (k : Nat) : Nat → List α → List (List α)
  | 0, _ => []
  | n + 1, l => if l.isEmpty then [] else l.take k :: pieces k n (l.drop k)

/-! ### Blocks (R190, R191, R195-R199) -/

/-- What encoding a block gives: its bytes, the residual of each element, the flags set. -/
structure PleatOut where
  bytes : List Byte
  resid : List Word
  flags : Byte
  deriving DecidableEq, Repr

/-- A block of 256 values v, each with whether it is infinite only through the addition's overflow, is encoded (R195, R196, R198, R199).
A flushed element's residual is its v (log 37); such an infinity sets OVF in place of INF (R65). -/
def encodeBlock (cb : Codebook) (ftz resFp32 : Bool) (vals : List (Word × Bool)) : PleatOut :=
  let d := cbD cb
  let flushed : Word → Bool := fun w => ftz && fpSubnormal fp32 w.toNat
  let vs := vals.map (fun p => if flushed p.1 then Val.fin false 0 0 else valFp32 p.1)
  let fl := flIf (vals.any (fun p => flushed p.1)) flFlush
  let isInf : Word → Bool := fun w => decide (w.toNat % pow2 31 = 0x7F800000)
  let special := vals.any (fun p => decide (0x7F800000 ≤ p.1.toNat % pow2 31))
  if special then
    { bytes := [0xFF, 0x02] ++ List.replicate (256 / d) 0, resid := vals.map (fun _ => 0),
      flags := fl ||| flNan ||| flIf (vals.any (fun p => isInf p.1 && !p.2)) flInf ||| flIf (vals.any (fun p => isInf p.1 && p.2)) flOvf }
  else
    let own := fun (w : Word) => residual resFp32 (valFp32 w) (.fin false 0 0)
    let logs := vs.filterMap (fun v => match v with
      | .fin _ m e => if m = 0 then none else some (magLog m e)
      | _ => none)
    match logs with
    | [] => { bytes := [0x00, 0x01] ++ List.replicate (256 / d) 0, resid := vals.map (fun p => own p.1), flags := fl }
    | l :: ls =>
      let x := max (-127) (min 127 (ls.foldl max l + 1))
      let xs := vs.map (fun v => fpDecode bf16 (fpRound bf16 false (v.scale (-x))).1)
      let codes := (pieces d 256 xs).map (cbCode cb)
      let ns := codes.flatMap (cbRecon cb x)
      { bytes := [BitVec.ofNat 8 (x + 127).toNat, 0x00] ++ codes.map (BitVec.ofNat 8),
        resid := (vals.zip ns).map (fun q => if flushed q.1.1 then own q.1.1 else residual resFp32 (valFp32 q.1.1) (valFp32 q.2)), flags := fl }

/-- The FP32 values of a block; none where the spec gives none: E 0xFF without SPECIAL, both flags, a codebook no longer VALID (R191, R199;
log 38). -/
def decodeBlock (cb : Codebook) (bs : List Byte) : Option (List Word) :=
  let e := leField bs 0 1
  match leField bs 1 1 % 4 with
  | 0 =>
    if e = 0xFF ∨ cb.state ≠ .valid then none
    else some (((bs.drop 2).take (256 / cbD cb)).flatMap (fun c => cbRecon cb ((e : Int) - 127) c.toNat))
  | 1 => some (List.replicate 256 0)
  | 2 => some (List.replicate 256 (BitVec.ofNat 32 (fpNan fp32)))
  | _ => none

/-- Bytes of a block of a codebook (R191). -/
def blockBytes (cb : Codebook) : Nat := 2 + 256 / cbD cb

/-! ### Fragments (R192, R193) -/

/-- The value part of a PLEAT fragment: prefix, then whole blocks (R192). -/
def pleatFrag (k : Nat) (cb : Codebook) (blocks : List (List Byte)) : List Byte :=
  [BitVec.ofNat 8 k, BitVec.ofNat 8 cb.dim] ++ leBytes 2 blocks.length ++ wordBytes cb.fp ++ List.replicate 8 0 ++ blocks.flatten

/-- A receiver takes the value part of a PLEAT fragment: the checks of R193. -/
def pleatPartOk (s : State) (b : List Byte) : Bool :=
  let cb := cbGet s (leField b 0 1)
  let n := leField b 2 2
  leField b 1 1 == cb.dim && cb.state == .valid && leWord b 4 == cb.fp && leField b 8 8 == 0 &&
  b.length == 16 + n * blockBytes cb && (List.range n).all (fun i => decide (leField b (17 + i * blockBytes cb) 1 < 4))

/-- Bytes of a value part by its own prefix (R191, R192): all there are where its DIM is reserved. -/
def pleatPartBytes (b : List Byte) : Nat :=
  let dim := leField b 1 1
  if 2 < dim then b.length else 16 + leField b 2 2 * (2 + 256 / pow2 (dim + 1))

/-- The blocks of a message's fragments, in ascending order, each with its codebook slot. -/
def pleatBlocks (s : State) (fs : List Frag) : List (Nat × List Byte) :=
  (sortBy (fun f => f.off) fs).flatMap (fun f =>
    let k := leField f.payload 0 1
    (pieces (blockBytes (cbGet s k)) 17 (f.payload.drop 16)).map (fun b => (k, b)))

/-! ### Encode requests (R208, R209) -/

/-- Blocks the queue holds (R209). -/
abbrev encQueue : Nat := 512
/-- Encoder arrays (R208). -/
abbrev encArrays : Nat := 16

/-- A NARROW finds the queue or its panel's share full (R209). -/
def encFull (s : State) (p : Nat) : Bool :=
  decide (encQueue ≤ s.plt.enc.length) || decide (regBf s .PLT_PANEL_MAXQ p 9 0 ≤ (s.plt.enc.filter (fun q => q.panel == p)).length)

/-- The flags of a rounding join the chunk's (R69). -/
def boltFlags (s : State) (b : Nat) (fl : Byte) : State :=
  match boltGet s b with
  | none => s
  | some x => boltSet s b (some { x with flags := x.flags ||| fl })

/-- A block's codes enter DST and its bytes the output stream; its residuals are queued for the Remnant store.  The results of an
aborted chunk are discarded (R198, R209, R211). -/
def blockReturn (s : State) (q : EncReq) (o : PleatOut) : State :=
  match runOf s q.slot with
  | none => s
  | some x =>
    if x.num ≠ q.inv then s
    else
      let codes := (o.bytes.drop 2).map (fun b => BitVec.ofNat 32 b.toNat)
      let y := invSetReg x q.dst ⟨codes, []⟩
      let y := { y with out := { y.out with pleat := y.out.pleat.set q.place (some o.bytes) }, pend := y.pend.erase q.dst, plt := y.plt - 1 }
      let s := boltFlags (runSet s q.slot (some y)) x.bolt o.flags
      let live : Bool := match boltGet s x.bolt with
        | some b => b.state != BoltState.aborting
        | none => false
      match q.rem with
      | some (addr, n) =>
        if live then
          let data := (o.resid.take n).flatMap (fun w => leBytes (if q.resFp32 then 4 else 2) w.toNat)
          { s with seam := { s.seam with remq := s.seam.remq ++ [⟨q.slot, q.inv, true, q.vec, addr, data, data.length⟩] } }
        else s
      | none => s

/-- PLEAT_BLOCK_RETURN: encoder array `k`, which works on request `k` of the queue, returns its block (R208, R209). -/
def execPleatBlockReturn (k : Nat) (s : State) : Result :=
  .next <|
    match s.plt.enc[k]? with
    | none => s
    | some q =>
      if encArrays ≤ k ∨ !domOn s 17 then s
      else
        let o := encodeBlock (cbGet s q.cb) q.ftz q.resFp32 q.vals
        blockReturn (ctrInc { s with plt := { s.plt with enc := s.plt.enc.eraseIdx k } } .PLT_CNT_ENC_BLK 0) q o

/-! ### Decoding (R205-R207) -/

/-- The decoder group a contribution goes to: the one of its engine's die with fewer blocks queued, the first among equals (R205). -/
def decGroup (s : State) (ctx : Nat) : Nat :=
  let base := if ctx / 16 < 16 then 0 else 2
  let load := fun (g : Nat) => (s.plt.dec.filter (fun d => d.group == g)).length
  if load (base + 1) < load base then base + 1 else base

/-- A whole Pleat contribution goes to the decoders: its blocks are dealt, and a bobbin is asked for, into which they are copied once it is bound (R205,
R207). -/
def decodeStart (s : State) (b i : Nat) : State :=
  match boltGet s b with
  | none => s
  | some x => match x.msgs.find? (fun m => m.index == i) with
    | none => s
    | some m =>
      let g := decGroup s x.ctx
      let blks := pleatBlocks s m.frags
      let (h, s) := bobRequest s 4 0x24 (decSub b i) false
      let jobs := blks.zipIdx.map (fun p => (⟨g, b, i, p.2, p.1.1, p.1.2⟩ : DecJob))
      let s := { s with plt := { s.plt with dec := s.plt.dec ++ jobs } }
      let s := msgMod s b i (fun m => { m with decode := blks.length, dbob := h, data := ⟨10, List.replicate (256 * blks.length) 0, [], [], m.data.idx⟩ })
      if h.isSome then decodeCopy s b i else s

/-- The values of a block whose decoding the spec does not give are free (log 38). -/
def freeWords : Nat → State → List Word × State
  | 0, s => ([], s)
  | n + 1, s =>
    let (w, s) := freeWord s
    let (l, s) := freeWords n s
    (w :: l, s)

/-- PLEAT_DECODE_DONE: decoder `dec` of a group finishes its oldest block; the values take the block's place in the contribution's bobbin
(R205, R206, R207).  It waits while PD17 is off or no bobbin has been bound; the handle is checked at its use (R263). -/
def execPleatDecodeDone (group dec : Nat) (s : State) : Result :=
  .next <|
    match s.plt.dec.find? (fun d => d.group == group && d.block % 16 == dec) with
    | none => s
    | some d =>
      let bound := (boltGet s d.bolt).bind (fun x => (x.msgs.find? (fun m => m.index == d.index)).bind (fun m => m.dbob))
      if !domOn s 17 || bound.isNone then s
      else match bobUse s 0x24 bound (1024 * d.block) with
      | (false, s) => s
      | (true, s) =>
        let (vals, s) := match decodeBlock (cbGet s d.cb) d.bytes with
          | some l => (l, s)
          | none => freeWords 256 s
        let s := ctrInc { s with plt := { s.plt with dec := s.plt.dec.erase d } } .PLT_CNT_DEC_BLK 0
        msgMod s d.bolt d.index (fun m =>
          let raw := m.data.raw.take (256 * d.block) ++ vals ++ m.data.raw.drop (256 * (d.block + 1))
          { m with decode := m.decode - 1, data := { m.data with raw := if m.decode ≤ 1 then raw.take m.elems else raw } })

/-! ### Commands (R202-R204, R212) -/

/-- A command ends with a result: it is in PLT_CMD_STATUS when PLT_CMD_DONE comes. -/
def pltEnd (s : State) (k op : Nat) (r : Byte) : State := { s with plt := { s.plt with busy := true, op := op, slot := k, image := none, next := r } }

/-- PLT_CMD LOAD: the descriptor and the image are copied now; a slot in use is refused (R202-R204).  An address outside the panel
area or a dimension that is none gives result 0x01 (R269; log 39). -/
def pltLoadCmd (s : State) (k : Nat) : State :=
  if codebookRef s k ≠ 0 then pltEnd s k 1 2
  else
    let a := (regGet s .PLT_CMD_ADDR_LO 0).toNat + (regGet s .PLT_CMD_ADDR_HI 0).toNat * pow2 32
    if !inQuota s pfView a 16 then pltEnd s k 1 1
    else
      match hbmRead s a 16 with
      | (none, s) => pltEnd s k 1 1
      | (some d, s) =>
        let img := leField d 0 8
        let dim := leField d 8 1
        let n := 544 * pow2 (dim + 1)
        if 2 < dim ∨ !inQuota s pfView img n then pltEnd s k 1 1
        else
          match hbmRead s img n with
          | (none, s) => pltEnd s k 1 1
          | (some bs, s) =>
            let s := cbSet s k { cbGet s k with state := .loading }
            { s with plt := { s.plt with busy := true, op := 1, slot := k, dim := dim, image := some bs, next := 0 } }

/-- PLT_LOAD: a doorbell; one written while BUSY is set is refused with result 0x03 (R212). -/
def execPltLoad (req : Requester) (slot : Nat) (s : State) : Result :=
  .next <| guardWrite s req .PLT_CMD 0 (fun s =>
    if s.plt.busy then { s with plt := { s.plt with result := 3 } } else pltLoadCmd s (slot % 256))

/-- PLT_CLEAR: a slot in use is refused (R203); BUSY as for LOAD. -/
def execPltClear (req : Requester) (slot : Nat) (s : State) : Result :=
  .next <| guardWrite s req .PLT_CMD 0 (fun s =>
    if s.plt.busy then { s with plt := { s.plt with result := 3 } }
    else pltEnd s (slot % 256) 2 (if codebookRef s (slot % 256) ≠ 0 then 2 else 0))

/-- PLT_CMD_DONE: the command takes effect and its result is written; a LOAD whose image fails its checks leaves the slot EMPTY and sets
CB_REFUSED (R202, R212; log 39). -/
def execPltCmdDone (s : State) : Result :=
  .next <|
    if !s.plt.busy then s
    else
      let p := s.plt
      let bad := match p.image with
        | some img => !imageOk p.dim img
        | none => false
      let empty := { cbReset with gen := (cbGet s p.slot).gen }
      let r : Byte := if bad then 1 else p.next
      let s := if p.op = 1 then (match p.image with
          | some img => if bad then cbSet s p.slot empty else cbLoad s p.slot p.dim img
          | none => s)
        else if r = 0 then cbSet s p.slot empty else s
      let s := if r = 1 then raiseEv s .PLT_EVENT 0 3 else s
      let s := { s with plt := { s.plt with result := r } }
      raiseEv { s with plt := { s.plt with busy := false, image := none } } .PLT_EVENT 0 0

end Sys2Proof.Machine
end

