-- ==== Sys2Proof/Machine/Faults.lean ====
section
/-! DEFINITION. Queued invocations and their choice (R112), program faults (R108), swatches (R432, R433), engine faults, trials and
fences (R431-R436). -/

namespace Sys2Proof.Machine

/-! ### Queued invocations (R79, R81, R82, R112, R178) -/

/-- A queued invocation: its panel, whether it is a DONE invocation, its place in the order of arrival, bolt and contributor index. -/
structure Cand where
  panel : Nat
  done : Bool
  age : Nat
  bolt : Nat
  index : Nat
  deriving DecidableEq, Repr

/-- The Remnant ordering holds a DONE invocation of the narrowing stage back (R178). -/
def remnantHolds (s : State) (b : Bolt) : Bool :=
  match collFind s b.panel b.coll with
  | none => false
  | some c => match remRegion c with
    | none => false
    | some q =>
      b.stage == 1 && c.epochs.any (fun x => !x.barrier && decide (x.num < b.epoch) && (q.banks == 2 || !x.ended.contains (1, b.chunk)))

/-- A contribution waits for dispatch: not taken, decoded where it is PLEAT (R206), its turn come where the chunk is ORDERED (R82).  One that is
decoded is not held back by an earlier one that is not yet (log 83). -/
def msgReady (b : Bolt) (m : Msg) : Bool :=
  !m.taken && (m.fmt != 10 || (m.whole && m.decode == 0)) && (b.mode != 1 || inTurn b m.index)

/-- Every contribution expected has been counted. -/
def allCounted (b : Bolt) : Bool := b.want.all (fun i => b.counted.contains i)

/-- The queued invocations of one bolt. -/
def boltQueue (s : State) (k : Nat) (b : Bolt) : List Cand :=
  if b.state ≠ .open ∨ (ctxGet s b.ctx).faulted then []
  else
    let arr := (b.msgs.filter (msgReady b)).map (fun m => ⟨b.panel, false, m.age, k, m.index⟩)
    if allCounted b && !remnantHolds s b then ⟨b.panel, true, b.age, k, 0⟩ :: arr else arr

/-- The queued invocations of the contexts bound to a stage slot: none while the engine is being reset or is unpowered. -/
def slotQueue (s : State) (i : Nat) : List Cand :=
  let e := i / 8
  if (engGet s e).state = .resetting ∨ (engGet s e).state = .fenced ∨ !domOn s (engDom e) then []
  else (boltsWhere s (fun b => b.ctx / 16 == e && ctxSlot s b.ctx == i)).flatMap (fun p => boltQueue s p.1 p.2)

/-- SEAM_PANEL_WT of a panel. -/
def panelWt (s : State) (e p : Nat) : Nat := regBf s .SEAM_PANEL_WT (4 * e + p / 4) (p % 4 * 8 + 7) (p % 4 * 8)

/-- A panel may be chosen among those with candidates: none has a smaller used / wt; weight 0 only if no panel has another (R112).  Among
equals the choice is the command's (log 31). -/
def panelMay (s : State) (e : Nat) (ps : List Nat) (p : Nat) : Bool :=
  let used := fun (q : Nat) => tabGet 0 (engGet s e).used q
  ps.contains p &&
  (if panelWt s e p = 0 then ps.all (fun q => panelWt s e q == 0 && decide (used p ≤ used q))
   else ps.all (fun q => panelWt s e q == 0 || decide (used p * panelWt s e q ≤ used q * panelWt s e p)))

/-- Within a panel DONE invocations come before ARRIVE invocations, then the oldest (R112). -/
def candBest (l : List Cand) : Option Cand :=
  let d := l.filter (fun c => c.done)
  (if d.isEmpty then l else d).foldl (fun acc c => match acc with
    | none => some c
    | some x => if c.age < x.age then some c else acc) none

/-- A context has an invocation running. -/
def ctxRunning (s : State) (k : Nat) : Bool := s.seam.slots.any (fun e => match e.2.run with
  | some x => e.1 / 8 == k / 16 && x.ctx == k
  | none => false)

/-- A context has an invocation running or queued. -/
def ctxBusy (s : State) (k : Nat) : Bool :=
  ctxRunning s k || (ctxBolts s k).any (fun p => !(boltQueue s p.1 p.2).isEmpty)

/-- SEAM_CTX_STATUS (R118).  OPEN counts the chunks that have had their first CONTRIB; a RESERVED bolt is not counted (log 83). -/
def ctxStatusWord (s : State) (k : Nat) : Word :=
  let st := if (ctxGet s k).faulted then 3 else if !ctxBound s k then 0 else if ctxBusy s k then 2 else 1
  BitVec.ofNat 32 (st * 256 + min 128 ((ctxBolts s k).filter (fun p => p.2.state != .reserved)).length)

/-- SEAM_CTX_FCAUSE (R114). -/
def ctxCauseWord (s : State) (k : Nat) : Word :=
  let x := ctxGet s k
  BitVec.ofNat 32 (x.slot * 65536 + x.index.toNat * 256 + x.cause.toNat)

/-- SEAM_SLOT_STATUS (R116). -/
def slotStatusWord (s : State) (i : Nat) : Word :=
  let x := slotGet s i
  BitVec.ofNat 32 (x.active.gen % 256 * pow2 24 + x.errIndex.toNat * 65536 + x.errCause.toNat * 256 + b2n x.checking * 4 + b2n x.prev.isSome * 2 + b2n x.valid)

/-! ### Ending an invocation -/

/-- The bolt of an invocation that has ended is freed by its engine where it is being aborted, with the message it kept; a RETIRE may have waited for it (R113, R146, R162). -/
def abortingFree (s : State) (b : Nat) : State :=
  match boltGet s b with
  | none => s
  | some x =>
    if x.state = .aborting && !boltRunning s b then
      let s := x.msgs.foldl (fun s m => msgFree s b m) s
      retireFinish (creditAll (pageRelease (boltFree s (x.ctx / 16) b) (ctxSlot s x.ctx))) x.panel x.coll
    else s

/-! ### Program faults (R107, R108) -/

/-- Chunks of a context that are open: collective and epoch. -/
def openEpochsOf (s : State) (k : Nat) : List (Nat × Word × Nat) :=
  dedup (((ctxBolts s k).filter (fun p => p.2.state == .open || p.2.state == .done)).map (fun p => (p.2.panel, p.2.coll, p.2.epoch)))

/-- A program fault: the invocation stops, the context is faulted, the epochs of its open chunks abort (R108). -/
def progFault (s : State) (i : Nat) (cause : Byte) : State :=
  match runOf s i with
  | none => s
  | some x =>
    let s := invFree s i
    let s := ctxSet s x.ctx { ctxGet s x.ctx with faulted := true, cause := cause, index := BitVec.ofNat 8 x.pc, slot := i % 8 }
    let s := raiseEv s .SEAM_CTX_EVENT x.ctx 0
    let s := (openEpochsOf s x.ctx).foldl (fun s q => abortEpoch s q.1 q.2.1 q.2.2 2 false .self) s
    abortingFree s x.bolt

/-! ### Swatches (R432, R433, R457) -/

/-- The granule `g` of a chunk's accumulator area: 40 B per element in EXACT, 4 B otherwise (R44, R83). -/
def accGranule (b : Bolt) (g : Nat) : List Byte :=
  slice (b.acc.flatMap (fun x => if b.mode = 0 then leBytes 40 x.a.toNat else leBytes 4 (x.run.getD 0).toNat)) (g * 4096) 4096

/-- An address in scratchpad as a detector reports it: a granule of a chunk's accumulator area, of a parked contribution, or of a context's scratch
area (R76, R83, R432). -/
inductive PadAddr where
  | acc (bolt granule : Nat)
  | parked (bolt index granule : Nat)
  | scratch (ctx granule : Nat)
  deriving DecidableEq, Repr

/-- The granule at an address, where it belongs to context `k` (R432). -/
def padBytes (s : State) (k : Nat) (a : PadAddr) : Option (List Byte) :=
  match a with
  | .acc b g => (match boltGet s b with
    | some x => if x.ctx = k then some (accGranule x g) else none
    | none => none)
  | .parked b i g => (match boltGet s b with
    | some x => if x.ctx = k then (x.msgs.find? (fun m => m.index == i)).map (fun m => slice (m.frags.flatMap (fun f => f.payload)) (4096 * g) 4096) else none
    | none => none)
  | .scratch c g => if c = k then some ((tabGetList 0 (ctxGet s k).scratch (1024 * g) 1024).flatMap wordBytes) else none

/-- The oldest open chunk of a context. -/
def oldestBolt (s : State) (k : Nat) : Option Bolt :=
  (((ctxBolts s k).map Prod.snd).filter (fun b => b.state != .reserved)).foldl (fun acc b => match acc with
    | none => some b
    | some x => if b.firstUs < x.firstUs then some b else acc) none

/-- What a swatch samples: the granule the detector's address lies in where the suspect owns it, the first granule of the oldest open
chunk, the first of the scratch area, or nothing (R432). -/
def swatchSample (s : State) (k : Nat) (near : Option PadAddr) : Option (List Byte) :=
  match near.bind (padBytes s k), oldestBolt s k with
  | some l, _ => some l
  | none, some b => some (accGranule b 0)
  | none, none =>
    if ctxSpa s k = 0 then none
    else some ((tabGetList 0 (ctxGet s k).scratch 0 1024).flatMap wordBytes)

/-- The stage state of a swatch (R433). -/
def swatchStage (s : State) (k : Nat) : List Byte :=
  let i := ctxSlot s k
  let x := match runOf s i with
    | some x => if x.ctx = k then some x else none
    | none => none
  let next := match x with
    | some x => x.pc + 256
    | none => 0
  let ctr := fun (n : Nat) => match x with
    | some x => let c := tabGet ⟨0, 0⟩ x.loops n; leBytes 4 (c.trips * 65536 + c.value)
    | none => leBytes 4 0
  let reg := fun (r : Nat) => match x with
    | some x => (invReg x r).lanes
    | none => []
  wordBytes (regGet s .SEAM_CTX_ARITH k) ++ wordBytes (regGet s .SEAM_CTX_BIND k) ++ wordBytes (ctxStatusWord s k) ++ wordBytes (ctxCauseWord s k) ++
  wordBytes (slotGet s i).active.cfg ++ wordBytes (slotStatusWord s i) ++ leBytes 4 next ++ ctr 0 ++ ctr 1 ++ ctr 2 ++
  (List.range 64).flatMap (fun r => leBytes 2 (reg r).length) ++ List.replicate 856 0 ++
  (List.range 64).flatMap (fun r => (List.range 8).flatMap (fun l => wordBytes ((reg r).getD l 0)))

/-- Slots of the swatch region (R432). -/
abbrev swatchSlots : Nat := 131072

/-- The bytes of a swatch record (R433), `bad` where its slot reads uncorrectable (R445); where in the scratchpad an area lies is not given, so
SP_ADDR is free (log 40). -/
def swatchBytes (s : State) (seq : Word) (k det : Nat) (trial bad : Bool) (near : Option PadAddr) : List Byte × State :=
  let smp := swatchSample s k near
  let (g, s) := freeBelow s 1536
  let b := oldestBolt s k
  let f := fun (get : Bolt → Nat) (n : Nat) => leBytes n (b.elim 0 get)
  let stage := swatchStage s k
  let sample := smp.getD (List.replicate 4096 0)
  let body := stage ++ sample
  (leBytes 4 0x53574348 ++ wordBytes seq ++ leBytes 6 (nowStampSec s) ++ leBytes 4 (nowStampNs s) ++ leBytes 2 (nowFrac s) ++
    [BitVec.ofNat 8 (k / 16), BitVec.ofNat 8 ((ctxPanel s k).getD 0 * 16 + k % 16), BitVec.ofNat 8 det, BitVec.ofNat 8 (b2n smp.isNone + 2 * b2n trial + 4 * b2n bad)] ++
    leBytes 4 (if smp.isNone then 0 else g * 4096) ++ f (fun b => b.coll.toNat) 4 ++ f (fun b => b.epoch) 6 ++ f (fun b => b.chunk) 4 ++
    f (fun b => b.chalk.toNat) 4 ++ List.replicate 14 0 ++ wordBytes (crc32c body) ++ body ++ List.replicate 960 0, s)

/-- A swatch is captured: into the next slot of the swatch region, and the panel's mailbox (R432, R457, R458); INCOMPLETE where the slot reads
uncorrectable (R277, R445; log 40). -/
def swatch (s : State) (k det : Nat) (trial : Bool) (near : Option PadAddr) : State :=
  let seq := s.health.swatchSeq + 1
  let place := swatchBase + 8192 * ((seq.toNat - 1) % swatchSlots)
  let bad := ueIn s place 8192
  let s := bad.elim s (fun b => recordUe s (32 * b))
  let (bs, s) := swatchBytes s seq k det trial bad.isSome near
  let s := hbmWrite { s with health := { s.health with swatchSeq := seq } } place bs
  let s := raiseEv s .HLT_EVENT 0 8
  match ctxPanel s k with
  | none => s
  | some p => match obsArea s p with
    | none => s
    | some (a, _) =>
      let x := areaGet s p
      let s := areaSet (hbmWrite s (a + 20 * 1024 + 8192 * (x.swNext.toNat % 16)) bs) p { x with swNext := x.swNext + 1 }
      match oldestBolt s k with
      | some b => traceChunk s 0x22 10 p b.stage b.chalk b.coll b.epoch b.chunk seq.toNat
      | none => s

/-! ### Engine faults (R431-R436) -/

/-- The suspects of an engine: contexts with an open chunk or an invocation running or queued, in ascending number (R431). -/
def suspectsOf (s : State) (e : Nat) : List Nat :=
  ((List.range 16).map (fun c => 16 * e + c)).filter (fun k => ctxRunning s k || (ctxBolts s k).any (fun p => p.2.state != .reserved))

/-- The collectives that name a context. -/
def collsOf (s : State) (k : Nat) : List (Nat × Word) := (s.cco.colls.filter (fun c => c.ctx.any (fun x => x.2 == k))).map (fun c => (c.panel, c.id))

/-- The open epochs of the collectives of contexts abort with cause ENGINE_FAULT. -/
def abortCtxs (s : State) (ks : List Nat) : State :=
  (dedup (ks.flatMap (collsOf s))).foldl (fun s q => abortAll s q.1 q.2 1 .self) s

/-- Issue stops: the engine's invocations are gone, and the bolts its slots ran are freed where they are aborting. -/
def engineStop (s : State) (e : Nat) : State :=
  (List.range 8).foldl (fun s j =>
    match runOf s (8 * e + j) with
    | some x => abortingFree (invFree s (8 * e + j)) x.bolt
    | none => s) s

/-- The detectors of one fault (R446): engine, context, one bit per code (log 41). -/
def lastFault (s : State) (e k det : Nat) (also : Bool) : State :=
  let d : Byte := BitVec.ofNat 8 (pow2 det)
  { s with health := { s.health with lastEng := e, lastCtx := k % 16, detectors := if also then s.health.detectors ||| d else d } }

/-- Times of the last second. -/
def lastSecond (s : State) (l : List Nat) : List Nat := l.filter (fun t => decide (s.localUs < t + 1000000))

/-- The engine is fenced: it takes no bolts, and the epochs of every collective bound to it abort (R436). -/
def fence (s : State) (e : Nat) : State :=
  let s := engSet s e { engGet s e with state := .fenced, suspects := [], trial := none, chunks := [], passed := [] }
  raiseEv (abortCtxs s ((List.range 16).map (fun c => 16 * e + c))) .HLT_EVENT 0 2

/-- A fault during the trial of `c`: a verdict (R435).  The engine is then reset as for any fault, which ends what other contexts still have open on
it (R431; log 89). -/
def verdict (s : State) (e c det : Nat) (near : Option PadAddr) : State :=
  let ks := dedup (c :: suspectsOf s e)
  let s := swatch s c det true near
  let s := engineStop s e
  let s := ctxSet s c { ctxGet s c with faulted := true, slot := ctxSlot s c % 8 }
  let s := match ctxPanel s c with
    | some p => raiseEv (panelSet s p ⟨.faulted, BitVec.ofNat 8 det⟩) .PNL_EVENT p 1
    | none => s
  let s := abortCtxs s ks
  let s := raiseEv (ctrInc s .HLT_CNT_VERDICT 0) .HLT_EVENT 0 1
  let x := engGet s e
  let vs := s.localUs :: lastSecond s x.verdicts
  let s := engSet s e { x with state := .resetting, verdicts := vs, faults := x.faults.drop 1, suspects := [], chunks := [], passed := [] }
  if 2 ≤ vs.length then fence s e else s

/-- SECDED has corrected a single-bit error of an engine's scratchpad: it is counted, for which the spec names no register, and SECDED_CORRECTED is
set (R76, R114; log 82). -/
def padCorrected (s : State) (e : Nat) : State :=
  raiseEv (engSet s e { engGet s e with corrected := (engGet s e).corrected + 1 }) .SEAM_ENG_EVENT e 3

/-- An engine fault (R431, R435, R445): `k` the context at fault, `det` the detector's code, `near` the address it reports.  While the engine is
being reset only the detector is recorded.  An engine that is fenced with invocations still running stops them and stays fenced (R75, R436; log 68). -/
def engineFault (s : State) (e k det : Nat) (near : Option PadAddr) : State :=
  let x := engGet s e
  if x.state = .resetting then lastFault s e k det true
  else
    let s := raiseEv (raiseEv (ctrInc s .HLT_CNT_ENG_FAULT 0) .SEAM_ENG_EVENT e 2) .HLT_EVENT 0 0
    let s := lastFault s e k det false
    if x.state = .fenced then
      let ks := suspectsOf s e
      abortCtxs (engineStop (ks.foldl (fun s k => swatch s k det false near) s) e) ks
    else match x.trial with
    | some c => verdict s e c det near
    | none =>
      let ks := suspectsOf s e
      let tied := ks.flatMap (fun k => ((ctxBolts s k).filter (fun p => p.2.state != .reserved)).map (fun p => (k, p.2.coll, p.2.chunk)))
      let s := ks.foldl (fun s k => swatch s k det false near) s
      let s := engineStop s e
      let s := engSet s e { x with state := .resetting, faults := s.localUs :: lastSecond s x.faults, suspects := ks, trial := none, chunks := tied, passed := [] }
      abortCtxs s ks

/-- The trial of the next suspect begins; when all have passed the fault was transient, and the third such fault within a second fences
the engine (R434-R436). -/
def trialNext (s : State) (e : Nat) : State :=
  let x := engGet s e
  match x.suspects with
  | k :: t => creditAll (replaceReserved (engSet s e { x with state := .trial, trial := some k, suspects := t, passed := [] }) e)
  | [] =>
    let s := engSet s e { x with state := .normal, trial := none, chunks := [], passed := [] }
    let s := ctrInc s .HLT_CNT_TRANSIENT 0
    let near := match x.faults with
      | t :: _ => x.faults.filter (fun u => decide (t < u + 1000000))
      | [] => []
    if 3 ≤ near.length then fence s e else creditAll s

/-- A chunk of the context under trial has completed: the trial passes once every chunk index tied to it has (R434). -/
def trialChunk (s : State) (k : Nat) (coll : Word) (chunk : Nat) : State :=
  let e := k / 16
  let x := engGet s e
  if x.trial ≠ some k ∨ x.state ≠ .trial then s
  else
    let p := (k, coll, chunk) :: x.passed
    let s := engSet s e { x with passed := p }
    if (x.chunks.filter (fun q => q.1 == k)).all (fun q => p.contains q) then trialNext s e else s

/-- ENGINE_RESET_DONE: the engine's reset ends; the trials begin, unless a verdict has ended them or the quarter is draining (R431, R435,
R445). -/
def execEngineResetDone (eng : Nat) (s : State) : Result :=
  .next <|
    let x := engGet s eng
    if x.state ≠ .resetting then s
    else if x.trial.isSome then creditAll (engSet s eng { x with state := .normal, trial := none })
    else if !domReady s (engDom eng) then engSet s eng { x with state := .normal, suspects := [], chunks := [] }
    else trialNext s eng

/-- TRIAL_TIMEOUT: TRIAL_TO has passed without a fault; the suspect passes (R434). -/
def execTrialTimeout (eng : Nat) (s : State) : Result :=
  .next <| if (engGet s eng).state = .trial then trialNext s eng else s

/-- A context's invocation waits for another unit to accept work, so that its watchdog pauses: for a bobbin, for a stream's destination to accept
it, for the Pleat queue, for the Remnant share (R144, R183, R209, R262, R289, R429). -/
def ctxPaused (s : State) (k : Nat) : Bool :=
  s.seam.slots.any (fun e => match e.2.run with
    | some x => e.1 / 8 == k / 16 && x.ctx == k && (x.bobWait || (x.stall &&
        (!x.emits.isEmpty || (boltGet s x.bolt).any (fun b => encFull s b.panel) ||
          (remWaiting s && s.seam.remq.any (fun q => q.slot == e.1 && q.inv == x.num)))))
    | none => false)

/-- CTX_WATCHDOG_EXPIRY: the progress watchdog of a context that has an invocation running or queued, and not paused (R428, R429). -/
def execCtxWatchdogExpiry (ctx : Nat) (s : State) : Result :=
  .next <|
    if 512 ≤ ctx ∨ !ctxBusy s ctx ∨ ctxPaused s ctx then s
    else engineFault (raiseEv s .SEAM_CTX_EVENT ctx 1) (ctx / 16) ctx 1 none

/-- UNFENCE: the engine's self-test runs, and the engine returns to NORMAL where it passes (R436, R446). -/
def execUnfence (req : Requester) (eng : Nat) (pass : Bool) (s : State) : Result :=
  .next <| guardWrite s req .HLT_CMD 0 (fun s =>
    let x := engGet s (eng % 32)
    if x.state = .fenced ∧ pass then creditAll (engSet s (eng % 32) { x with state := .normal, verdicts := [], faults := [] }) else s)

end Sys2Proof.Machine
end

