-- ==== Sys2Proof/Machine/Flash.lean ====
section
/-! DEFINITION. The flash: commands, the fuses of the minimum version, the swatch log (14_registers_and_pattern,
16_observation_and_selftest). -/

namespace Sys2Proof.Machine

/-! ### Contents -/

/-- What an erased byte reads as. -/
abbrev flashBlank : Byte := 0xFF
/-- Bytes of the flash. -/
def flashSize (s : State) : Nat := s.flash.sizeMiB * 0x100000
/-- Bytes of the flash from an address on. -/
def flashBytes (s : State) (a n : Nat) : List Byte := tabGetList flashBlank s.flash.cells a n
/-- Erases `n` bytes. -/
def flashErase (s : State) (a n : Nat) : State :=
  { s with flash := { s.flash with cells := tabDrop s.flash.cells (fun i => decide (a ≤ i ∧ i < a + n)) } }
/-- Programs bytes: programming only clears bits of a NOR flash. -/
def flashProgram (s : State) (a : Nat) (bs : List Byte) : State :=
  let old := flashBytes s a bs.length
  { s with flash := { s.flash with cells := tabSetList flashBlank s.flash.cells a ((old.zip bs).map (fun p => p.1 &&& p.2)) } }

/-- The device is in safe state (R411, R415). -/
def safeState (s : State) : Bool := s.boot.stage == 15

/-! ### Commands (R423, R424) -/

/-- Start of the swatch log, which goes to the end of the device (R415). -/
abbrev logBase : Nat := 0x4000000

/-- An erase or program is in a protected region: the slot in use, or the swatch log; none in safe state (R423). -/
def flashProtected (s : State) (a : Nat) : Bool :=
  !safeState s && (decide (logBase ≤ a) || decide (a / 0x2000000 = b2n s.boot.patSlotB))

/-- Alignment a command asks of its address. -/
def flashAlign : Nat → Nat
  | 1 => 65536
  | 2 => 256
  | _ => 4

/-- The ERR that refuses a command, 0 when it is accepted; the order of the checks is the model's (R424, log 52). -/
def flashErr (s : State) (code a : Nat) : Byte :=
  if code = 0 ∨ 3 < code then 4
  else if a % flashAlign code ≠ 0 then 2
  else if flashSize s ≤ a then 3
  else if code ≠ 3 ∧ flashProtected s a then 1
  else 0

/-- A write of SEC_FLASH_CMD (R423, R424).  A command written while BUSY ends at once with ERR 0x05. -/
def flashCmd (s : State) (code : Nat) : State :=
  if s.flash.busy then raiseEv (raiseEv { s with flash := { s.flash with err := 5 } } .SEC_EVENT 0 0) .SEC_EVENT 0 1
  else
    let a := (regGet s .SEC_FLASH_ADDR 0).toNat
    let e := flashErr s code a
    let op : FlashOp :=
      if e ≠ 0 then .refused e
      else if code = 1 then .erase a
      else if code = 2 then .program a ((List.range 64).map (fun i => regGet s .SEC_FLASH_DATA i))
      else .read a
    { s with flash := { s.flash with busy := true, op := op } }

/-- FLASH_ERASE: SEC_FLASH_CMD 0x01. -/
def execFlashErase (req : Requester) (s : State) : Result := .next <| guardWrite s req .SEC_FLASH_CMD 0 (fun s => flashCmd s 1)
/-- FLASH_PROGRAM: SEC_FLASH_CMD 0x02. -/
def execFlashProgram (req : Requester) (s : State) : Result := .next <| guardWrite s req .SEC_FLASH_CMD 0 (fun s => flashCmd s 2)
/-- FLASH_READ: SEC_FLASH_CMD 0x03. -/
def execFlashRead (req : Requester) (s : State) : Result := .next <| guardWrite s req .SEC_FLASH_CMD 0 (fun s => flashCmd s 3)

/-- The effect of a command as it completes, and its ERR; `fail` is the flash's report of an erase or program failure. -/
def flashRun (s : State) (fail : Bool) : Byte × State :=
  match s.flash.op with
  | .idle => (0, s)
  | .refused e => (e, s)
  | .erase a => if fail then (6, s) else (0, flashErase s a 65536)
  | .program a l => if fail then (6, s) else (0, flashProgram s a (l.flatMap wordBytes))
  | .read a => (0, { s with flash := { s.flash with rdata := leWord (flashBytes s a 4) 0 } })

/-- FLASH_DONE: BUSY clears, ERR is written, FLASH_DONE is set, with FLASH_ERR where ERR is not 0x00 (R424).  What a failed erase or program leaves
in its sector is the flash's own matter; here nothing changes (log 52). -/
def execFlashDone (fail : Bool) (s : State) : Result :=
  .next <|
    if !s.flash.busy then s
    else
      let (e, s) := flashRun s fail
      let s := raiseEv { s with flash := { s.flash with busy := false, op := .idle, err := e } } .SEC_EVENT 0 0
      if e = 0 then s else raiseEv s .SEC_EVENT 0 1

/-! ### The minimum version (R423, R424) -/

/-- SEC_CMD.RAISE_MINVER (R423, R424); while one is in progress another is refused (log 52). -/
def raiseMinver (s : State) : State :=
  let v := regGet s .SEC_CMD_ARG 0
  if s.boot.secBusy then raiseEv s .SEC_EVENT 0 3
  else if v.toNat < s.boot.minver.toNat then raiseEv { s with boot := { s.boot with secResult := 1 } } .SEC_EVENT 0 3
  else if s.boot.patVersion.toNat < v.toNat then raiseEv { s with boot := { s.boot with secResult := 2 } } .SEC_EVENT 0 3
  else { s with boot := { s.boot with secBusy := true, secValue := v } }

/-- RAISE_MINVER. -/
def execRaiseMinver (req : Requester) (s : State) : Result := .next <| guardWrite s req .SEC_CMD 0 raiseMinver

/-- RAISE_MINVER_DONE: the fuses are programmed, or their programming has failed (R424). -/
def execRaiseMinverDone (fail : Bool) (s : State) : Result :=
  .next <|
    if !s.boot.secBusy then s
    else if fail then { s with boot := { s.boot with secBusy := false, secResult := 3 } }
    else raiseEv { s with boot := { s.boot with secBusy := false, secResult := 0, minver := s.boot.secValue } } .SEC_EVENT 0 2

/-! ### The swatch log (R432, R462, R463) -/

/-- Sectors of the log. -/
def logSectors (s : State) : Nat := (flashSize s - logBase) / 65536

/-- Address of a sector. -/
def sectAddr (k : Nat) : Nat := logBase + 65536 * k

/-- A sector's header: MAGIC right, ERASES, SECT_SEQ, retired. -/
def sectHdr (s : State) (k : Nat) : Bool × Nat × Nat × Bool :=
  let b := flashBytes s (sectAddr k) 13
  (leField b 0 4 == 0x534C4F47, leField b 4 4, leField b 8 4, leField b 12 1 == 0)

/-- The sectors with a header, as sector and header. -/
def sectList (s : State) : List (Nat × Nat × Nat × Bool) :=
  (List.range (logSectors s)).filterMap (fun k => let h := sectHdr s k; if h.1 then some (k, h.2) else none)

/-- Highest ERASES in the log (R462). -/
def logMaxErase (s : State) : Nat := (sectList s).foldl (fun m h => max m h.2.1) 0

/-- Sectors retired. -/
def logRetired (s : State) : Nat := ((sectList s).filter (fun h => h.2.2.2)).length

/-- A sector is retired: STATE is programmed to 0x00; with the last one the log is worn (R463). -/
def sectRetire (s : State) (k : Nat) : State :=
  let s := flashProgram s (sectAddr k) (leBytes 4 0x534C4F47 ++ List.replicate 8 0xFF ++ [0])
  let s := raiseEv s .DBG_EVENT 0 3
  let s := if s.flash.logSect = some k then { s with flash := { s.flash with logRecs := 7 } } else s
  if logRetired s = logSectors s ∧ !s.flash.logWorn then raiseEv { s with flash := { s.flash with logWorn := true } } .GLB_EVENT 0 3 else s

/-- The sector to open next: the first in service after the one opened last, which at start-up is that with the highest SECT_SEQ, in a ring
(R462). -/
def logNext (s : State) : Option Nat :=
  let n := logSectors s
  let last : Option Nat := match s.flash.logSect with
    | some k => some k
    | none => ((sectList s).foldl (fun (acc : Option (Nat × Nat)) h => match acc with
      | some (k, q) => if q < h.2.2.1 then some (h.1, h.2.2.1) else some (k, q)
      | none => some (h.1, h.2.2.1)) none).map Prod.fst
  let start : Nat := match last with
    | some k => k + 1
    | none => 0
  ((List.range n).map (fun i => (start + i) % n)).find? (fun k => let h := sectHdr s k; !(h.1 && h.2.2.2))

/-- A sector is opened: erased, and its header programmed with ERASES and SECT_SEQ one above (R462); it retires where the erase or program fails or
ERASES reaches 100,000 (R463).  A blank header stands for the highest ERASES plus one. -/
def sectOpen (s : State) (k : Nat) (eraseOk programOk : Bool) : State :=
  let h := sectHdr s k
  let n := (if h.1 then h.2.1 else logMaxErase s + 1) + 1
  let q := (sectList s).foldl (fun m h => max m h.2.2.1) 0 + 1
  let s := ctrInc { s with flash := { s.flash with logSect := some k, logRecs := 0 } } .DBG_CNT_LOG_ERASE 0
  if !eraseOk then sectRetire s k
  else
    let s := flashErase s (sectAddr k) 65536
    if !programOk then sectRetire s k
    else
      let s := flashProgram s (sectAddr k) (leBytes 4 0x534C4F47 ++ leBytes 4 n ++ leBytes 4 q)
      if 100000 ≤ n then { sectRetire s k with flash := { (sectRetire s k).flash with logRecs := 0 } } else s

/-- The oldest record of the swatch region not yet copied: those that the region has overwritten are gone (R432). -/
def swatchNext (s : State) : Nat := max (s.health.swatchFlash.toNat + 1) (s.health.swatchSeq.toNat - 131071)

/-- SWATCH_LOG_COPY: the oldest record not yet copied goes to the log, where there is a log that is not worn (R415, R432, R462).  A host command
in progress goes first (R424); a record that reads uncorrectable is lost (R277). -/
def execSwatchLogCopy (eraseOk programOk : Bool) (s : State) : Result :=
  .next <|
    let n := swatchNext s
    if s.flash.sizeMiB ≤ 64 ∨ s.flash.logWorn ∨ s.flash.busy ∨ s.health.swatchSeq.toNat < n then s
    else if s.flash.logSect.isNone ∨ 7 ≤ s.flash.logRecs then
      match logNext s with
      | none => s
      | some k => sectOpen s k eraseOk programOk
    else
      match s.flash.logSect, hbmRead s (swatchBase + 8192 * ((n - 1) % 131072)) 8192 with
      | some _, (none, s) => { s with health := { s.health with swatchFlash := BitVec.ofNat 32 n } }
      | some k, (some bs, s) =>
        if !programOk then sectRetire s k
        else
          let s := flashProgram s (sectAddr k + 8192 * (1 + s.flash.logRecs)) bs
          ctrInc { s with flash := { s.flash with logRecs := s.flash.logRecs + 1 }, health := { s.health with swatchFlash := BitVec.ofNat 32 n } }
            .DBG_CNT_LOG_WRITE 0
      | none, _ => s

end Sys2Proof.Machine
end

