-- ==== Sys2Proof/Machine/Bist.lean ====
section
/-! DEFINITION. Self-test on demand (16_observation_and_selftest, R464-R467, R470). -/

namespace Sys2Proof.Machine

/-- Units of R464. -/
abbrev bistUnits : Nat := 41

/-- A command ends at once with a result (R470). -/
def bistRefuse (s : State) (r : Byte) : State := { s with bist := { s.bist with cmdResult := r } }

/-- A run is in progress. -/
def bistBusy (s : State) : Bool := s.bist.run != .idle

/-- BIST_CMD.ENG_TEST: by lifecycle in MANUFACTURE and PRODUCTION only; of a FENCED engine only (R466, R467). -/
def engTestCmd (s : State) (e : Nat) : State :=
  if s.boot.lifecycle ≠ 1 ∧ s.boot.lifecycle ≠ 2 then bistRefuse s 2
  else if bistBusy s ∨ (engGet s (e % 32)).state ≠ .fenced then bistRefuse s 3
  else { s with bist := { s.bist with run := .engTest (e % 32) } }

/-- BIST_CMD.EXTENDED: by lifecycle in MANUFACTURE and FIELD_RETURN only; in safe state only (R466). -/
def extendedCmd (s : State) : State :=
  if s.boot.lifecycle ≠ 1 ∧ s.boot.lifecycle ≠ 3 then bistRefuse s 2
  else if bistBusy s ∨ !safeState s then bistRefuse s 3
  else { s with bist := { s.bist with run := .extended } }

/-- A write of BIST_CMD; with both bits set ENG_TEST comes first (log 58). -/
def bistCmd (s : State) (v : Word) : State :=
  let s := if bit v 0 then engTestCmd s (bf v 20 16) else s
  if bit v 1 then extendedCmd s else s

/-- ENG_TEST. -/
def execEngTest (req : Requester) (eng : Nat) (s : State) : Result := .next <| guardWrite s req .BIST_CMD 0 (fun s => engTestCmd s eng)

/-- EXTENDED. -/
def execBistExtended (req : Requester) (s : State) : Result := .next <| guardWrite s req .BIST_CMD 0 extendedCmd

/-- A report is a unit's that has run. -/
def reportOk (r : BistReport) : Bool := decide (r.unit < bistUnits) && r.result != 0

/-- The unit results of a run are recorded; the first FAIL is that of the lowest unit, 0xFF where there is none; BIST_EVENT.DONE, and FAIL where a unit
failed (R464, R465, R470; log 58). -/
def bistRecord (s : State) (l : List BistReport) : State :=
  let l := l.filter reportOk
  let units := l.foldl (fun t r => tabSet ⟨0, 0, 0⟩ t r.unit ⟨r.result, r.spares, r.sig⟩) s.bist.units
  let fails := (List.range bistUnits).filter (fun u => l.any (fun r => r.unit == u) && (tabGet ⟨0, 0, 0⟩ units u).result == 3)
  let first : Byte := match fails with
    | u :: _ => BitVec.ofNat 8 u
    | [] => 0xFF
  let s := raiseEv { s with bist := { s.bist with units := units, firstFail := first } } .BIST_EVENT 0 0
  if fails.isEmpty then s else raiseEv s .BIST_EVENT 0 1

/-- A unit of the reports reads FAIL. -/
def bistFailed (l : List BistReport) : Bool := (l.filter reportOk).any (fun r => r.result == 3)

/-- The run ends with its command's result. -/
def bistEnd (s : State) (l : List BistReport) : State :=
  { bistRecord s l with bist := { (bistRecord s l).bist with run := .idle, cmdResult := if bistFailed l then 1 else 0 } }

/-- BIST_DONE: an engine test returns its engine to service on a pass and leaves it FENCED on a FAIL; the extended tests only report (R436,
R465). -/
def execBistDone (units : List BistReport) (s : State) : Result :=
  .next <|
    match s.bist.run with
    | .idle => s
    | .extended => bistEnd s units
    | .engTest e =>
      let l := units.filter (fun r => r.unit == e && reportOk r)
      if l.isEmpty then s
      else
        let s := bistEnd s l
        if bistFailed l then s else creditAll (engSet s e { engGet s e with state := .normal, verdicts := [], faults := [] })

end Sys2Proof.Machine
end

