-- ==== Sys2Proof/Machine/Gates.lean ====
section
/-! DEFINITION. Time gates and the egress scheduler (07_switch_and_traffic): gate lists, eligibility, strict priority and
deficit round robin, shapers, ageing. -/

namespace Sys2Proof.Machine

/-! ### Gate lists (R237-R240) -/

/-- Nanoseconds of an entry's interval. -/
def entryNs (e : Word) : Nat := 8 * bf e 23 0

/-- The first instant base + n × cycle more than 1 µs after now (R184, R238). -/
def firstAfter (base cycle now : Nat) : Nat :=
  if now + 1000 < base then base else if cycle = 0 then base else base + ((now + 1000 - base) / cycle + 1) * cycle

/-- The instant base + n × cycle that an event of the last or next microsecond marks. -/
def instantAt (base cycle now : Nat) : Nat :=
  if now + 1000 < base ∨ cycle = 0 then base else base + (now + 1000 - base) / cycle * cycle

/-- The base time of TM_GCL_SB_BASE in ns. -/
def gclBase (s : State) (p : Nat) : Nat :=
  (regBf s .TM_GCL_SB_BASE_SEC_HI p 15 0 * pow2 32 + (regGet s .TM_GCL_SB_BASE_SEC_LO p).toNat) * 1000000000
    + regBf s .TM_GCL_SB_BASE_NS p 29 0

/-- The standby list of a port: the page holds 256 entries. -/
def gclStandby (s : State) (p : Nat) : List Word :=
  (List.range (min 256 (regBf s .TM_GCL_SB_LEN p 8 0))).map (fun i => regGet s .TM_GCL_SB_ENTRY (256 * p + i))

/-- The gate of a class is open in an entry; TC6 and TC7 always (R237). -/
def gateBit (e : Word) (c : Nat) : Bool := decide (6 ≤ c) || bit e (24 + c)

/-- The longest continuous opening of a class in a list of entries in order, in ns. -/
def longestOpen (c : Nat) (l : List Word) : Nat :=
  (l.foldl (fun (acc : Nat × Nat) e =>
    let run := if gateBit e c then acc.1 + entryNs e else 0
    (run, max acc.2 run)) (0, 0)).2

/-- A class that opens has an opening, wrap included, as long as a 9,216 B frame with preamble and gap (R238). -/
def openingsOk (rate : Nat) (l : List Word) : Bool :=
  (List.range 8).all (fun c =>
    !l.any (fun e => gateBit e c) || l.all (fun e => gateBit e c) || decide (9236 * 8 ≤ longestOpen c (l ++ l) * rate))

/-- The cause a COMMIT is refused with, 0 when it is accepted; the cases in the order of R238 (log 22). -/
def gclErr (s : State) (p : Nat) : Nat :=
  let l := gclStandby s p
  if (l.map entryNs).sum ≠ 8 * regBf s .TM_GCL_SB_CYCLE p 26 0 then 1
  else if l.length = 0 ∨ 256 < regBf s .TM_GCL_SB_LEN p 8 0 then 2
  else if !openingsOk (portRate s p) l then 3
  else if (fabPort s p).gates.next.isSome then 4
  else 0

/-- Sets a port's gates. -/
def gatesSet (s : State) (p : Nat) (g : Gates) : State := fabPortSet s p { fabPort s p with gates := g }

/-- The start of the running cycle, in ns. -/
def cycleStart (g : Gates) : Nat := g.since - ((g.entries.take g.idx).map entryNs).sum

/-- GCL_COMMIT: the standby page is accepted, to replace the running list at its next cycle start or to start by its base
time, or ERR is recorded (R238). -/
def execGclCommit (req : Requester) (port : Nat) (s : State) : Result :=
  .next <| guardWrite s req .TM_GCL_CMD port fun s =>
    let g := (fabPort s port).gates
    let e := gclErr s port
    if e ≠ 0 then raiseEv (gatesSet s port { g with err := BitVec.ofNat 8 e }) .TM_EVENT 0 1
    else
      let cyc := 8 * regBf s .TM_GCL_SB_CYCLE port 26 0
      let start := if g.running then cycleStart g + g.cycle
        else if s.time.everLocked then firstAfter (gclBase s port) cyc (nowNs s) else gclBase s port
      gatesSet s port { g with err := 0, next := some (gclStandby s port, cyc, start) }

/-- GCL_STOP: the running list ends at its next cycle start (R253). -/
def execGclStop (req : Requester) (port : Nat) (s : State) : Result :=
  .next <| guardWrite s req .TM_GCL_CMD port fun s =>
    let g := (fabPort s port).gates
    if g.running then gatesSet s port { g with stop := true } else s

/-- The accepted list takes over at `start` (R238). -/
def gclSwapAt (s : State) (p start : Nat) : State :=
  let g := (fabPort s p).gates
  match g.next with
  | none => s
  | some (l, cyc, _) =>
    raiseEv (gatesSet s p { g with entries := l, cycle := cyc, idx := 0, since := start, running := true, next := none, stop := false })
      .TM_EVENT 0 0

/-- GCL_SWAP: at the cycle start the accepted list replaces the running one, or starts; none runs before the time base
has first locked (R238, R240). -/
def execGclSwap (port : Nat) (s : State) : Result :=
  .next <|
    let g := (fabPort s port).gates
    match g.next with
    | some (_, cyc, start) =>
      if !s.time.everLocked then s
      else gclSwapAt s port (if g.running then start else instantAt start cyc (nowNs s))
    | none => s

/-- GCL_ENTRY_EXPIRY: the next entry takes effect; after the last one the cycle starts again, or ends where a STOP waits, or
the accepted list takes over (R237, R238, R253). -/
def execGclEntryExpiry (port : Nat) (s : State) : Result :=
  .next <|
    let g := (fabPort s port).gates
    if !g.running then s
    else
      let since := g.since + entryNs (g.entries.getD g.idx 0)
      if g.idx + 1 < g.entries.length then gatesSet s port { g with idx := g.idx + 1, since := since }
      else if g.next.isSome then gclSwapAt s port since
      else if g.stop then gatesSet s port { g with entries := [], cycle := 0, idx := 0, since := 0, running := false, stop := false }
      else gatesSet s port { g with idx := 0, since := since }

/-- The entries a port runs through from now on: what is left of this cycle, and the cycle after it. -/
def gateTimeline (g : Gates) : List (Nat × Word) :=
  let l := g.entries.map (fun e => (entryNs e, e))
  let rest := l.drop g.idx
  match g.next with
  | some (n, _, _) => rest ++ n.map (fun e => (entryNs e, e))
  | none => if g.stop then rest else rest ++ l

/-- The end (ns) of the opening of a class that holds now: none when nothing closes it, `some` the present instant's own
start when it is closed. -/
def closesAt (c : Nat) : Nat → List (Nat × Word) → Option Nat
  | _, [] => none
  | t, (d, e) :: r => if gateBit e c then closesAt c (t + d) r else some t

/-- Transmission time of a frame to the end of the gap, in 2^-16 ns, rounded up (R239). -/
def txTime (s : State) (p len : Nat) : Nat := ((len + 20) * 8 * 65536 + portRate s p - 1) / portRate s p

/-- The gate admits a frame that starts `phase` (2^-16 ns) after the last tick (R239, R240). -/
def gateAdmits (s : State) (p c len phase : Nat) : Bool :=
  let g := (fabPort s p).gates
  if !g.running then true
  else match closesAt c g.since (gateTimeline g) with
  | none => true
  | some t => decide (servedAt s phase + (txTime s p len : Int) ≤ (t : Int) * 65536)

/-! ### Eligibility and order (R225, R234-R236) -/

/-- The heads of the queues of a class for a destination: the oldest frame of each input, with its index (R225). -/
def voqHeads (l : List Frame) (d c : Nat) : List (Nat × Frame) :=
  (l.zipIdx).foldl (fun acc e =>
    if e.1.cls = c ∧ e.1.dests.contains d ∧ ¬ acc.any (fun x => x.2.inp == e.1.inp) then acc ++ [(e.2, e.1)] else acc) []

/-- Among heads of queues the one of the next input in round robin: the lowest number from `last` on, or the lowest of all (R225). -/
def nextInput (last : Nat) (hs : List (Nat × Frame)) : Option (Nat × Frame) :=
  let best := fun (l : List (Nat × Frame)) => l.foldl (fun (acc : Option (Nat × Frame)) h =>
    match acc with
    | none => some h
    | some a => if h.2.inp < a.2.inp then some h else some a) none
  match best (hs.filter (fun h => decide (last ≤ h.2.inp))) with
  | some h => some h
  | none => best hs

/-- The head a class of a port would send: among the heads that its gate and shaper allow, the next input in round robin;
none when the class is paused or has none (R225, R231, R234, R239). -/
def classHead (s : State) (p c phase : Nat) : Option (Nat × Frame) :=
  let x := fabPort s p
  if x.paused.getLsbD c then none
  else
    let hs := (voqHeads s.fab.frames p c).filter (fun h => gateAdmits s p c h.2.data.length phase && shpAdmits s p c h.2.data.length)
    nextInput (tabGet 0 x.lastIn c) hs

/-- The credit a class gains at its turn, limited to its burst (R235). -/
def creditGain (s : State) (p c cr : Nat) : Nat :=
  let w := regGet s .TM_SCH_WT (5 * p + c)
  min (cr + bf w 7 0 * 256) (bf w 27 16 * 256)

/-- The deficit round robin from the class and turn the port is at: the frame it sends, and the port with its turn (R235). -/
def drr (s : State) (p phase : Nat) : Nat → FabPort → Option (Nat × Frame) × FabPort
  | 0, x => (none, x)
  | n + 1, x =>
    let cr := tabGet 0 x.credit x.rr
    let cr := if x.rrTaken then cr else creditGain s p x.rr cr
    let x := { x with credit := tabSet 0 x.credit x.rr cr, rrTaken := true }
    match classHead s p x.rr phase with
    | some h =>
      if h.2.data.length ≤ cr then (some h, { x with credit := tabSet 0 x.credit x.rr (cr - h.2.data.length) })
      else drr s p phase n { x with rr := (x.rr + 1) % 5, rrTaken := false }
    | none => drr s p phase n { x with rr := (x.rr + 1) % 5, rrTaken := false }

/-- The frame a port starts next: TC7, TC6, TC5 in strict order, then TC0-TC4 by deficit round robin, which turns only while
some class is eligible (R234, R235). -/
def nextFrame (s : State) (p phase : Nat) : Option (Nat × Frame) × FabPort :=
  let x := fabPort s p
  match classHead s p 7 phase with
  | some h => (some h, x)
  | none => match classHead s p 6 phase with
  | some h => (some h, x)
  | none => match classHead s p 5 phase with
  | some h => (some h, x)
  | none =>
    if (List.range 5).any (fun c => (classHead s p c phase).isSome) then drr s p phase 200 x else (none, x)

/-- What a frame is to the surroundings as it leaves a port: the message it carries where it is the gateway's own (log 85). -/
def frameOut (p : Nat) (f : Frame) : Out := f.own.getD (.frame p f.data f.bad)

/-- A frame starts on a port: it leaves, its tokens are taken, it is counted, and its charge released (R223, R227, R235,
R236).  The queue's packet boundary applies held writes (R250).  The handle of its bobbin is checked first (R263). -/
def startFrame (s : State) (p : Nat) (x : FabPort) (k : Nat) (f : Frame) : State :=
  match bobUse s 0x20 f.handle 0 with
  | (false, s) => s
  | (true, s) =>
  let len := f.data.length
  let tok := if regBit s .TM_SHP_CTRL (pc p f.cls) 0 then shpTokens s p f.cls - 2 * len else shpTokens s p f.cls
  let x := { x with shp := tabSet ⟨0, 0⟩ x.shp f.cls ⟨tok, s.localUs⟩, lastIn := tabSet 0 x.lastIn f.cls (f.inp + 1),
                    lastTxUs := s.localUs }
  let s := fabPortSet s p x
  let s := ctrAdd (ctrInc s .FPORT_CNT_TX_FRAMES p) .FPORT_CNT_TX_BYTES p len
  let s := if f.bad then ctrInc s .FPORT_CNT_STOMP p else s
  let s := leaveOne (send s (frameOut p f)) k p
  queueBoundary s p f.cls

/-- FRAME_TRANSMIT on a fabric port. -/
def portTransmit (s : State) (p phase : Nat) : State :=
  if !portCarries s p then s
  else match nextFrame s p phase with
  | (some (k, f), x) => startFrame s p x k f
  | (none, _) => s

/-! ### Ageing (R232) -/

/-- The age limit of a class in µs. -/
def ageLimit : Nat → Nat
  | 1 | 2 | 3 | 7 => 2000000
  | 5 => 100000
  | 6 => 1000
  | _ => 2000

/-- The head of an input's queue is discarded when its age exceeds its class's limit, counted, STUCK for TC1-TC3 and TC7;
whether it was (R232). -/
def ageOut (s : State) (inp c d : Nat) : State × Bool :=
  match (voqHeads s.fab.frames d c).find? (fun h => h.2.inp == inp) with
  | none => (s, false)
  | some (k, f) =>
    if s.localUs - f.arrUs ≤ ageLimit c then (s, false)
    else
      let stuck := decide (ageLimit c = 2000000)
      let s := leaveOne (ctrInc s .SW_CNT_AGED c) k d
      (if stuck then raiseEv s .SW_EVENT 0 1 else s, stuck)

end Sys2Proof.Machine
end

