-- ==== Sys2Proof/Machine/HbmCmd.lean ====
section
/-! DEFINITION. Free stores, quotas, the aperture and patrol scrub (08_bobbin_and_hbm). -/

namespace Sys2Proof.Machine

/-! ### Bobbins (R261, R262, R277) -/

/-- The unit that waited takes its bobbin: a Seam engine's stream, a rebound stream giving its smaller window up, or a Pleat
contribution (R104, R207, R258, R262).  None where the unit no longer waits. -/
def grantTo (s : State) (w : BobWait) (h : Word) : Option State :=
  if w.unit < 32 then
    match runOf s w.sub with
    | some x =>
      if x.bobWait then
        let s := match x.bobbin with
          | some o => bobFree s w.unit o
          | none => s
        some (runSet s w.sub (some { x with bobbin := some h, bobWait := false }))
      else none
    | none => none
  else
    let b := w.sub / 2048
    match boltGet s b with
    | some x => if x.msgs.any (fun m => m.index == w.sub % 2048) then
        some (decodeCopy (msgMod s b (w.sub % 2048) (fun m => { m with dbob := some h })) b (w.sub % 2048)) else none
    | none => none

/-- BOBBIN_GRANT: the unit that has waited longest among those whose spool can serve it (R262). -/
def execBobbinGrant (s : State) : Result :=
  .next <|
    match s.bob.waits.findIdx? (fun w => (bobTake s w.spool w.priv).1.isSome) with
    | none => s
    | some i =>
      match s.bob.waits[i]? with
      | none => s
      | some w =>
        match bobTake { s with bob := { s.bob with waits := s.bob.waits.eraseIdx i } } w.spool w.priv with
        | (none, s) => s
        | (some h, s) => (grantTo s w h).getD (bobReturn s h)

/-- Ordinary handles in the ring: free and not in the cache. -/
def ringHandles (p : Spool) : Nat := spoolOrdFree p - p.cache

/-- Frames that no bobbin could be bound to when they ended are bound, oldest first, once their spools have handles (R257, R261). -/
def bindFrames (s : State) : State :=
  (s.fab.frames.zipIdx).foldl (fun s e =>
    if e.1.handle.isSome || e.1.cells == 0 then s
    else match bobTake s (frameSpool e.1.data.length) (5 ≤ e.1.cls) with
    | (none, s) => s
    | (some h, s) => { s with fab := { s.fab with frames := s.fab.frames.set e.2 { e.1 with handle := some h } } }) s

/-- RING_REFILL_DONE: a read of 128 handles of a spool's ring completes (R261).  `lost` names, among the free handles counted from the first,
those in blocks that read uncorrectable: they are lost to the spool, and the address recorded is one of the rings' (R268, R277; log 51).  Then
frames still unbound are bound, and where the cache is still short the next read starts (R257, R278). -/
def execRingRefillDone (spool : Nat) (lost : List Nat) (s : State) : Result :=
  .next <|
    let p := spoolGet s spool
    if p.reads = 0 then s
    else
      let n := min 128 (ringHandles p)
      let used := p.lost.foldl (fun l x => insertRising x l) (p.taken.filter (fun i => decide (p.priv ≤ i)))
      let gone := dedup (((lost.filter (fun k => decide (k < ringHandles p))).take n).map (fun k => nthFree used p.priv k))
      let s := ringTraffic s .MEM_CNT_RD_BYTES
      let s := spoolSet s spool (refillStart
        { p with reads := p.reads - 1, cache := p.cache + (n - gone.length), lost := gone.foldl (fun l x => insertRising x l) p.lost })
      let s := cacheSpill s spool
      let s := if gone.isEmpty then s
        else
          let (a, s) := freeBelow s 0x200000
          raiseEv (recordUe (ctrAdd s .BOB_CNT_RING_LOST 0 gone.length) (32 * a)) .BOB_EVENT 0 2
      bindFrames s

/-! ### Quotas (R269, R270) -/

/-- A panel has an open collective or a busy command. -/
def panelInUse (s : State) (p : Nat) : Bool := s.cco.colls.any (fun c => c.panel == p) || (tabGet ⟨false, none, 0, 0⟩ s.cco.cmds p).busy

/-- A value of MEM_PANEL_QUOTA is taken, or refused with QUOTA_REFUSED; an observation area that the quota no longer covers is no longer written
(R270, R457). -/
def quotaWrite (s : State) (p : Nat) (v : Word) : State :=
  if quotaAccepts s p v (panelInUse s p) then
    let s0 := s
    let had := (obsArea s p).isSome
    let s := regSet s .MEM_PANEL_QUOTA p v
    let s := if had && (obsArea s p).isNone then raiseEv s .DBG_EVENT 0 2 else s
    if v = regGet s0 .MEM_PANEL_QUOTA p then s else raiseEv s .PNL_EVENT p 3
  else raiseEv s .MEM_EVENT pfView 4

/-- MEM_PANEL_QUOTA_WRITE: a panel window holds a copy that is read-only (R270, R280). -/
def execMemPanelQuotaWrite (req : Requester) (panel : Nat) (value : Word) (s : State) : Result :=
  .next <| guardWrite s req .MEM_PANEL_QUOTA panel (fun s => match req with
    | .vf _ => s
    | _ => quotaWrite s panel value)

/-! ### The aperture (R271, R277) -/

/-- An aperture access faults: APT_FAULT in the window's MEM_EVENT, and a bus error (R271). -/
def aptFault (s : State) (req : Requester) (addr view : Nat) (write : Bool) : State :=
  busError (raiseEv s .MEM_EVENT view 3) req addr write

/-- The aperture of a view is there: the panel is not DISABLED (R404), the MEM window open. -/
def aptOpen (s : State) (view : Nat) : Bool := blkOpen s .MEM && (view == pfView || (panelGet s view).state != .disabled)

/-- A read through the aperture of a view (R271): the word, or a bus error where it faults or a block is uncorrectable (R277). -/
def aptRead (s : State) (req : Requester) (addr view off : Nat) : State :=
  if !aptOpen s view ∨ off % 4 ≠ 0 then readError s req addr
  else match aptTarget s view off with
  | none => { aptFault s req addr view false with response := .busError }
  | some a => match hbmRead s a 4 with
    | (some b, s) => answer s (leWord b 0)
    | (none, s) => readError s req addr

/-- A write through the aperture of a view (R271). -/
def aptWrite (s : State) (req : Requester) (addr view off : Nat) (v : Word) : State :=
  if !aptOpen s view ∨ off % 4 ≠ 0 then busError s req addr true
  else match aptTarget s view off with
  | none => aptFault s req addr view true
  | some a => if (ueIn s a 4).isSome then busError (hbmWrite s a (wordBytes v)) req addr true else hbmWrite s a (wordBytes v)

/-! ### Patrol scrub (R276) -/

/-- The write-back that waits takes place: the corrected blocks are written as they read. -/
def scrubWriteBack (s : State) : State :=
  match s.mem.scrubWb with
  | none => s
  | some w => w.words.foldl (fun s k => hbmWrite s (32 * k) (hbmBytes s (32 * k) 32)) { s with mem := { s.mem with scrubWb := none } }

/-- What the code finds in a block: a corrected error is counted; a block that reads uncorrectable stays so (R267, R277). -/
def eccNote (s : State) (b : Nat) (e : Ecc) : State :=
  if e = .uncorrectable ∨ s.mem.ue.contains b then
    recordUe { s with mem := { s.mem with ue := insertRising b s.mem.ue } } (32 * b)
  else if e = .corrected then raiseEv (ctrInc s .MEM_CNT_CE (stackOf s (32 * b))) .MEM_EVENT pfView 1
  else s

/-- Blocks of 64 B in the populated address space. -/
def scrubBlocks (s : State) : Nat := hbmCap s / 64

/-- The scrub's position after a block: a pass that has caught up with its period is followed at once by the next (R276). -/
def scrubAdvance (s : State) : State :=
  let n := s.mem.scrubBlock + 1
  if n < scrubBlocks s then { s with mem := { s.mem with scrubBlock := n } }
  else if s.mem.scrubUrgent then { s with mem := { s.mem with scrubBlock := 0, scrubUrgent := false } }
  else { s with mem := { s.mem with scrubBlock := scrubBlocks s, scrubPass := true } }

/-- SCRUB_READ: the next 64 B are read; `first` and `second` are what the code finds in their 32 B blocks (R276, R277). -/
def execScrubRead (first second : Ecc) (s : State) : Result :=
  .next <|
    let s := scrubWriteBack s
    if s.mem.scrubPass ∨ scrubBlocks s ≤ s.mem.scrubBlock then s
    else
      let k := s.mem.scrubBlock
      let s := countBytes .MEM_CNT_RD_BYTES 2 s (64 * k) 64
      let s := eccNote (eccNote s (2 * k) first) (2 * k + 1) second
      let fix := [(2 * k, first), (2 * k + 1, second)].filter (fun p => p.2 == .corrected && !s.mem.ue.contains p.1)
      let s := if fix.isEmpty then s else { s with mem := { s.mem with scrubWb := some ⟨k, fix.map Prod.fst⟩ } }
      scrubAdvance s

/-- SCRUB_PERIOD_EXPIRY: the next pass begins, or the pass that is not finished goes on at level 3 (R276). -/
def execScrubPeriodExpiry (s : State) : Result :=
  .next <|
    if s.mem.scrubPass then { s with mem := { s.mem with scrubBlock := 0, scrubPass := false } }
    else raiseEv { s with mem := { s.mem with scrubUrgent := true } } .MEM_EVENT pfView 2

end Sys2Proof.Machine
end

