-- ==== Sys2Proof/Machine/Keys.lean ====
section
/-! DEFINITION. The commands of Thimble (12_thimble): key switchover, key loads, alarms. -/

namespace Sys2Proof.Machine

/-- SWITCH: THM_SESS_CMD bit 0 (R366). -/
def execKeySwitch (req : Requester) (sess : Nat) (s : State) : Result := .next <| guardWrite s req .THM_SESS_CMD sess (fun s => switchCmd s sess)

/-- CLEAR_RETIRED: THM_SESS_CMD bit 1 (R368). -/
def execClearRetired (req : Requester) (sess : Nat) (s : State) : Result := .next <| guardWrite s req .THM_SESS_CMD sess (fun s => clearRetiredCmd s sess)

/-- GO: THM_KLD_CMD (R370). -/
def execKldGo (req : Requester) (group : Nat) (s : State) : Result := .next <| guardWrite s req .THM_KLD_CMD group (fun s => goCmd s group)

/-- KEY_LOAD_COMPLETE: `plain` is the 48 B that the KW unwrapping under the group's KEK gives, none where its integrity check fails
(R370, R371; log 13). -/
def execKeyLoadComplete (group : Nat) (plain : Option (List Byte)) (s : State) : Result := .next (keyLoadDone s group plain)

/-- ALARM: `cause` is the bit of THM_ALARM that names it.  An attempt to unlock the debug port is an alarm in the PRODUCTION lifecycle state alone;
elsewhere it is allowed or refused (R375, R377, R466). -/
def execAlarm (cause : Nat) (s : State) : Result := .next (if cause = 4 ∧ s.boot.lifecycle ≠ 2 then s else alarm s cause)

end Sys2Proof.Machine
end

