-- ==== Sys2Proof/Machine/Observe.lean ====
section
/-! DEFINITION. Observation areas and saturation reports (16_observation_and_selftest). -/

namespace Sys2Proof.Machine

/-- A value of DBG_PNL_OBS is taken at once, the new area's header written with HEAD, LOST and SW_NEXT at 0; or refused with OBS_REFUSED where the
area does not lie in the quota (R457). -/
def obsWrite (s : State) (p : Nat) (v : Word) : State :=
  let s' := areaSet (regSet s .DBG_PNL_OBS p v) p ⟨0, 0, 0, 0⟩
  if bf v 15 0 = 0 then s'
  else match obsArea s' p with
  | none => raiseEv s .DBG_EVENT 0 2
  | some (a, n) => hbmWrite s' a (areaHeader s' p n ⟨0, 0, 0, 0⟩)

/-- DBG_PNL_OBS_WRITE (R457). -/
def execDbgPnlObsWrite (req : Requester) (panel : Nat) (value : Word) (s : State) : Result :=
  .next <| guardWrite s req .DBG_PNL_OBS panel (fun s => obsWrite s panel value)

/-- The header and the filter table of one panel's area are refreshed; PSEQ is even again when it is complete (R457). -/
def obsRefreshOne (s : State) (p : Nat) : State :=
  match obsArea s p with
  | none => s
  | some (a, n) =>
    let x := { areaGet s p with pseq := (areaGet s p).pseq + 2 }
    let s := hbmWrite (areaSet s p x) a (areaHeader s p n x)
    (List.range 256).foldl (fun s f => hbmWrite s (a + 4096 + 64 * f) (areaFilter s p f ++ List.replicate 24 0)) s

/-- OBS_REFRESH (R457). -/
def execObsRefresh (s : State) : Result := .next ((List.range 16).foldl obsRefreshOne s)

/-- A span segment waits behind others of its session's stream on the line (R461, resource 5; log 53). -/
def spanWaits (s : State) : Bool := s.selv.sess.any (fun e => sessKind s e.1 == 0 && !(txStream s (sessStream s e.1)).queue.isEmpty)

/-- Whether a resource of R461 is limited in the microsecond that ends, beyond what has been marked in it (log 53). -/
def satNow (s : State) (k : Nat) : Bool :=
  match k with
  | 3 => remWaiting s
  | 5 => spanWaits s
  | 6 => decide (16 < s.plt.enc.length)
  | 7 => !s.bob.waits.isEmpty
  | _ => false

/-- The interval of 1 µs that ends is counted for each resource (R461). -/
def satTick (s : State) : State :=
  let s := (List.range 8).foldl (fun s k =>
    let x := tabGet ⟨0, false⟩ s.obs.sat k
    { s with obs := { s.obs with sat := tabSet ⟨0, false⟩ s.obs.sat k ⟨x.limited + b2n (x.now || satNow s k), false⟩ } }) s
  { s with obs := { s.obs with satIntervals := s.obs.satIntervals + 1 } }

/-- The saturation byte of a resource (R461). -/
def satByte (s : State) (k : Nat) : Byte := BitVec.ofNat 8 (255 * (tabGet ⟨0, false⟩ s.obs.sat k).limited / s.obs.satIntervals)

/-- SAT_PERIOD_EXPIRY: a SATURATION record in the device ring (R461); UNIT and STAGE of the record are not stated and free (log 53). -/
def execSatPeriodExpiry (s : State) : Result :=
  .next <|
    let clear : State → State := fun s => { s with obs := { s.obs with sat := [], satIntervals := 0 } }
    if !regBit s .DBG_TRACE_CFG 0 0 then clear s
    else
      let w := fun (k : Nat) => BitVec.ofNat 32 (leNat ((List.range 4).map (fun i => satByte s (k + i))))
      let (u, s') := freeBelow s 256
      let (g, s') := freeBelow s' 4
      let r : TraceRec := { typ := 8, panel := 0, unit := u, stage := g, chalk := 0, time := traceTime s, coll := w 0, epoch := w 4, chunk := 0,
                            arg := BitVec.ofNat 32 (regBf s .DBG_TRACE_CFG 0 23 16) }
      clear (raiseEv (traceWrite s' r) .DBG_EVENT 0 1)

end Sys2Proof.Machine
end

