-- ==== Sys2Proof/Machine/Slots.lean ====
section
/-! DEFINITION. Loading stitch programs (R109-R111), binding contexts (R86, R117), scratch areas (R85, R114), the used tallies (R112). -/

namespace Sys2Proof.Machine

/-! ### Program pages (R109-R111) -/

/-- Words of the standby page of slot `i` (8 × engine + slot). -/
def standbyPage (s : State) (i : Nat) : Tab Dword :=
  (List.range 256).foldl (fun t j =>
    let lo := regGet s .SEAM_SB_PAGE (512 * i + 2 * j)
    let hi := regGet s .SEAM_SB_PAGE (512 * i + 2 * j + 1)
    tabSet 0 t j (hi ++ lo)) []

/-- Puts words into the standby page. -/
def standbyFill (s : State) (i : Nat) (words : Tab Dword) : State :=
  let t := tabDrop (tabGet [] s.regs (ridNum .SEAM_SB_PAGE)) (fun k => k / 512 == i)
  let t := words.foldl (fun (t : Tab Word) (w : Nat × Dword) =>
    tabSet 0 (tabSet 0 t (512 * i + 2 * w.1) (w.2.setWidth 32)) (512 * i + 2 * w.1 + 1) ((w.2 >>> 32).setWidth 32)) t
  { s with regs := tabSet [] s.regs (ridNum .SEAM_SB_PAGE) t }

/-- SWAP_BUSY or CHECKING (R111, R116). -/
def slotBusy (s : State) (i : Nat) : Bool := (slotGet s i).checking || (slotGet s i).prev.isSome

/-- COMMIT starts the check; while SWAP_BUSY or CHECKING it is refused with cause 0x0B (R110). -/
def slotCommit (s : State) (i : Nat) : State :=
  let x := slotGet s i
  if slotBusy s i then slotSet s i { x with errCause := 0x0B, errIndex := 0 } else slotSet s i { x with checking := true }

/-- CLEAR zeroes the standby page; while SWAP_BUSY or CHECKING it is ignored and sets PAGE_WRITE_BUSY (R109, R111). -/
def slotClear (s : State) (i : Nat) : State :=
  if slotBusy s i then raiseEv s .SEAM_ENG_EVENT (i / 8) 0 else standbyFill s i []

/-- A write to SEAM_SLOT_CTRL: with both bits set it has no effect (R111). -/
def slotCtrl (s : State) (i : Nat) (v : Word) : State :=
  match bit v 0, bit v 1 with
  | true, false => slotCommit s i
  | false, true => slotClear s i
  | _, _ => s

/-- A write to the standby page, SEAM_SLOT_SBCFG or SEAM_SLOT_SBCRC (R111). -/
def slotWrite (s : State) (r : Rid) (k i : Nat) (v : Word) : State :=
  if slotBusy s i then raiseEv s .SEAM_ENG_EVENT (i / 8) 0 else regSet s r k (acceptWord r (regGet s r k) v)

/-- COMMIT: SEAM_SLOT_CTRL.COMMIT of slot `i`. -/
def execSlotCommit (req : Requester) (i : Nat) (s : State) : Result :=
  .next <| guardWrite s req .SEAM_SLOT_CTRL i (fun s => slotCtrl s i 1)

/-- CLEAR: SEAM_SLOT_CTRL.CLEAR of slot `i`. -/
def execSlotClear (req : Requester) (i : Nat) (s : State) : Result :=
  .next <| guardWrite s req .SEAM_SLOT_CTRL i (fun s => slotCtrl s i 2)

/-- The check of a page: CRC, then the checker (R110). -/
def slotVerdict (s : State) (i : Nat) : Nat × Nat :=
  let words := standbyPage s i
  let cfg := regGet s .SEAM_SLOT_SBCFG i
  if crc32c (pageBytes words cfg) ≠ regGet s .SEAM_SLOT_SBCRC i then (1, 0) else checkPage words cfg

/-- An accepted page becomes active with GEN advanced; the page before it takes the standby place, and is kept while open chunks refer to
it (R110, R111; log 42). -/
def slotSwap (s : State) (i : Nat) : State :=
  let x := slotGet s i
  let old := x.active
  let inUse := (bolts s).any (fun e => ctxSlot s e.2.ctx == i && e.2.state != .reserved && e.2.gen == old.gen)
  let new : Page := ⟨standbyPage s i, regGet s .SEAM_SLOT_SBCFG i, old.gen + 1⟩
  let s := slotSet s i { x with active := new, prev := if inUse then some old else none, checking := false, errCause := 0, valid := true }
  creditAll (standbyFill s i old.words)

/-- SLOT_CHECK_DONE: the commit's check ends (R110). -/
def execSlotCheckDone (i : Nat) (s : State) : Result :=
  .next <|
    let x := slotGet s i
    if !x.checking then s
    else
      let (c, k) := slotVerdict s i
      if c = 0 then slotSwap s i
      else slotSet s i { x with checking := false, errCause := BitVec.ofNat 8 c, errIndex := BitVec.ofNat 8 k }

/-! ### Binding (R86, R117) -/

/-- Stages from a context on, at most `n`. -/
def chainLen (s : State) : Nat → Nat → Nat
  | 0, _ => 0
  | n + 1, k => if !ctxBound s k then 1 else match ctxNext s k with
    | some j => 1 + chainLen s n j
    | none => 1

/-- No chain is longer than 8 stages, and none closes (R86). -/
def chainsOk (s : State) : Bool := (regKeys s .SEAM_CTX_BIND).all (fun k => decide (chainLen s 9 k ≤ 8))

/-- A held SEAM_CTX_BIND write takes effect; a refused chain leaves it unapplied (R86, R108, R117). -/
def bindApply (s : State) (k : Nat) (v : Word) : State :=
  let s' := regSet s .SEAM_CTX_BIND k v
  if bit v 31 && !chainsOk s' then
    raiseEv (ctxSet s k { ctxGet s k with cause := 7, index := 0, slot := bf v 26 24 }) .SEAM_CTX_EVENT k 0
  else
    let s' := if bit v 31 then s' else ctxSet s' k { ctxGet s' k with faulted := false }
    creditAll s'

/-- CTX_BIND_APPLY: a held bind takes effect once the context has no open chunk; bolts only reserved on it move first where another
context has room, and those left move when their first CONTRIB comes (R117, R142; log 67). -/
def execCtxBindApply (k : Nat) (s : State) : Result :=
  .next <|
    if (heldGet s .SEAM_CTX_BIND k).isNone ∨ (ctxBolts s k).any (fun p => p.2.state != .reserved) then s
    else
      let s := (ctxBolts s k).foldl (fun s p => rehome s p.1) s
      applyHeld s .SEAM_CTX_BIND k (fun s v => bindApply s k v)

/-! ### Scratch areas (R85, R114) -/

/-- The context and the word offset that SEAM_SP_ADDR names. -/
def spAddr (s : State) (e : Nat) : Nat × Nat := (16 * e + regBf s .SEAM_SP_ADDR e 31 28, regBf s .SEAM_SP_ADDR e 22 2)

/-- SEAM_SP_ADDR advances by one word. -/
def spAdvance (s : State) (e : Nat) : State := regPut s .SEAM_SP_ADDR e 22 2 (regBf s .SEAM_SP_ADDR e 22 2 + 1)

/-- A word of a context's scratch area; 0 beyond it. -/
def spWord (s : State) (k w : Nat) : Word := if w < 1024 * ctxSpa s k then tabGet 0 (ctxGet s k).scratch w else 0

/-- What SECDED finds where an access through SEAM_SP_DATA meets a word of a context's scratch area: a single-bit error is corrected and counted, a
double-bit error is an engine fault, as it is for a stitch (R76; log 82). -/
def spUpset (s : State) (e k w : Nat) (u : Option Upset) : State :=
  if 1024 * ctxSpa s k ≤ w then s
  else match u with
  | some .singleBit => padCorrected s e
  | some .doubleBit => engineFault s e k 3 (some (.scratch k (w / 1024)))
  | _ => s

/-- SP_DATA_WRITE: a word is written while the context is unbound and the offset is within its area; otherwise it is ignored and sets
SP_WRITE_REFUSED.  The address advances either way (R85). -/
def execSpDataWrite (req : Requester) (eng : Watched) (value : Word) (s : State) : Result :=
  .next <| guardWrite s req .SEAM_SP_DATA eng.num (fun s =>
    let (k, w) := spAddr s eng.num
    let s := spUpset s eng.num k w eng.upset
    let s := if ctxBound s k ∨ 1024 * ctxSpa s k ≤ w then raiseEv s .SEAM_ENG_EVENT eng.num 1
      else ctxSet s k { ctxGet s k with scratch := tabSet 0 (ctxGet s k).scratch w value }
    spAdvance s eng.num)

/-- SP_DATA_READ: the word at SEAM_SP_ADDR, which advances (R85, R114). -/
def execSpDataRead (req : Requester) (eng : Watched) (s : State) : Result :=
  .next <| guardRead s req .SEAM_SP_DATA eng.num (fun s =>
    let (k, w) := spAddr s eng.num
    let s := spUpset s eng.num k w eng.upset
    if eng.upset = some .doubleBit ∧ w < 1024 * ctxSpa s k then
      let (x, s) := freeWord s
      answer (spAdvance s eng.num) x
    else answer (spAdvance s eng.num) (spWord s k w))

/-! ### Tallies (R112) -/

/-- USED_TALLY_HALVING: every panel's tally on an engine is halved, rounded down to a whole cycle (R112; log 83). -/
def execUsedTallyHalving (eng : Nat) (s : State) : Result :=
  .next <|
    let x := engGet s eng
    engSet s eng { x with used := (List.range 16).foldl (fun t p => tabMod 0 t p (· / 2)) x.used }

end Sys2Proof.Machine
end

