-- ==== Sys2Proof/Machine/Contrib.lean ====
section
/-! DEFINITION. Contributions at a stage (R42, R43, R111, R125, R142, R146, R164): what a chunk takes, opening its bolt, messages that
come from inside the gateway. -/

namespace Sys2Proof.Machine

/-! ### Formats (R42, R43, R164) -/

/-- The result format is one R43 permits for the inputs and the mode: 0 EXACT, 1 ORDERED, 2 ARRIVAL. -/
def fmtPermits (inFmt mode out : Nat) : Bool :=
  if inFmt ≤ 5 ∨ inFmt = 10 then (if mode = 0 then [0, 1, 2, 8, 9].contains out else [0, 1, 2].contains out)
  else if isInt inFmt then [6, 7, 0, 8, 9].contains out
  else if isXp inFmt then mode == 0 && [0, 1, 2, 6, 7, 8, 9].contains out
  else false

/-- The effective mode of a chunk: integers always run EXACT (R42). -/
def effMode (fmt mode : Nat) : Nat := if isInt fmt then 0 else mode

/-- One format code is the other, or both are XP (R42). -/
def sameFmt (a b : Nat) : Bool := a == b || (isXp a && isXp b)

/-- The input formats a stage accepts (R164). -/
def stageTakes (c : Coll) (st fmt : Nat) : Bool :=
  if st = 0 then decide (fmt ≤ 7)
  else if st = 1 then decide (fmt ≤ 2) || decide (6 ≤ fmt ∧ fmt ≤ 9)
  else match c.span with
    | some p => fmt == p.fmt
    | none => false

/-- The SEAM_CTX_ARITH that a bolt's chunk runs under, or will (R71). -/
def boltArith (s : State) (b : Bolt) : Word := if b.state = .reserved then nextSetting s .SEAM_CTX_ARITH b.ctx else b.arith

/-- The slot configuration a bolt's chunk runs under, or will (R111). -/
def boltCfg (s : State) (b : Bolt) : Word :=
  let i := ctxSlot s b.ctx
  if b.state = .reserved then (slotGet s i).active.cfg else (slotPage s i b.gen).cfg

/-- OUT_FMT of a setting. -/
def arithOut (w : Word) : Nat := bf w 11 8
/-- FTZ of a setting. -/
def arithFtz (w : Word) : Bool := bit w 0
/-- CHECK of a setting includes residue checking. -/
def arithResidue (w : Word) : Bool := bit w 2
/-- CHECK of a setting includes CRC. -/
def arithCrc (w : Word) : Bool := bit w 3

/-- A bolt's stage takes a format, and delivers in one that R164 lists: Level 3 sends no exact partial down. -/
def levelTakes (s : State) (b : Bolt) (fmt : Nat) : Bool :=
  ((collFind s b.panel b.coll).map (fun c => stageTakes c b.stage fmt)).getD true && (b.stage != 2 || !isXp (arithOut (boltArith s b)))

/-- A chunk takes a contribution of a format and mode: the stage's formats, the slot's IN_FMT, the mode it has or that its result format permits (R42,
R43, R111, R164).  A partial of the gateway's own lower stage matches any EXACT chunk of its kind of numbers (R168). -/
def chunkTakes (s : State) (b : Bolt) (mode fmt : Nat) (ring : Bool) : Bool :=
  let inFmt := bf (boltCfg s b) 19 16
  let m := if ring && b.state != .reserved && b.mode == 0 then 0 else effMode fmt mode
  levelTakes s b fmt && (sameFmt fmt inFmt || (ring && m == 0 && isInt fmt == isInt inFmt)) && (b.state == .reserved || b.mode == m) &&
  fmtPermits inFmt m (arithOut (boltArith s b))

/-! ### Opening a bolt (R111, R146) -/

/-- The first CONTRIB of a chunk is accepted: the bolt is OPEN on its engine, under the settings held for its context's next chunk; its
accumulator area is zero, and NEW_PAGE is set where its program page is not that of the context's last chunk (R71, R84, R111, R118, R146, R204). -/
def boltOpen (s : State) (k : Nat) (mode fmt : Nat) (chalk : Word) : State :=
  match boltGet s k with
  | none => s
  | some b =>
    if b.state ≠ .reserved then s
    else
      let s := applyHeld s .SEAM_CTX_ARITH b.ctx (fun s v => regSet s .SEAM_CTX_ARITH b.ctx v)
      let s := applyHeld s .PLT_CTX_CB b.ctx (fun s v => regSet s .PLT_CTX_CB b.ctx v)
      let gen := (slotGet s (ctxSlot s b.ctx)).active.gen
      let x := ctxGet s b.ctx
      let s := if x.gen ≠ gen ∨ x.page ≠ ctxSlot s b.ctx then raiseEv s .SEAM_CTX_EVENT b.ctx 5 else s
      let s := ctxSet s b.ctx { ctxGet s b.ctx with page := ctxSlot s b.ctx, gen := gen }
      let s := boltSet s k (some { b with
        state := .open, mode := effMode fmt mode, fmt := fmt, gen := gen, arith := regGet s .SEAM_CTX_ARITH b.ctx, cb := regGet s .PLT_CTX_CB b.ctx,
        acc := List.replicate b.elems ⟨0, 0, none⟩, firstUs := s.localUs, chalk := chalk })
      traceChunk s 0x22 1 b.panel b.stage chalk b.coll b.epoch b.chunk b.want.length

/-- The next place in the order of arrival. -/
def nextAge (s : State) : Nat × State := (s.seam.age, { s with seam := { s.seam with age := s.seam.age + 1 } })

/-- A message is complete: who came last, and by how much (R153). -/
def msgArrived (s : State) (k i : Nat) : State :=
  match boltGet s k with
  | none => s
  | some b => boltSet s k (some { b with lastIdx := i, prevUs := b.lastUs, lastUs := s.localUs })

/-- A contribution that comes before a predecessor of an ORDERED chunk is parked (R82, R83). -/
def parks (b : Bolt) (i : Nat) : Bool := b.mode == 1 && !inTurn b i

/-- In the bucket's last chunk the first contribution that counts elements of the chunk gives the remainder; a decoder discards what a PLEAT contribution
has beyond it (R126, R193). -/
def boltFix (s : State) (k n : Nat) (hasIdx : Bool) : State :=
  match boltGet s k with
  | none => s
  | some b =>
    let last := (collFind s b.panel b.coll).any (fun c => b.chunk + 1 == c.bucketChunks)
    if last && !hasIdx && n != 0 && !b.fixed then
      boltSet s k (some { b with elems := n, fixed := true, acc := b.acc.take n, msgs := b.msgs.map (fun m =>
        if m.fmt = 10 ∧ n < m.elems then { m with elems := n, data := if m.decode = 0 then { m.data with raw := m.data.raw.take n } else m.data } else m) })
    else s

/-- A whole message from inside the gateway joins its chunk; PLEAT goes to the decoders. -/
def msgJoin (s : State) (k : Nat) (m : Msg) : State :=
  let (a, s) := nextAge s
  match boltGet s k with
  | none => s
  | some b =>
    let s := boltSet s k (some { b with msgs := b.msgs ++ [{ m with age := a, us := s.localUs, parked := parks b m.index }] })
    let s := msgArrived s k m.index
    if m.fmt = 10 then decodeStart s k m.index else s

/-- A message from inside the gateway. -/
def localMsg (index fmt elems : Nat) (hasIdx : Bool) (flags : Byte) (frags : List Frag) (data : InData) : Msg :=
  { index := index, rank := index, ip := 0, port := 0, fmt := fmt, elems := elems, hasIdx := hasIdx, standin := false, flags := flags, frags := frags,
    data := data, decode := 0, dbob := none, handles := [], cells := 0, charges := [], whole := true, taken := false, parked := false, age := 0, us := 0 }

/-- A duplicate contribution: one of its index is there or has been counted (R21). -/
def boltHas (b : Bolt) (i : Nat) : Bool := b.counted.contains i || b.msgs.any (fun m => m.index == i)

/-- A RESERVED bolt can open where it is: its context is bound to the panel and not to be rebound, not faulted, on an engine that takes bolts and whose
domain is ON (R113, R117, R436, R441). -/
def boltReady (s : State) (b : Bolt) : Bool :=
  b.state != .reserved || (ctxPanel s b.ctx == some b.panel && (heldGet s .SEAM_CTX_BIND b.ctx).isNone && !(ctxGet s b.ctx).faulted &&
    engTakes s b.ctx && domReady s (engDom (b.ctx / 16)))

/-- A RESERVED bolt that cannot open where it is moves to another context of its stage (R142, R441). -/
def boltPlace (s : State) (k : Nat) : State :=
  match boltGet s k with
  | none => s
  | some b => if boltReady s b then s else rehome s k

/-- A contribution from inside the gateway (ring or span) to the bolt of a chunk: joins it, is discarded as a duplicate, or is refused for its
format with FMT_REFUSED (R21, R42, R111); `n` is the count it gives the bucket's last chunk, 0 where it gives none.  None where no context that can open the chunk has room: it waits (R87, R113). -/
def localContrib (s : State) (k : Nat) (m : Msg) (n mode : Nat) (ring : Bool) (chalk : Word) : Option State :=
  match boltGet s k with
  | none => some s
  | some b =>
    if b.state = .aborting then some s
    else if b.state = .done ∨ boltHas b m.index ∨ !b.want.contains m.index then some (ccoCount s .CCO_CNT_DUP b.panel 0)
    else
      let s := boltPlace s k
      match boltGet s k with
      | none => some s
      | some b =>
        if !boltReady s b then none
        else if !chunkTakes s b mode m.fmt ring then some (raiseEv s .SEAM_CTX_EVENT b.ctx 4)
        else some (msgJoin (boltOpen (boltFix s k n m.hasIdx) k mode m.fmt chalk) k m)

/-- The bolt of a chunk for a stream that comes by NEXT: reserved on the context that NEXT names, to which a bolt RESERVED elsewhere moves; one that is
OPEN elsewhere takes the stream where it is (R86, R87; log 72).  None where that context has no room. -/
def reserveOn (s : State) (c : Coll) (st e chunk k : Nat) : Option (Nat × State) :=
  match chunkBolt s c.panel c.id st e chunk with
  | some (b, x) =>
    if x.state = .reserved ∧ x.ctx ≠ k ∧ ctxFits s c.panel (boltGranules x) k then some (b, boltSet s b (some { x with ctx := k })) else some (b, s)
  | none =>
    match (List.range boltTable).find? (fun b => (boltGet s b).isNone) with
    | some b => if ctxFits s c.panel (accGranules 0 c.chunkElems) k then some (b, boltSet s b (some (newBolt s c st e chunk k))) else none
    | none => none

/-- The values of a stream as the next stage reads them. -/
def streamData (o : Stream) (out : Nat) : InData := ⟨o.fmt.getD out, o.raw, o.scales, o.xp, o.idx⟩

/-! ### The Seam ring (R20, R86, R87) -/

/-- A transfer reaches its context and counts as one contribution of the gateway's own lower stage, with the bobbin and cells its stream still holds;
one whose chunk has already given its result is discarded and counted (R20, R21).  False where there is no room yet. -/
def ringArrive (s : State) (r : RingMsg) (bobbin : Option Word) (cells : Nat) : Bool × State :=
  match collFind s r.panel r.coll with
  | none => (true, s)
  | some c => match stageOf c r.ctx, epochFind c r.epoch with
    | some st, some x =>
      if x.ended.contains (st, r.chunk) then (true, ccoCount s .CCO_CNT_DUP r.panel 0)
      else (match ownIndex s c st, reserveOn s c st r.epoch r.chunk r.ctx with
      | some i, some (k, s') =>
        let d := streamData r.out r.fmt
        let n := if isXp d.fmt then d.xp.length else d.raw.length
        let m := localMsg i d.fmt n (!d.idx.isEmpty || n == 0) r.flags [] d
        (match localContrib s' k { m with handles := bobbin.toList, cells := cells } m.elems r.mode true r.chalk with
        | some t => (true, t)
        | none => (false, s))
      | some _, none => (false, s)
      | none, _ => (true, s))
    | _, _ => (true, s)

/-- RING_TRANSFER_ARRIVE: transfer `k` of those under way reaches its context (R87); it waits where the context has no room. -/
def execRingTransferArrive (k : Nat) (s : State) : Result :=
  .next <|
    match s.seam.ring[k]? with
    | none => s
    | some r =>
      match ringArrive { s with seam := { s.seam with ring := s.seam.ring.eraseIdx k } } r none 0 with
      | (true, s) => s
      | (false, _) => s

end Sys2Proof.Machine
end

