-- ==== Sys2Proof/Machine/Stitches.lean ====
section
/-! DEFINITION. What each stitch does (03_stitch_programs): the vectors it reads, the values it writes, when it waits, when it faults. -/

namespace Sys2Proof.Machine

/-- What a stitch does when it is tried: waits for a source, waits until the whole contribution has come (R105), faults, or takes effect
with an issue cost and a next stitch. -/
inductive Issue where
  | stall (s : State) (x : Inv)
  | hold
  | fault (cause : Byte)
  | go (s : State) (x : Inv) (cost next : Nat)

/-- What a stitch works on: its stage slot, its invocation, its bolt's number and contents, its word. -/
structure Env where
  i : Nat
  x : Inv
  k : Nat
  b : Bolt
  t : Stitch
  deriving DecidableEq, Repr

/-- The stitch takes effect and the next one follows. -/
def goNext (v : Env) (s : State) (x : Inv) (cost : Nat) : Issue := .go s x cost (v.x.pc + 1)

/-! ### Operands (R78, R91-R93) -/

/-- The value of a loop counter selected by LSEL. -/
def loopVal (x : Inv) (sel : Nat) : Nat := if sel = 0 then 0 else (tabGet ⟨0, 0⟩ x.loops (sel - 1)).value

/-- The first vector a stitch addresses (R92). -/
def vaFirst (v : Env) : Nat := vaBase v.t + loopVal v.x (vaSel v.t)

/-- Elements of vector `n` among `elems` (R92). -/
def vecLen (elems n : Nat) : Nat := min 256 (elems - 256 * n)

/-- The contribution an ARRIVE invocation works on. -/
def envMsg (v : Env) : Option Msg := if v.x.done then none else v.b.msgs.find? (fun m => m.index == v.x.index)

/-- FTZ of the chunk's setting (R71). -/
def envFtz (v : Env) : Bool := arithFtz v.b.arith

/-- The registers a stitch reads or writes wait for no Pleat block (R81, R209). -/
def regsReady (x : Inv) (l : List Nat) : Bool := l.all (fun r => !x.pend.contains r)

/-- Rounding flags enter the invocation, and with its END the chunk (R69, R105). -/
def withFlags (x : Inv) (fl : Byte) : Inv := { x with flags := x.flags ||| fl }

/-- The first `n` lanes of a list, absent lanes zero. -/
def lanesTo (n : Nat) (l : List Word) : List Word := l.take n ++ List.replicate (n - l.length) 0

/-- Scale bytes of a register, one for each block of its lanes (R78). -/
def regScales (r : VReg) : List Byte := (List.range (r.lanes.length / 32)).map (fun j => r.scales.getD j 0)

/-- Vectors `f` to `f + n − 1` that exist among `elems` elements: the first element, the element after the last, their number. -/
def vecSpan (elems f n : Nat) : Nat × Nat × Nat :=
  (256 * f, min elems (256 * (f + n)), min n ((elems - 256 * f + 255) / 256))

/-! ### Accumulators (R44-R54) -/

/-- An XP element enters an accumulator (R46). -/
def addXp (e : Elem) (x : XpElem) : Elem × Byte :=
  let (a, st, fl) := accAdd e.a x.a (stickyOr e.st x.st)
  (⟨a, st, e.run⟩, fl)

/-- The bits of an FP32 infinity. -/
def isInf32 (w : Word) : Bool := decide (w.toNat % pow2 31 = 0x7F800000)

/-- A value enters an element: exactly in EXACT mode; otherwise it is loaded, or added in FP32 (R46, R49, R50).  In the other modes the
sticky code only notes that an infinite input reached the element, for the INF flag of R54. -/
def addVal (mode fmt : Nat) (ftz : Bool) (e : Elem) (p : Word × Byte) : Elem × Byte :=
  if mode = 0 then
    let (v, f1) := widen fmt ftz p.2 p.1
    let (a, st, f2) := accAddVal e.a e.st v
    (⟨a, st, e.run⟩, f1 ||| f2)
  else
    let (w, f1) := widenBits fmt ftz p.2 p.1
    let st : BitVec 2 := if isInf32 w then 1 else e.st
    match e.run with
    | none => (⟨e.a, st, some w⟩, f1)
    | some r =>
      let (y, f2) := addFp32 r w
      (⟨e.a, st, some y⟩, f1 ||| f2)

/-- Addends enter the elements from `lo` on. -/
def accRange {α : Type} (acc : List Elem) (lo : Nat) (adds : List α) (f : Elem → α → Elem × Byte) : List Elem × Byte :=
  let mid := ((acc.drop lo).zip adds).map (fun p => f p.1 p.2)
  (acc.take lo ++ mid.map Prod.fst ++ acc.drop (lo + mid.length), flOr (mid.map Prod.snd))

/-- An element rounded to a result format as at chunk completion (R52-R54, R93). -/
def accRound (mode fmt : Nat) (ftz : Bool) (e : Elem) : Word × Byte :=
  if mode = 0 then roundResult fmt ftz (accValue e.a e.st)
  else match e.run with
  | none => (0, flNone)
  | some w =>
    let (y, fl) := roundResult fmt ftz (valFp32 w)
    if isInf32 w then (y, flIf (e.st != 0) flInf) else (y, fl)

/-- An element as an exact partial (R57, R69). -/
def accPartial (e : Elem) : XpElem × Byte := (⟨e.a, e.st⟩, flSticky e.st)

/-! ### Contributions read raw (R93) -/

/-- `n` raw elements of the contribution from `lo` on, with their blocks' scale bytes.  What a raw read of an exact partial gives where the
slot's format is not XP is not stated: free values (log 43). -/
def inRaw (s : State) (d : InData) (lo n : Nat) : List Word × List Byte × State :=
  if isXp d.fmt then
    let (l, s) := freeWords n s
    (l, [], s)
  else (lanesTo n (d.raw.drop lo), (d.scales.drop (lo / 32)).take ((n + 31) / 32), s)

/-- An element of the contribution as GATHER reads it: MX elements widened with their own block's scale (R93, R99). -/
def inElem (ftz : Bool) (d : InData) (j : Nat) : Word × Byte :=
  if isMx d.fmt then widenBits d.fmt ftz (d.scales.getD (j / 32) 0) (d.raw.getD j 0) else (d.raw.getD j 0, flNone)

/-! ### Output streams (R102, R258) -/

/-- The largest stream, 256 KiB (R102). -/
abbrev streamMax : Nat := 262144

/-- The output stream has a bobbin that holds `n` bytes: spool 4, spool 5 beyond 64 KiB.  Where none is free the invocation waits (R258,
R262). -/
def streamRoom (s : State) (i : Nat) (x : Inv) (n : Nat) : Bool × State × Inv :=
  let first : Bool × State × Inv := match x.bobbin with
    | some _ => (true, s, x)
    | none =>
      if x.bobWait then (false, s, x)
      else match bobRequest s 4 (i / 8) i false with
        | (some h, s) => (true, s, { x with bobbin := some h })
        | (none, s) => (false, s, { x with bobWait := true })
  match first with
  | (false, s, x) => (false, s, x)
  | (true, s, x) =>
    match x.bobbin with
    | none => (false, s, x)
    | some h =>
      if n ≤ 65536 ∨ bf h 31 28 = 5 then (true, s, x)
      else if x.bobWait then (false, s, x)
      else match bobRequest s 5 (i / 8) i false with
        | (some g, s) => (true, bobFree s (i / 8) h, { x with bobbin := some g })
        | (none, s) => (false, s, { x with bobWait := true })

/-- A stream grows: program fault 0x03 beyond 256 KiB, a wait where no bobbin is free, `f` with it otherwise.  The handle is checked where the last byte
goes, and cells are drawn for what is written (R255, R263). -/
def grow (v : Env) (s : State) (x : Inv) (o : Stream) (f : State → Inv → Issue) : Issue :=
  if streamMax < streamBytes o then .fault 3
  else match streamRoom s v.i x (streamBytes o) with
    | (false, s, x) => .stall s x
    | (true, s, x) => match bobUse s (v.i / 8) x.bobbin ((streamBytes o - 1) / 64 * 64) with
      | (false, s) => .stall s x
      | (true, s) => f (cellsMove s (cellsOf (streamBytes x.out)) (cellsOf (streamBytes o))) { x with out := o }

/-- A second value format (R102). -/
def fmtClash (o : Stream) (f : Nat) : Bool := match o.fmt with
  | some g => g != f
  | none => false

/-- An ARRIVE invocation may write ACC, SP, the Remnant store or the output stream: the whole message has come and passed (R105). -/
def mayWrite (v : Env) : Bool := match envMsg v with
  | some m => m.whole
  | none => true

/-! ### Moves and conversions -/

/-- NOP (R90). -/
def stNop (v : Env) (s : State) : Issue := goNext v s v.x 1

/-- SETL (R100). -/
def stSetl (v : Env) (s : State) : Issue :=
  goNext v s { v.x with loops := tabSet ⟨0, 0⟩ v.x.loops (immSel v.t) ⟨immBf v.t 29 16, immBf v.t 11 0⟩ } 1

/-- BRANCH (R100).  The counter's value has 14 bits. -/
def stBranch (v : Env) (s : State) : Issue :=
  let c := tabGet ⟨0, 0⟩ v.x.loops (immSel v.t)
  let put := fun (y : LoopCtr) => { v.x with loops := tabSet ⟨0, 0⟩ v.x.loops (immSel v.t) y }
  if c.trips = 0 then goNext v s v.x 1
  else if c.trips = 1 then goNext v s (put ⟨c.value, 0⟩) 1
  else .go s (put ⟨(c.value + immBf v.t 23 16) % 16384, c.trips - 1⟩) 1 (v.x.pc - immBf v.t 7 0)

/-- LOAD (R92, R93). -/
def stLoad (v : Env) (s : State) : Issue :=
  let f := vaFirst v
  if !regsReady v.x [v.t.dst] then .stall s v.x
  else if immSel v.t = 1 then
    let n := vecLen v.b.elems f
    let l := ((v.b.acc.drop (256 * f)).take n).map (accRound v.b.mode v.t.fa (envFtz v))
    goNext v s (withFlags (invSetReg v.x v.t.dst ⟨l.map Prod.fst, []⟩) (flOr (l.map Prod.snd))) (if n = 0 then 0 else if v.b.mode = 0 then 2 else 1)
  else if 4 * ctxSpa s v.x.ctx ≤ f then .fault 2
  else goNext v s (invSetReg v.x v.t.dst ⟨tabGetList 0 (ctxGet s v.x.ctx).scratch (256 * f) 256, []⟩) 1

/-- STORE (R93). -/
def stStore (v : Env) (s : State) : Issue :=
  let f := vaFirst v
  if !mayWrite v then .hold
  else if !regsReady v.x [v.t.sa] then .stall s v.x
  else if 4 * ctxSpa s v.x.ctx ≤ f then .fault 2
  else
    let c := ctxGet s v.x.ctx
    goNext v (ctxSet s v.x.ctx { c with scratch := tabSetList 0 c.scratch (256 * f) (lanesTo 256 (invReg v.x v.t.sa).lanes) }) v.x 1

/-- IOTA (R92, R94). -/
def stIota (v : Env) (s : State) : Issue :=
  if !regsReady v.x [v.t.dst] then .stall s v.x
  else
    let f := vaFirst v
    let nom := match collFind s v.b.panel v.b.coll with
      | some c => c.chunkElems
      | none => v.b.elems
    let base := 256 * f + (if immBf v.t 20 20 = 1 then v.b.chunk * nom else 0)
    let n := vecLen v.b.elems f
    goNext v s (invSetReg v.x v.t.dst ⟨(List.range n).map (fun j => BitVec.ofNat 32 (base + j)), []⟩) (if n = 0 then 0 else 1)

/-- UNPACK (R92, R93): waits until the contribution has come.  An IDX message has its own count of elements, which N follows (log 73). -/
def stUnpack (v : Env) (s : State) : Issue :=
  if !regsReady v.x [v.t.dst] then .stall s v.x
  else match envMsg v with
    | none => goNext v s (invSetReg v.x v.t.dst ⟨[], []⟩) 0
    | some m =>
      if !m.whole then .stall s v.x
      else
        let f := vaFirst v
        let n := vecLen m.elems f
        let (l, sc, s) := inRaw s m.data (256 * f) n
        goNext v s (invSetReg v.x v.t.dst ⟨l, sc⟩) (if n = 0 then 0 else 1)

/-- WIDEN (R38, R41). -/
def stWiden (v : Env) (s : State) : Issue :=
  if !regsReady v.x [v.t.dst, v.t.sa] then .stall s v.x
  else
    let r := invReg v.x v.t.sa
    let one := fun (p : Word × Nat) =>
      if v.t.fa = 7 then (BitVec.ofInt 32 (intOf 8 p.1.toNat), flNone) else widenBits v.t.fa (envFtz v) (r.scales.getD (p.2 / 32) 0) p.1
    let l := r.lanes.zipIdx.map one
    goNext v s (withFlags (invSetReg v.x v.t.dst ⟨l.map Prod.fst, []⟩) (flOr (l.map Prod.snd))) 1

/-- SCALE (R61-R63, R91). -/
def stScale (v : Env) (s : State) : Issue :=
  let sel := immSel v.t
  if !regsReady v.x ([v.t.dst, v.t.sa] ++ (if sel = 2 then [] else [v.t.sb])) then .stall s v.x
  else
    let k := (invReg v.x v.t.sb).lanes
    let scale := fun (j : Nat) => if sel = 0 then k.getD j 0 else if sel = 1 then k.getD 0 0 else BitVec.ofNat 32 (immBf v.t 15 0)
    let l := (invReg v.x v.t.sa).lanes.zipIdx.map (fun p => scaleOne v.t.fa v.t.fb (envFtz v) p.1 (scale p.2))
    goNext v s (withFlags (invSetReg v.x v.t.dst ⟨l.map Prod.fst, []⟩) (flOr (l.map Prod.snd))) 1

/-! ### SUM (R46, R49, R50, R90, R93) -/

/-- The bolt with its accumulators changed. -/
def withAcc (v : Env) (s : State) (acc : List Elem) : State :=
  match boltGet s v.k with
  | some b => boltSet s v.k (some { b with acc := acc })
  | none => s

/-- Issue cycles of one vector of SUM IN→ACC: in EXACT mode 2, and 4 where it came in an XP40 datagram (R90, R93). -/
def sumCost (b : Bolt) (m : Msg) (j : Nat) : Nat :=
  let xp40 := if m.frags.isEmpty then m.data.fmt == 9
    else m.frags.any (fun f => f.fmt == 9 && decide (f.off < 256 * j + 256) && decide (256 * j < f.off + f.n))
  if b.mode ≠ 0 then 1 else if xp40 then 4 else 2

/-- SUM IN→ACC: the contribution's elements enter the accumulators. -/
def stSumIn (v : Env) (s : State) : Issue :=
  match envMsg v with
  | none => goNext v s v.x 0
  | some m =>
    if !m.whole then .hold
    else
      let (lo, hi, n) := vecSpan (min m.elems v.b.elems) (vaFirst v) (vaCount v.t)
      let d := m.data
      let (acc, fl) :=
        if isXp d.fmt then accRange v.b.acc lo ((d.xp.drop lo).take (hi - lo)) addXp
        else accRange v.b.acc lo (((d.raw.zipIdx.drop lo).take (hi - lo)).map (fun p => (p.1, d.scales.getD (p.2 / 32) 0))) (addVal v.b.mode d.fmt (envFtz v))
      goNext v (withAcc v s acc) (withFlags v.x fl) (((List.range n).map (fun j => sumCost v.b m (vaFirst v + j))).sum)

/-- SUM REG→ACC: a register's lanes enter one vector; INT32 only in EXACT chunks (R90, R107). -/
def stSumReg (v : Env) (s : State) : Issue :=
  if !mayWrite v then .hold
  else if !regsReady v.x [v.t.sa] then .stall s v.x
  else if v.t.fa = 6 ∧ v.b.mode ≠ 0 then .fault 0x0D
  else
    let (lo, hi, n) := vecSpan v.b.elems (vaFirst v) 1
    let l := ((invReg v.x v.t.sa).lanes.take (hi - lo)).map (fun w => (w, (0 : Byte)))
    let (acc, fl) := accRange v.b.acc lo l (addVal v.b.mode v.t.fa (envFtz v))
    goNext v (withAcc v s acc) (withFlags v.x fl) (n * (if v.b.mode = 0 then 2 else 1))

/-- SUM REG+REG (R93, R107). -/
def stSumRegs (v : Env) (s : State) : Issue :=
  if !regsReady v.x [v.t.dst, v.t.sa, v.t.sb] then .stall s v.x
  else
    let a := (invReg v.x v.t.sa).lanes
    let b := (invReg v.x v.t.sb).lanes
    if a.length ≠ b.length then .fault 1
    else
      let l := (a.zip b).map (fun p => if v.t.fa = 6 then sumInt32 p.1 p.2 else sumFp32 (envFtz v) p.1 p.2)
      goNext v s (withFlags (invSetReg v.x v.t.dst ⟨l.map Prod.fst, []⟩) (flOr (l.map Prod.snd))) 1

/-- SUM. -/
def stSum (v : Env) (s : State) : Issue :=
  if immSel v.t = 0 then stSumIn v s else if immSel v.t = 1 then stSumReg v s else stSumRegs v s

/-! ### GATHER, SORT, TOPK, FILTER (R95-R99) -/

/-- Elements a space holds, as GATHER counts them. -/
def gatherLimit (v : Env) (s : State) : Nat := if immSel v.t = 2 then 1024 * ctxSpa s v.x.ctx else v.b.elems

/-- One gathered element. -/
def gatherOne (v : Env) (s : State) (j : Nat) : Word × Byte :=
  if immSel v.t = 0 then (match envMsg v with
    | some m => inElem (envFtz v) m.data j
    | none => (0, flNone))
  else if immSel v.t = 1 then (match v.b.acc[j]? with
    | some e => accRound v.b.mode v.t.fa (envFtz v) e
    | none => (0, flNone))
  else (tabGet 0 (ctxGet s v.x.ctx).scratch j, flNone)

/-- GATHER (R93, R99): an index out of range gives a zero lane, is counted and sets IDX_OOR. -/
def stGather (v : Env) (s : State) : Issue :=
  let whole := match envMsg v with
    | some m => m.whole
    | none => true
  if !regsReady v.x [v.t.dst, v.t.sb] ∨ (immSel v.t = 0 ∧ !whole) then .stall s v.x
  else
    let idx := (invReg v.x v.t.sb).lanes.map (fun w => w.toNat)
    let lim := gatherLimit v s
    let oor := (idx.filter (fun j => decide (lim ≤ j))).length
    let foreign : Bool := immSel v.t == 0 && (match envMsg v with
      | some m => isXp m.data.fmt
      | none => false)
    let (fr, s) := if foreign then freeWords idx.length s else ([], s)
    let l := idx.zipIdx.map (fun p => if lim ≤ p.1 then (0, flNone) else if foreign then (fr.getD p.2 0, flNone) else gatherOne v s p.1)
    let s := if oor = 0 then s else raiseEv (ctrAdd s .SEAM_CNT_IDX_OOR (v.i / 8) oor) .SEAM_CTX_EVENT v.x.ctx 2
    goNext v s (withFlags (invSetReg v.x v.t.dst ⟨l.map Prod.fst, []⟩) (flOr (l.map Prod.snd))) (if immSel v.t = 1 then 8 else 4)

/-- What a key compares as: none for a NaN, which orders after every number (R95). -/
def keyNum (fmt : Nat) (mag : Bool) (w : Word) : Option Int :=
  let m := w.toNat % pow2 31
  if fmt = 6 then some (intOf 32 w.toNat)
  else if fmt = 11 then some (w.toNat : Int)
  else if 0x7F800000 < m then none
  else if mag ∨ m = w.toNat then some (m : Int) else some (-(m : Int))

/-- One pair comes before another (R95).  Two NaN keys order by their index lanes, as equal keys do (log 73). -/
def pairBefore (fmt : Nat) (mag desc : Bool) (a b : Word × Word) : Bool :=
  match keyNum fmt mag a.1, keyNum fmt mag b.1 with
  | none, none => decide (a.2.toNat ≤ b.2.toNat)
  | none, some _ => false
  | some _, none => true
  | some x, some y => if x = y then decide (a.2.toNat ≤ b.2.toNat) else if desc then decide (y < x) else decide (x < y)

/-- A pair put in its place. -/
def pairInsert (fmt : Nat) (mag desc : Bool) (a : Word × Word) : List (Word × Word) → List (Word × Word)
  | [] => [a]
  | b :: t => if pairBefore fmt mag desc a b then a :: b :: t else b :: pairInsert fmt mag desc a t

/-- Pairs in order. -/
def pairSort (fmt : Nat) (mag desc : Bool) (l : List (Word × Word)) : List (Word × Word) := l.foldr (pairInsert fmt mag desc) []

/-- An output key: −0 is written as +0 (R95). -/
def keyOut (fmt : Nat) (w : Word) : Word := if fmt = 0 ∧ w = 0x80000000 then 0 else w

/-- Writes pairs to a register pair. -/
def setPair (v : Env) (l : List (Word × Word)) : Inv :=
  invSetReg (invSetReg v.x v.t.dst ⟨l.map (fun p => keyOut v.t.fa p.1), []⟩) (v.t.dst + 1) ⟨l.map Prod.snd, []⟩

/-- SORT (R96). -/
def stSort (v : Env) (s : State) : Issue :=
  if !regsReady v.x [v.t.dst, v.t.dst + 1, v.t.sa, v.t.sb] then .stall s v.x
  else
    let a := (invReg v.x v.t.sa).lanes
    let b := (invReg v.x v.t.sb).lanes
    if a.length ≠ b.length then .fault 1
    else goNext v s (setPair v (pairSort v.t.fa (immBf v.t 1 1 == 1) (immBf v.t 0 0 == 1) (a.zip b))) 16

/-- TOPK (R97): N is SRC_A's; missing index lanes read as zero. -/
def stTopk (v : Env) (s : State) : Issue :=
  if !regsReady v.x [v.t.dst, v.t.dst + 1, v.t.sa, v.t.sb] then .stall s v.x
  else
    let a := (invReg v.x v.t.sa).lanes
    let old := (invReg v.x v.t.dst).lanes
    let pairs := old.zip (lanesTo old.length (invReg v.x (v.t.dst + 1)).lanes) ++ a.zip (lanesTo a.length (invReg v.x v.t.sb).lanes)
    let k := immBf v.t 8 0
    goNext v s (setPair v ((pairSort v.t.fa (immBf v.t 9 9 == 1) true pairs).take k)) (if k ≤ 64 then 16 else 32)

/-- A key passes the threshold (R98). -/
def filterPass (mag : Bool) (th : Nat) (w : Word) : Bool :=
  match keyNum 0 mag w with
  | none => false
  | some x => decide (((if th = 0x8000 then 0 else th * 65536 : Nat) : Int) ≤ x)

/-- FILTER (R98). -/
def stFilter (v : Env) (s : State) : Issue :=
  if !regsReady v.x [v.t.dst, v.t.dst + 1, v.t.sa, v.t.sb] then .stall s v.x
  else
    let a := (invReg v.x v.t.sa).lanes
    let b := (invReg v.x v.t.sb).lanes
    if a.length ≠ b.length then .fault 1
    else goNext v s (setPair v ((a.zip b).filter (fun p => filterPass (immBf v.t 16 16 == 1) (immBf v.t 15 0) p.1))) 2

/-! ### CHECK, WAIT (R105-R107) -/

/-- Indices strictly ascending. -/
def ascending : List Nat → Bool
  | a :: b :: t => decide (a < b) && ascending (b :: t)
  | _ => true

/-- CHECK: mode CRC is the wait of R105 placed earlier; mode IDX checks the indices of SRC_A. -/
def stCheck (v : Env) (s : State) : Issue :=
  if immBf v.t 1 0 = 0 then (if mayWrite v then goNext v s v.x 1 else .hold)
  else if !regsReady v.x [v.t.sa] then .stall s v.x
  else
    let l := (invReg v.x v.t.sa).lanes.map (fun w => w.toNat)
    if ascending l && l.all (fun j => decide (j < v.b.elems)) then goNext v s v.x 1 else .fault 6

/-- The Remnant accesses of an invocation that are under way. -/
def remPending (s : State) (v : Env) : Bool := s.seam.remq.any (fun r => r.slot == v.i && r.inv == v.x.num)

/-- WAIT (R106). -/
def stWait (v : Env) (s : State) : Issue :=
  let want := fun (b : Nat) => immBf v.t b b == 1
  let ok := (!want 0 || mayWrite v) && (!want 1 || !remPending s v) && (!want 2 || v.x.plt == 0) && (!want 3 || v.x.emits.isEmpty)
  if ok then goNext v s v.x 1 else .stall s v.x

/-! ### PACK (R102) -/

/-- The lanes of a register as a result carries them, and their flags: INF is not set where the invocation has overflowed, since an infinity that
comes of that is no infinite input (R40, R55, R65, R69; log 81). -/
def packLanes (v : Env) (r : VReg) : List Word × Byte :=
  let l := r.lanes.zipIdx.map (fun p => resultLane v.t.fa (r.scales.getD (p.2 / 32) 0) p.1)
  let fl := flOr (l.map Prod.snd)
  (l.map Prod.fst, if (v.x.flags ||| v.b.flags) &&& flOvf = 0 then fl else fl &&& ~~~ flInf)

/-- PACK from a register. -/
def stPackReg (v : Env) (s : State) : Issue :=
  let r := invReg v.x v.t.sa
  let o := v.x.out
  if !regsReady v.x [v.t.sa] then .stall s v.x
  else if r.lanes.isEmpty then goNext v s v.x 1
  else if v.t.fa = 11 then grow v s v.x { o with idx := o.idx ++ r.lanes } (fun s x => goNext v s x 1)
  else if fmtClash o v.t.fa then .fault 4
  else if isMx v.t.fa ∧ r.lanes.length % 32 ≠ 0 then .fault 0x0A
  else
    let (l, fl) := packLanes v r
    grow v s (withFlags v.x fl) { o with fmt := some v.t.fa, raw := o.raw ++ l, scales := o.scales ++ (if isMx v.t.fa then regScales r else []) }
      (fun s x => goNext v s x 1)

/-- PACK from the accumulators, rounded to OUT_FMT. -/
def stPackAcc (v : Env) (s : State) : Issue :=
  let out := arithOut v.b.arith
  let (lo, hi, n) := vecSpan v.b.elems (vaFirst v) (vaCount v.t)
  let es := (v.b.acc.drop lo).take (hi - lo)
  let o := v.x.out
  let cost := n * (if v.b.mode ≠ 0 then 1 else if out = 9 then 4 else 2)
  if es.isEmpty then goNext v s v.x cost
  else if fmtClash o out then .fault 4
  else if isXp out then
    let l := es.map accPartial
    grow v s (withFlags v.x (flOr (l.map Prod.snd))) { o with fmt := some out, xp := o.xp ++ l.map Prod.fst } (fun s x => goNext v s x cost)
  else
    let l := es.map (accRound v.b.mode out (envFtz v))
    grow v s (withFlags v.x (flOr (l.map Prod.snd))) { o with fmt := some out, raw := o.raw ++ l.map Prod.fst } (fun s x => goNext v s x cost)

/-- PACK. -/
def stPack (v : Env) (s : State) : Issue :=
  if !mayWrite v then .hold else if immSel v.t = 1 then stPackAcc v s else stPackReg v s

/-! ### NARROW (R65-R68, R177, R195, R209) -/

/-- The Remnant region of the chunk's context: a Level 2 context at a site root that narrows (R171). -/
def envRegion (v : Env) (s : State) : Option (Coll × SpanCfg) :=
  match collFind s v.b.panel v.b.coll with
  | none => none
  | some c => if v.b.stage = 1 then (remRegion c).map (fun q => (c, q)) else none

/-- The residual's FP32 value (R65). -/
def residVal (q : SpanCfg) (w : Word) : Word := if q.resFp32 then w else BitVec.ofNat 32 (w.toNat % 65536 * 65536)

/-- A request for the residuals of a vector. -/
def remRead (v : Env) (c : Coll) (q : SpanCfg) (vec : Nat) : RemReq :=
  ⟨v.i, v.x.num, false, vec, remAddrOf c q (remBanks c q v.b.epoch).1 v.b.chunk (256 * vec), [], vecLen v.b.elems vec * resBytes q⟩

/-- Where the residuals of a vector are written. -/
def remWriteAddr (v : Env) (c : Coll) (q : SpanCfg) (vec : Nat) : Nat := remAddrOf c q (remBanks c q v.b.epoch).2 v.b.chunk (256 * vec)

/-- NARROW of lanes with their v values to a format other than PLEAT: register, residuals, flags. -/
def narrowLanes (fmt : Nat) (ftz resFp32 : Bool) (vs : List (Val × Bool)) : VReg × List Word × Byte :=
  if isMx fmt then
    let l := (pieces 32 256 vs).map (narrowMx fmt ftz resFp32)
    (⟨l.flatMap (fun p => p.2.1), l.map Prod.fst⟩, l.flatMap (fun p => p.2.2.1), flOr (l.map (fun p => p.2.2.2)))
  else
    let l := vs.map (fun p => narrowFp fmt ftz resFp32 p.2 p.1)
    (⟨l.map Prod.fst, []⟩, l.map (fun p => p.2.1), flOr (l.map (fun p => p.2.2)))

/-- NARROW with the residuals r of its vector, or none without REM; `wr` says where new residuals go (R65, R209, R213).  To PLEAT, a vector wholly
beyond the chunk still gives a block, of zeros (log 73). -/
def narrowWith (v : Env) (s : State) (r : List Word) (wr : Option (Nat × SpanCfg)) : Issue :=
  let f := vaFirst v
  let src := (invReg v.x v.t.sa).lanes
  let res32 := match wr with
    | some (_, q) => q.resFp32
    | none => false
  let n := vecLen v.b.elems f
  if v.t.fb = 10 then
    let cb := bf v.b.cb 7 0
    if !bit v.b.cb 31 ∨ (cbGet s cb).state ≠ .valid then .fault 0x0C
    else if fmtClash v.x.out 10 then .fault 4
    else if encFull s v.b.panel then .stall s v.x
    else
      let vs := (List.range 256).map (fun j => if j < n then narrowIn (src.getD j 0) (r.getD j 0) else (.fin false 0 0, false))
      grow v s v.x { v.x.out with fmt := some 10, pleat := v.x.out.pleat ++ [none] } (fun s x =>
        let req : EncReq := { slot := v.i, inv := x.num, panel := v.b.panel, cb := cb, ftz := envFtz v, dst := v.t.dst, place := v.x.out.pleat.length,
                              vals := vs.map (fun p => (toFp32 p.1, p.2)), resFp32 := res32, rem := wr.map (fun p => (p.1, n)), vec := f }
        let s := { s with plt := { s.plt with enc := s.plt.enc ++ [req] } }
        goNext v s { withFlags x (flIf (vs.any (fun p => p.2)) flOvf) with pend := x.pend ++ [v.t.dst], plt := x.plt + 1 } 1)
  else if isMx v.t.fb ∧ src.length % 32 ≠ 0 then .fault 0x0A
  else
    let vs := src.zipIdx.map (fun p => narrowIn p.1 (r.getD p.2 0))
    let (reg, resid, fl) := narrowLanes v.t.fb (envFtz v) res32 vs
    let s := match wr with
      | some (a, q) =>
        let data := (resid.take n).flatMap (fun w => leBytes (resBytes q) w.toNat)
        { s with seam := { s.seam with remq := s.seam.remq ++ [⟨v.i, v.x.num, true, f, a, data, data.length⟩] } }
      | none => s
    goNext v s (withFlags (invSetReg v.x v.t.dst reg) fl) (if res32 then 4 else 2)

/-- NARROW: with REM it needs the context's Remnant region, and waits for its residuals (R65, R106, R107). -/
def stNarrow (v : Env) (s : State) : Issue :=
  let rem := immBf v.t 31 31 == 1
  if (rem || v.t.fb == 10) && !mayWrite v then .hold
  else if !regsReady v.x [v.t.dst, v.t.sa] then .stall s v.x
  else if !rem then narrowWith v s [] none
  else match envRegion v s with
    | none => .fault 5
    | some (c, q) =>
      let f := vaFirst v
      if vecLen v.b.elems f = 0 then narrowWith v s [] none
      else match v.x.resid.lookup f with
        | some r => narrowWith v s (r.map (residVal q)) (some (remWriteAddr v c q f, q))
        | none =>
          let asked := s.seam.remq.any (fun r => r.slot == v.i && r.inv == v.x.num && r.vec == f && !r.write)
          .stall (if asked then s else { s with seam := { s.seam with remq := s.seam.remq ++ [remRead v c q f] } }) v.x

/-! ### EMIT (R103) -/

/-- A stream to which nothing has been appended. -/
def streamEmpty (o : Stream) : Bool := o.fmt.isNone && o.idx.isEmpty

/-- The next stage takes a stream: its stage accepts the format (R164), its slot and its chunk do (R42, R86, R107). -/
def nextTakes (s : State) (v : Env) (k : Nat) (fmt : Nat) : Bool :=
  match collFind s v.b.panel v.b.coll with
  | none => true
  | some c => match stageOf c k with
    | none => false
    | some st =>
      (ownIndex s c st).isSome && stageTakes c st fmt &&
      (match chunkBolt s c.panel c.id st v.b.epoch v.b.chunk with
      | some (_, b) => chunkTakes s b v.b.mode fmt true
      | none => chunkTakes s (newBolt s c st v.b.epoch v.b.chunk k) v.b.mode fmt true)

/-- EMIT: the stream joins those the invocation has emitted, and a new one starts; whether it is accepted is seen at END or WAIT (R103,
R104, R107). -/
def stEmit (v : Env) (s : State) : Issue :=
  let o := v.x.out
  let tgt := immSel v.t
  let out := arithOut v.b.arith
  if !mayWrite v then .hold
  else if o.pleat.any (fun p => p.isNone) then .stall s v.x
  else if !o.idx.isEmpty ∧ o.idx.length ≠ streamCount o then .fault 4
  else if isMx (o.fmt.getD 0) ∧ o.raw.length % 32 ≠ 0 then .fault 0x0A
  else if streamEmpty o ∧ 2 ≤ tgt then .fault 0x0E
  else
    let send := fun (_ : Unit) =>
      goNext v s { v.x with out := emptyStream, bobbin := none, emits := v.x.emits ++ [⟨tgt, immBf v.t 12 0, o, v.x.bobbin⟩] } 1
    if tgt = 1 then
      match ctxNext s v.x.ctx with
      | none => .fault 7
      | some k => if nextTakes s v k (o.fmt.getD out) then send () else .fault 9
    else send ()

/-! ### Accepting streams (R104, R144, R171, R289) -/

/-- The fragments of a stream and whether a datagram fell back to XP40; an empty one is a message of zero entries (R103). -/
def streamFrags (s : State) (b : Bolt) (m : Emitted) : List Frag × Bool :=
  let out := arithOut b.arith
  if streamEmpty m.out then ([⟨0, 0, out, if isXp out then writeXp out (if out = 8 then xpWbase [] else 0) [] else []⟩], false)
  else if m.out.fmt = some 10 then
    let cap := if m.maxe = 0 then 4096 else max 256 (m.maxe / 256 * 256)
    let k := bf b.cb 7 0
    let cb := cbGet s k
    let bl := m.out.pleat.map (fun p => p.getD [])
    ((pieces (cap / 256) 4096 bl).zipIdx.map (fun p =>
      let n := min (256 * p.1.length) (b.elems - p.2 * cap)
      ⟨p.2 * cap, n, 10, pleatFrag k cb p.1 ++ idxPart m.out (p.2 * cap) n⟩), false)
  else splitStream m.out m.maxe

/-- Elements of a stream. -/
def streamElems (b : Bolt) (o : Stream) : Nat := if o.fmt = some 10 then min b.elems (streamCount o) else streamCount o

/-- UP: the CONTRIB leaves once the parent's credit covers the chunk (R144); after a NACK PANEL_DOWN it is kept and leaves at the RESUME (R133). -/
def acceptUp (s : State) (b : Bolt) (m : Emitted) (c : Coll) (fl : Byte) (fs : List Frag) : Option State :=
  if !upCovered c b.epoch b.chunk then none
  else
    let u : UpMsg := { epoch := b.epoch, chunk := b.chunk, mode := b.mode, crc := arithCrc b.arith, hasIdx := !m.out.idx.isEmpty || streamEmpty m.out,
                       flags := fl, elems := streamElems b m.out, chalk := b.chalk, frags := fs, again := c.paused, sent := !c.paused, dueUs := 0 }
    let s := if upStopped s c b.epoch then s else sendUp s c u false
    some (upDone (collMod s b.panel b.coll (fun c => { c with up := c.up ++ [u] })) b.panel b.coll b.epoch b.chunk fl)

/-- Transfers of an engine that are on the Seam ring. -/
def ringFrom (s : State) (e : Nat) : Nat := (s.seam.ring.filter (fun r => r.src / 16 == e)).length

/-- NEXT: on the same engine the stream is delivered once its context has room; to another engine it takes the ring, which back-pressures once it
holds as many transfers of the engine as it takes, a number the spec does not give (R86, R87; log 83). -/
def acceptNext (s : State) (x : Inv) (b : Bolt) (m : Emitted) (fl : Byte) : Option State :=
  match ctxNext s x.ctx with
  | none => some s
  | some k =>
    let r : RingMsg := { panel := b.panel, coll := b.coll, epoch := b.epoch, chunk := b.chunk, ctx := k, src := x.ctx, mode := b.mode, fmt := arithOut b.arith, out := m.out, flags := fl, chalk := b.chalk }
    if k / 16 = x.ctx / 16 then
      match ringArrive s r m.bobbin (cellsOf (streamBytes m.out)) with
      | (true, s) => some s
      | (false, _) => none
    else if Config.ringRoom < ringFrom s (x.ctx / 16) then none
    else some { s with seam := { s.seam with ring := s.seam.ring ++ [r] } }

/-- SPAN: one stream for every peer session and for the gateway's own Level 3 stage, once every segment it needs has a slot (R171, R285,
R289). -/
def acceptSpan (s : State) (b : Bolt) (m : Emitted) (c : Coll) (fl : Byte) (fs : List Frag) : Option State :=
  match c.span with
  | none => some s
  | some q =>
    let bytes := if m.out.fmt = some 10 then
        pleatFrag (bf b.cb 7 0) (cbGet s (bf b.cb 7 0)) (m.out.pleat.map (fun p => p.getD [])) ++ idxPart m.out 0 (streamElems b m.out)
      else (fs.flatMap (fun f => f.payload.take (valueBytes f.fmt f.n))) ++ m.out.idx.flatMap wordBytes
    let fmt := m.out.fmt.getD 0
    let need := ((peerSites q).map (fun j => chunkSlots s (q.sessBase + j) b.coll b.epoch b.chunk fmt bytes.length)).sum
    if slotLimit s < s.selv.slots.length + max 1 need && !(peerSites q).isEmpty then none
    else
      let n := streamElems b m.out
      let own := localMsg q.siteIdx fmt n (!m.out.idx.isEmpty) fl [⟨0, n, fmt, bytes⟩] (streamData m.out fmt)
      let own := { own with handles := m.bobbin.toList, cells := cellsOf (streamBytes m.out) }
      match ((chunkBolt s b.panel b.coll 2 b.epoch b.chunk).map (fun k => localContrib s k.1 own n 0 false b.chalk)).getD (some s) with
      | none => none
      | some s =>
        let s := (peerSites q).foldl (fun s j => chunkEnter s (q.sessBase + j) b.coll b.epoch b.chunk fmt fl bytes q.spw) s
        some (traceChunk s (b.ctx / 16) 5 b.panel b.stage b.chalk b.coll b.epoch b.chunk q.sessBase)

/-- DOWN: the result goes toward delivery (R157, R158). -/
def acceptDown (s : State) (b : Bolt) (m : Emitted) (fl : Byte) (fs : List Frag) : State :=
  deliver s b.panel b.coll b.epoch b.chunk (streamElems b m.out) (!m.out.idx.isEmpty) (arithCrc b.arith) fl b.chalk fs

/-- The ARITH_FLAGS a contribution came with (R70). -/
def contribFlags (b : Bolt) (i : Nat) : Byte := flOr ((b.msgs.filter (fun m => m.index == i)).map (fun m => m.flags))

/-- A stream of an invocation is accepted, or none where it has to wait.  It carries the flags of the chunk, of the invocation and of the
contribution it works on (R69, R70); XPFB only where a datagram is sent (R58).  Streams of an aborted epoch are discarded (R113). -/
def acceptEmit (s : State) (x : Inv) (m : Emitted) : Option State :=
  match boltGet s x.bolt with
  | none => some s
  | some b => match collFind s b.panel b.coll with
    | none => some s
    | some c =>
      if b.state = .aborting then some s
      else
        let (fs, fb) := streamFrags s b m
        let fb := fb && m.target != 1
        let s := if fb then boltFlags s x.bolt flXpfb else s
        let fl := b.flags ||| x.flags ||| flIf fb flXpfb ||| (if x.done then flNone else contribFlags b x.index)
        match m.target with
        | 0 => acceptUp s b m c fl fs
        | 1 => acceptNext s x b m fl
        | 2 => acceptSpan s b m c fl fs
        | _ => some (acceptDown s b m fl fs)

/-- A stream has been accepted: it leaves its cells and its bobbin, unless it has joined a chunk of the gateway's own as a contribution, which holds them
on, or its cells are a result's, whose bobbin returns with the last of them (R158, R207, R264). -/
def streamDone (s0 s : State) (unit : Nat) (m : Emitted) : State :=
  let kept := (bolts s).any (fun e => e.2.msgs.any (fun x => m.bobbin.any (fun h => x.handles.contains h)))
  if kept then s
  else match (if s.cco.nextCell = s0.cco.nextCell then none else cellGet s s0.cco.nextCell) with
  | some x => cellSet (cellsFree s (cellsOf (streamBytes m.out))) s0.cco.nextCell (some { x with handle := m.bobbin })
  | none => streamFree s unit m.bobbin m.out

/-- The streams of a slot's invocation that can be accepted are, in order; each releases its bobbin (R104). -/
def tryEmits (i : Nat) : Nat → State → State
  | 0, s => s
  | n + 1, s =>
    match runOf s i with
    | none => s
    | some x => match x.emits with
      | [] => s
      | m :: t => match acceptEmit s x m with
        | none => s
        | some t' => match runOf t' i with
          | none => t'
          | some y =>
            if y.emits.isEmpty then t' else tryEmits i n (streamDone s (runSet t' i (some { y with emits := t })) (i / 8) m)

/-! ### END (R104, R146, R147) -/

/-- A chunk's completion record, where they are enabled (R147).  The ring's length is not given: records follow one another from its base
(log 36).  A ring that does not lie in the panel's quota is not written (R269). -/
def complWrite (s : State) (b : Bolt) : State :=
  if !regBit s .CCO_CFG 0 0 then s
  else
    let base := (regGet s .CCO_RING_BASE_LO b.panel).toNat + (regGet s .CCO_RING_BASE_HI b.panel).toNat * pow2 32
    let n := tabGet 0 s.cco.ringPos b.panel
    let a := base + 16 * n
    if !inQuota s b.panel a 16 then s
    else
      let bad := (ueIn s a 16).isSome
      let s := hbmWrite { s with cco := { s.cco with ringPos := tabSet 0 s.cco.ringPos b.panel (n + 1) } } a (complRecord b)
      if bad then (s.cco.colls.filter (fun c => c.panel == b.panel)).foldl (fun s c => abortAll s c.panel c.id 1 .self) s else s

/-- An ARRIVE invocation has ended: its contribution is counted, its flags join the chunk's (R70, R81). -/
def arriveEnd (s : State) (x : Inv) : State :=
  match boltGet s x.bolt with
  | none => s
  | some b =>
    if b.state = .aborting then abortingFree s x.bolt
    else
      let fl := x.flags ||| contribFlags b x.index
      let s := msgDrop s x.bolt x.index
      let (a, s) := nextAge s
      match boltGet s x.bolt with
      | none => s
      | some b => boltSet s x.bolt (some { b with counted := b.counted ++ [x.index], flags := b.flags ||| fl, age := a })

/-- A DONE invocation has ended: the chunk is complete and its bolt is freed by its engine (R84, R146, R147, R153). -/
def doneEnd (s : State) (x : Inv) : State :=
  match boltGet s x.bolt with
  | none => s
  | some b =>
    if b.state = .aborting then abortingFree s x.bolt
    else
      let b := { b with flags := b.flags ||| x.flags }
      let s := epochMod s b.panel b.coll b.epoch (fun e => { e with ended := e.ended ++ [(b.stage, b.chunk)] })
      let s := ledgerUpdate s b
      let s := filterCount (filterCount s b.panel b.chalk 0 1) b.panel b.chalk 1 b.elems
      let s := traceChunk s (b.ctx / 16) 2 b.panel b.stage b.chalk b.coll b.epoch b.chunk (b.lastIdx % 65536 * 65536 + b.flags.toNat)
      let s := complWrite (pageRelease (boltFree s (b.ctx / 16) x.bolt) (ctxSlot s b.ctx)) b
      let s := trialChunk s b.ctx b.coll b.chunk
      retireFinish (creditAll s) b.panel b.coll

/-- END: a stream left over is program fault 0x08; otherwise the invocation ends once everything it handed on has been accepted (R104). -/
def stEnd (v : Env) (s : State) : Issue :=
  if !streamEmpty v.x.out then .fault 8
  else
    let s := tryEmits v.i (v.x.emits.length + 1) s
    match runOf s v.i with
    | none => .go s v.x 1 256
    | some x =>
      if !x.emits.isEmpty ∨ x.plt ≠ 0 ∨ remPending s v then .stall s x
      else
        let s := invFree s v.i
        .go (if x.done then doneEnd s x else arriveEnd s x) x 1 256

/-! ### Issue (R81, R112) -/

/-- The stitch an invocation is at. -/
def stitchAt (s : State) (i : Nat) (x : Inv) (b : Bolt) : Stitch := stitchOf (tabGet 0 (slotPage s i b.gen).words x.pc)

/-- What a stitch does, by its opcode (R90). -/
def stitchDo (op : Nat) : Env → State → Issue :=
  match op with
  | 0x00 => stNop
  | 0x01 => stEnd
  | 0x02 => stSetl
  | 0x03 => stLoad
  | 0x04 => stStore
  | 0x05 => stIota
  | 0x08 => stUnpack
  | 0x09 => stPack
  | 0x0A => stWiden
  | 0x0B => stNarrow
  | 0x10 => stSum
  | 0x11 => stScale
  | 0x18 => stGather
  | 0x19 => stSort
  | 0x1A => stTopk
  | 0x1B => stFilter
  | 0x20 => stCheck
  | 0x21 => stEmit
  | 0x22 => stWait
  | 0x23 => stBranch
  | _ => stNop

/-- The running invocations of an engine that are not stalled: panel, kind, number and slot. -/
def issueCands (s : State) (e : Nat) : List Cand :=
  (List.range 8).filterMap (fun j => match runOf s (8 * e + j) with
    | some x => if x.stall || x.held then none
      else some ⟨((boltGet s x.bolt).map (fun b => b.panel)).getD 0, x.done, x.num, 8 * e + j, 0⟩
    | none => none)

/-- The rule of R112 lets the invocation of a slot issue now. -/
def mayIssue (s : State) (i : Nat) : Bool :=
  let l := issueCands s (i / 8)
  match l.find? (fun c => c.bolt == i) with
  | none => false
  | some c =>
    panelMay s (i / 8) (l.map (fun c => c.panel)) c.panel &&
    (match candBest (l.filter (fun d => d.panel == c.panel)) with
    | some d => d.bolt == i
    | none => false)

/-- Issue cycles enter the panel's tally and the engine's count (R112). -/
def charge (s : State) (e p n : Nat) : State :=
  let x := engGet s e
  ctrAdd (engSet s e { x with used := tabMod 0 x.used p (· + n) }) .SEAM_CNT_ISSUE e n

/-- A stitch is tried, and what comes of it takes effect. -/
def settle (s : State) (v : Env) (r : Issue) : State :=
  match r with
  | .stall s' x =>
    let s' := runSet s' v.i (some { x with stall := true })
    if v.x.stall then s' else ctrInc s' .SEAM_CNT_STALL (v.i / 8)
  | .hold => runSet s v.i (some { v.x with held := true, stall := false })
  | .fault c => progFault s v.i c
  | .go s' x cost next =>
    let s' := if v.t.op = 0x01 then s' else runSet s' v.i (some { x with pc := next, stall := false })
    let s' := if v.t.op = 0x21 then tryEmits v.i (x.emits.length + 1) s' else s'
    charge s' (v.i / 8) v.b.panel cost

/-- The engine of a slot runs: in service, powered. -/
def engRuns (s : State) (e : Nat) : Bool := (engGet s e).state != .resetting && domOn s (engDom e)

/-- What the invocation of a slot is at. -/
def envOf (s : State) (i : Nat) : Option Env :=
  match runOf s i with
  | none => none
  | some x => match boltGet s x.bolt with
    | none => none
    | some b => some ⟨i, x, x.bolt, b, stitchAt s i x b⟩

/-- The first element or word a stitch addresses: of its vector, or for GATHER of the first index lane. -/
def padElem (v : Env) : Nat :=
  if v.t.op = 0x18 then ((invReg v.x v.t.sb).lanes.getD 0 0).toNat else 256 * vaFirst v

/-- The contribution a stitch reads lies in scratchpad where it was parked (R82, R83): the granule of its first element. -/
def padParked (v : Env) : Option PadAddr :=
  match envMsg v with
  | some m => if m.parked then some (.parked v.k m.index (valueBytes m.fmt (padElem v) / 4096)) else none
  | none => none

/-- The accumulators' granule of the first element a stitch addresses. -/
def padAcc (v : Env) : PadAddr := .acc v.k (padElem v * (if v.b.mode = 0 then 40 else 4) / 4096)

/-- Where in scratchpad a stitch reads or writes, as its detector reports it (R76, R432): the granule of the first element or word it addresses there
(log 82).  A stitch that works on registers touches none. -/
def padAddr (v : Env) : Option PadAddr :=
  match v.t.op with
  | 0x03 => some (if immSel v.t = 1 then padAcc v else .scratch v.x.ctx (padElem v / 1024))
  | 0x04 => some (.scratch v.x.ctx (padElem v / 1024))
  | 0x08 => padParked v
  | 0x09 => if immSel v.t = 1 then some (padAcc v) else none
  | 0x10 => if immSel v.t = 2 then none else some (padAcc v)
  | 0x18 => if immSel v.t = 0 then padParked v else if immSel v.t = 1 then some (padAcc v) else some (.scratch v.x.ctx (padElem v / 1024))
  | _ => none

/-- A stitch adds, multiplies, widens or rounds, so that a residue is checked in it (R73, R74): SUM, SCALE, WIDEN, NARROW, the rounded reads of ACC,
and the widening of GATHER from IN. -/
def residueChecked (v : Env) : Bool :=
  match v.t.op with
  | 0x0A | 0x0B | 0x10 | 0x11 => true
  | 0x03 | 0x09 => immSel v.t == 1
  | 0x18 => immSel v.t == 1 || (immSel v.t == 0 && isMx v.t.fa)
  | _ => false

/-- A stitch is tried, and detectors may fire where it issues (R73-R76): a residue mismatch, where the chunk's CHECK selects it and the stitch has one
to check, and a double-bit error in a scratchpad word it uses are engine faults, and nothing of the stitch is written; a single-bit error is
corrected and counted.  The spec speaks of a double-bit error in an open chunk; one in a scratch area is taken alike (log 82). -/
def attempt (s : State) (v : Env) (u : Option Upset) : State :=
  let run := fun (s : State) => settle s v (stitchDo v.t.op v s)
  match u with
  | none => run s
  | some u => match stitchDo v.t.op v s with
    | .go .. => (match u, padAddr v with
      | .residue, _ => if arithResidue v.b.arith && residueChecked v then engineFault s (v.i / 8) v.x.ctx 2 none else run s
      | .singleBit, some _ => run (padCorrected s (v.i / 8))
      | .doubleBit, some a => engineFault s (v.i / 8) v.x.ctx 3 (some a)
      | _, none => run s)
    | _ => run s

/-- The stitch of an opcode issues from a slot, where its invocation is at such a stitch, is not waiting, and the rule of R112 lets it. -/
def issueOp (s : State) (eng slot op : Nat) (u : Option Upset) : State :=
  let i := 8 * eng + slot
  match envOf s i with
  | none => s
  | some v =>
    if v.t.op ≠ op ∨ v.x.stall ∨ v.x.held ∨ !engRuns s eng ∨ !mayIssue s i ∨ 8 ≤ slot then s
    else attempt s v u

/-- SEAM_STITCH_NOP. -/
def execStitchNop (eng slot : Nat) (s : State) : Result := .next (issueOp s eng slot 0x00 none)
/-- END. -/
def execStitchEnd (eng slot : Nat) (s : State) : Result := .next (issueOp s eng slot 0x01 none)
/-- SETL. -/
def execStitchSetl (eng slot : Nat) (s : State) : Result := .next (issueOp s eng slot 0x02 none)
/-- LOAD. -/
def execStitchLoad (eng slot : Nat) (u : Option Upset) (s : State) : Result := .next (issueOp s eng slot 0x03 u)
/-- STORE. -/
def execStitchStore (eng slot : Nat) (u : Option Upset) (s : State) : Result := .next (issueOp s eng slot 0x04 u)
/-- IOTA. -/
def execStitchIota (eng slot : Nat) (s : State) : Result := .next (issueOp s eng slot 0x05 none)
/-- UNPACK. -/
def execStitchUnpack (eng : Nat) (slot : Watched) (s : State) : Result := .next (issueOp s eng slot.num 0x08 slot.upset)
/-- PACK. -/
def execStitchPack (eng slot : Nat) (u : Option Upset) (s : State) : Result := .next (issueOp s eng slot 0x09 u)
/-- WIDEN. -/
def execStitchWiden (eng : Nat) (slot : Watched) (s : State) : Result := .next (issueOp s eng slot.num 0x0A slot.upset)
/-- NARROW. -/
def execStitchNarrow (eng : Nat) (slot : Watched) (s : State) : Result := .next (issueOp s eng slot.num 0x0B slot.upset)
/-- SUM. -/
def execStitchSum (eng slot : Nat) (u : Option Upset) (s : State) : Result := .next (issueOp s eng slot 0x10 u)
/-- SCALE. -/
def execStitchScale (eng slot : Nat) (u : Option Upset) (s : State) : Result := .next (issueOp s eng slot 0x11 u)
/-- GATHER. -/
def execStitchGather (eng slot : Nat) (u : Option Upset) (s : State) : Result := .next (issueOp s eng slot 0x18 u)
/-- SORT. -/
def execStitchSort (eng slot : Nat) (s : State) : Result := .next (issueOp s eng slot 0x19 none)
/-- TOPK. -/
def execStitchTopk (eng slot : Nat) (s : State) : Result := .next (issueOp s eng slot 0x1A none)
/-- FILTER. -/
def execStitchFilter (eng slot : Nat) (s : State) : Result := .next (issueOp s eng slot 0x1B none)
/-- CHECK. -/
def execStitchCheck (eng slot : Nat) (s : State) : Result := .next (issueOp s eng slot 0x20 none)
/-- EMIT. -/
def execStitchEmit (eng slot : Nat) (s : State) : Result := .next (issueOp s eng slot 0x21 none)
/-- WAIT. -/
def execStitchWait (eng slot : Nat) (s : State) : Result := .next (issueOp s eng slot 0x22 none)
/-- BRANCH. -/
def execStitchBranch (eng slot : Nat) (s : State) : Result := .next (issueOp s eng slot 0x23 none)

/-- STITCH_STALL_RELEASE: what a stalled invocation waits for is looked at again.  Where its sources are ready the stall ends, and the stitch issues
if the rule of R112 lets it now; where it does not, the invocation is one of those that may issue (R81, R106, R112). -/
def execStitchStallRelease (eng : Nat) (slot : Watched) (s : State) : Result :=
  .next <|
    let i := 8 * eng + slot.num
    let s := tryEmits i 64 s
    match envOf s i with
    | none => s
    | some v =>
      if !v.x.stall ∨ !engRuns s eng ∨ 8 ≤ slot.num then s
      else match stitchDo v.t.op v s with
        | .stall s' x => settle s v (.stall s' x)
        | _ =>
          let t := runSet s i (some { v.x with stall := false })
          if mayIssue t i then attempt s v slot.upset else t

/-- ARRIVE_RESUME: an invocation held by R105 goes on once its whole message has come and passed. -/
def execArriveResume (eng slot : Nat) (s : State) : Result :=
  .next <|
    match envOf s (8 * eng + slot) with
    | none => s
    | some v => if !v.x.held ∨ !mayWrite v ∨ 8 ≤ slot then s else runSet s v.i (some { v.x with held := false })

/-! ### Dispatch (R79, R80, R112) -/

/-- The invocation that starts from a candidate: registers and counters cleared (R80). -/
def newInv (num : Nat) (c : Cand) (ctx entry : Nat) : Inv :=
  { num := num, done := c.done, ctx := ctx, bolt := c.bolt, index := c.index, pc := entry, v := [], loops := [], out := emptyStream, bobbin := none,
    bobWait := false, pend := [], plt := 0, resid := [], emits := [], flags := 0, stall := false, held := false }

/-- A queued invocation of a panel is dispatched to a free slot; at the narrowing stage a DONE invocation starts reading its chunk's residuals
(R106, R112, R146). -/
def dispatch (s : State) (eng slot panel : Nat) (done : Bool) : State :=
  let i := 8 * eng + slot
  let l := slotQueue s i
  if (runOf s i).isSome ∨ 8 ≤ slot ∨ !panelMay s eng (l.map (fun c => c.panel)) panel then s
  else match candBest (l.filter (fun c => c.panel == panel)) with
    | none => s
    | some c => match boltGet s c.bolt with
      | none => s
      | some b =>
        if c.done ≠ done then s
        else
          let cfg := (slotPage s i b.gen).cfg
          let (n, s) := nextAge s
          let x := newInv n c b.ctx (if done then bf cfg 15 8 else bf cfg 7 0)
          let b := if done then { b with state := .done, done := true } else { b with msgs := b.msgs.map (fun m => if m.index = c.index then { m with taken := true } else m) }
          let s := runSet (boltSet s c.bolt (some b)) i (some x)
          let e := engGet s eng
          let s := ctrInc (engSet s eng { e with used := tabMod 0 e.used panel (· + 1) }) .SEAM_CNT_INVOKE eng
          let v : Env := ⟨i, x, c.bolt, b, stitchOf 0⟩
          match done, envRegion v s with
          | true, some (col, q) =>
            { s with seam := { s.seam with remq := s.seam.remq ++ (List.range ((b.elems + 255) / 256)).map (remRead v col q) } }
          | _, _ => s

/-- ARRIVE_DISPATCH. -/
def execArriveDispatch (eng slot panel : Nat) (s : State) : Result := .next (dispatch s eng slot panel false)
/-- DONE_DISPATCH. -/
def execDoneDispatch (eng slot panel : Nat) (s : State) : Result := .next (dispatch s eng slot panel true)

/-! ### Remnant accesses (R106, R177, R183, R277) -/

/-- The raw residuals of a read. -/
def residRaw (q : Bool) (bs : List Byte) : List Word := readElems (if q then 4 else 2) (bs.length / (if q then 4 else 2)) bs

/-- Blocks of the Remnant store have been found uncorrectable: they read as +0 from then on, and the epoch aborts with cause ENGINE_FAULT (R277). -/
def remLost (s : State) (b : Bolt) (bad : List Nat) : State :=
  abortEpoch (bad.foldl (fun s k => hbmWrite s (32 * k) (List.replicate 32 0)) s) b.panel b.coll b.epoch 1 false .self

/-- REMNANT_ACCESS_DONE: the oldest access under way completes; one beyond the share of the microsecond that runs waits (R32, R183).  An uncorrectable
block that it reads, or covers in part, aborts the epoch (R277). -/
def execRemnantAccessDone (s : State) : Result :=
  .next <|
    match s.seam.remq with
    | [] => s
    | r :: t =>
      if remWaiting s then s
      else
        let s := { s with seam := { s.seam with remq := t, remUsed := s.seam.remUsed + r.len } }
        match runOf s r.slot with
        | none => s
        | some x =>
          if x.num ≠ r.inv then s
          else if r.write then
            let part := ueInPart s r.addr r.len
            let s := ctrAdd (hbmWrite s r.addr r.data) .MEM_REM_CNT_WR 0 r.len
            (match part, boltGet s x.bolt with
            | some _, some b => remLost s b ((blocks32 r.addr r.len).filter (fun k => s.mem.ue.contains k))
            | _, _ => s)
          else
            let (res, s) := hbmRead (ctrAdd s .MEM_REM_CNT_RD 0 r.len) r.addr r.len
            match boltGet s x.bolt with
            | none => s
            | some b =>
              let fp := match (collFind s b.panel b.coll).bind (fun c => c.span) with
                | some q => q.resFp32
                | none => false
              match res with
              | some bs => runSet s r.slot (some { x with resid := tabSet [] x.resid r.vec (residRaw fp bs) })
              | none =>
                remLost (runSet s r.slot (some { x with resid := tabSet [] x.resid r.vec (List.replicate (r.len / (if fp then 4 else 2)) 0) })) b
                  ((blocks32 r.addr r.len).filter (fun k => s.mem.ue.contains k))

end Sys2Proof.Machine
end

