-- ==== Sys2Proof/Machine/Scp.lean ====
section
/-! DEFINITION. SCP datagrams received (04_collective_protocol, R128-R145): the checks of R129 in their order, CONTRIB, RESULT, NACK, ABORT,
CLOSE and TACK; tacks received on circuits and in control cells (R246, R247, R331). -/

namespace Sys2Proof.Machine

/-! ### NACK causes (R133) -/

/-- VERSION. -/
abbrev nkVersion : Nat := 0x01
/-- UNKNOWN_COLL. -/
abbrev nkUnknown : Nat := 0x02
/-- PANEL. -/
abbrev nkPanel : Nat := 0x03
/-- FMT_MISMATCH. -/
abbrev nkFmt : Nat := 0x04
/-- LEN_MISMATCH. -/
abbrev nkLen : Nat := 0x05
/-- CRC. -/
abbrev nkCrc : Nat := 0x06
/-- CHECK_MISMATCH. -/
abbrev nkCheck : Nat := 0x07
/-- NO_CREDIT. -/
abbrev nkCredit : Nat := 0x08
/-- EPOCH_DONE. -/
abbrev nkDone : Nat := 0x09
/-- EPOCH_ABORTED. -/
abbrev nkAborted : Nat := 0x0A
/-- RANK_UNKNOWN. -/
abbrev nkRank : Nat := 0x0B
/-- RANK_SOURCE. -/
abbrev nkSource : Nat := 0x0C
/-- RANK_REPLACED. -/
abbrev nkReplaced : Nat := 0x0D
/-- COUNT_MISMATCH. -/
abbrev nkCount : Nat := 0x0E
/-- FRAG. -/
abbrev nkFrag : Nat := 0x0F
/-- RESERVED. -/
abbrev nkReserved : Nat := 0x10
/-- DOMAIN_OFF. -/
abbrev nkDomain : Nat := 0x11
/-- MISSING. -/
abbrev nkMissing : Nat := 0x12
/-- PANEL_DOWN. -/
abbrev nkDown : Nat := 0x13

/-! ### Checks 2 to 10 (R129, R130, R136, R150) -/

/-- A message without a payload: NACK, ABORT, CLOSE, TACK. -/
def bare (opc : Nat) : Bool := decide (3 ≤ opc ∧ opc ≤ 6)

/-- AUX is as R122 requires for the opcode. -/
def auxOk (h : ScpHdr) : Bool :=
  let hi := h.aux / pow2 24
  let lo := h.aux % pow2 24
  if h.opc = opcNack then decide (1 ≤ hi ∧ hi ≤ 0x13)
  else if h.opc = opcAbort then decide (1 ≤ hi ∧ hi ≤ 9) && lo == 0
  else if h.opc = opcClose then h.aux == 0
  else decide (1 ≤ hi ∧ hi ≤ 4) && lo == 0

/-- Check 5. -/
def reservedOk (h : ScpHdr) : Bool :=
  decide (1 ≤ h.opc ∧ h.opc ≤ 6) && h.mode != 3 && h.resv && (h.crcEn || h.crc == 0) &&
  (!bare h.opc || (h.nelem == 0 && h.plen == 0 && auxOk h))

/-- Check 9: the epoch is admissible (R136). -/
def epochCheck (c : Coll) (e : Nat) : Option Nat :=
  if c.epochs.any (fun x => x.num == e) then none
  else if c.aborted.any (fun a => a.1 == e) then some nkAborted
  else if e < c.nextEpoch then some nkDone
  else if e = c.nextEpoch ∧ c.epochs.length < 2 ∧ !c.retiring then none
  else some nkCredit

/-- The parent's address and port (R130). -/
def fromParent (c : Coll) (ip port : Nat) : Bool := !isRoot c && ip == c.parentIp && port == c.parentPort

/-- An entry's source (R148). -/
def fromEntry (x : RmapEnt) (ip port : Nat) : Bool := x.ip == ip && (x.port == 0 || x.port == port)

/-- Check 10 against the rank map: the contributor index and stage, or the cause (R129, R150). -/
def rankCheck (s : State) (c : Coll) (e rank ip port : Nat) : Except Nat (Nat × Nat) :=
  let subs := epochSubs c e
  let l := ((List.range c.nrmap).map (fun i => (i, rmapEntry s c i))).filter (fun p =>
    p.2.kind != 3 && p.2.kind != 2 && decide (p.2.stage ≤ 1) && p.2.rank == rank)
  match l.find? (fun p => fromEntry (rmapWith s c subs p.1) ip port) with
  | some p => .ok (p.1, p.2.stage)
  | none =>
    if l.any (fun p => (subs.lookup p.1).isSome && fromEntry p.2 ip port) then .error nkReplaced
    else if l.isEmpty then .error nkRank
    else .error nkSource

/-- The stage a message's RANK and source belong to, under the epoch's map or the original one (R148, R150, R151). -/
def stageFrom (s : State) (c : Coll) (e rank ip port : Nat) : Option Nat :=
  match rankCheck s c e rank ip port with
  | .ok (_, st) => some st
  | .error _ => ((List.range c.nrmap).find? (fun i =>
      let x := rmapEntry s c i
      x.kind != 3 && x.kind != 2 && decide (x.stage ≤ 1) && x.rank == rank && fromEntry x ip port)).map (fun i => (rmapEntry s c i).stage)

/-- The datagram's SCP bytes up to the 256th byte of the frame hold a whole header (R128). -/
def hdrReadable (d : Datagram) : Bool := decide (d.off + 64 ≤ d.frame.length ∧ d.off + 64 ≤ 256 ∧ d.hdrs ≤ 8)

/-- Its header. -/
def dgHdr (d : Datagram) : ScpHdr := scpParse (slice d.frame d.off 64)

/-- Its payload. -/
def dgPayload (d : Datagram) : List Byte := slice d.frame (d.off + 64) (dgHdr d).plen

/-- Checks 2 to 8, for a readable header on panel `p`: the cause and the check that fails.  The UDP checksum's failure has no cause and stands as 0. -/
def headCheck (s : State) (d : Datagram) (p : Nat) : Option (Nat × Nat) :=
  let h := dgHdr d
  if !d.lenOk ∨ d.udpLen ≠ 72 + h.plen then some (2, nkLen)
  else if !d.udpCkOk then some (3, 0)
  else if h.ver ≠ 1 then some (4, nkVersion)
  else if !reservedOk h then some (5, nkReserved)
  else if h.crcEn ∧ (scpCrc (slice d.frame d.off 64) (dgPayload d)).toNat ≠ h.crc then some (6, nkCrc)
  else if h.panel ≠ p then some (7, nkPanel)
  else match (panelGet s p).state with
    | .resetting | .faulted => some (8, nkDown)
    | _ => if (collFind s p h.coll).isNone then some (8, nkUnknown) else none

/-! ### Refusals (R129, R131) -/

/-- The fragments of a message that is not yet whole are discarded, and an invocation that reads them is cancelled (R105, R129).  They are those of the
refused one's rank whose source the rank map records for it, from whichever UDP port where it allows any (R148). -/
def cancelHeld (s : State) (p : Nat) (h : ScpHdr) (ip port : Nat) : State :=
  let mine : Msg → Bool := fun m => !m.whole && m.rank == h.rank &&
    (collFind s p h.coll).any (fun c => fromEntry (rmapWith s c (epochSubs c h.epoch) m.index) ip port)
  (boltsWhere s (fun b => b.ofColl p h.coll && b.epoch == h.epoch && b.chunk == h.chunk && b.stage != 2)).foldl (fun s q =>
    (q.2.msgs.filter mine).foldl (fun s m =>
      let s := s.seam.slots.foldl (fun s e => match e.2.run with
        | some x => if x.bolt == q.1 && !x.done && x.index == m.index then invFree s e.1 else s
        | none => s) s
      boltUnopen (msgDrop s q.1 m.index) q.1) s) s

/-- A NACK leaves for a source, unless one of its cause for its chunk left within 100 µs (R123, R131); those sent are counted by cause (R133, R161).  It carries the credit limit, and the rank
map generation of the stage where the stage is known. -/
def nackSend (s : State) (p : Nat) (h : ScpHdr) (ip port cause aux : Nat) (stage : Option Nat) : State :=
  let near := s.cco.nacks.filter (fun m => decide (s.localUs < m.us + 100))
  let s := { s with cco := { s.cco with nacks := near } }
  if near.any (fun m => m.panel == p && m.ip == ip && m.coll == h.coll && m.chunk == h.chunk && m.cause == cause) then discardCount s p opcContrib
  else
    let s := ccoCount { s with cco := { s.cco with nacks := near ++ [⟨p, ip, h.coll, h.chunk, cause, s.localUs⟩] } } .CCO_CNT_NACK p cause
    let (lim, gen) := match collFind s p h.coll with
      | some c => (creditLimit c h.epoch, match stage with
        | some st => tabGet 0 c.gens st
        | none => 0)
      | none => (0, 0)
    let r : ScpHdr := { scpBlank with
      opc := opcNack, panel := p, crcEn := true, coll := h.coll, epoch := h.epoch, chunk := h.chunk, rank := h.rank, fragOff := h.fragOff,
      layer := h.layer, oper := h.oper, aux := cause * pow2 24 + aux, creditLim := lim, rgen := gen }
    let s := scpSend s p ip port 5 (scpBytes r []) none
    let chalk := chalkWord h.layer h.oper
    traceChunk (filterCount s p chalk 2 1) 0x22 3 p (stage.getD 0) chalk h.coll h.epoch h.chunk (h.rank % pow2 24 * 256 + cause)

/-- The bolt a chunk runs on, or as it would be reserved on the stage's first context. -/
def chunkOr (s : State) (c : Coll) (st e chunk : Nat) : Bolt :=
  match chunkBolt s c.panel c.id st e chunk with
  | some (_, b) => b
  | none => newBolt s c st e chunk (((c.ctx.filter (fun x => x.1 == st)).map Prod.snd).headD 0)

/-- A CONTRIB whose CRC has failed sets CRC_FAIL of its chunk's context, where its header names one (R105, R118). -/
def crcFail (s : State) (p : Nat) (h : ScpHdr) (stage : Option Nat) : State :=
  match collFind s p h.coll, stage with
  | some c, some st => raiseEv s .SEAM_CTX_EVENT (chunkOr s c st h.epoch h.chunk).ctx 3
  | _, _ => s

/-- A refused CONTRIB: what is held of it is discarded, and a NACK is sent and counted by its cause (R129, R131, R133). -/
def refuse (s : State) (d : Datagram) (p check cause : Nat) : State :=
  let h := dgHdr d
  if check = 3 then discardCount (cancelHeld s p h d.srcIp d.srcPort) p opcContrib
  else
    let s := if check ≤ 16 then cancelHeld s p h d.srcIp d.srcPort else s
    let stage := (collFind s p h.coll).bind (fun c => stageFrom s c h.epoch h.rank d.srcIp d.srcPort)
    let s := if check = 6 then crcFail s p h stage else s
    nackSend s p h d.srcIp d.srcPort cause (if cause = nkDomain then 200 else 0) stage

/-- A chunk's uncorrectable rank map block: the collective's open epochs abort (R277). -/
def rmapUe (s : State) (p : Nat) (id : Word) : Bool × State :=
  match collFind s p id with
  | none => (false, s)
  | some c => match ueIn s c.rmapAddr (32 * c.nrmap) with
    | some b => (true, abortAll (recordUe s (32 * b)) p id 1 .self)
    | none => (false, s)

/-- Checks 1 to 8 of any datagram, and the rest by `rest` where they pass; `fail` answers a check that fails, with the check and its cause
(R128, R129).  A frame whose UDP destination port, within the limits, is not CCO_UDP_PORT is no SCP and goes on as ordinary Ethernet. -/
def scpChecks (s : State) (d : Datagram) (takes : Nat → Bool) (fail : State → Nat → Nat → Nat → State) (rest : State → Nat → Coll → State) : State :=
  let p := portPanel s d.port
  if !portCarries s d.port ∨ !domOn s 11 then s
  else if 256 < d.off ∨ 9 < d.hdrs ∨ d.dstPort ≠ scpPort s then forward s d.port (classOf s d.port d.frame) d.frame true
  else if !takes (dgHdr d).opc then s
  else if 256 < d.off + 64 ∨ 8 < d.hdrs then forward (ctrInc s .CCO_CNT_DEEP 0) d.port 0 d.frame true
  else if !hdrReadable d then discardCount s p 0
  else match headCheck s d p with
    | some (k, cause) => fail s p k cause
    | none =>
      match rmapUe s p (dgHdr d).coll with
      | (true, s) => s
      | (false, s) => match collFind s p (dgHdr d).coll with
        | none => s
        | some c => rest s p c

/-- Frames of a port that wait for the Seam array with the given bytes. -/
def scpWaiting (s : State) (p : Nat) (data : List Byte) : Nat :=
  (s.fab.frames.filter (fun f => f.inp == p && f.dests.contains seamDest && f.data == data)).length

/-- A message of state `s` has acted, which gave `t`: what it has not kept of the frame that waited in its VOQ is released (R32, R223; log 19). -/
def scpTaken (s : State) (d : Datagram) (t : State) : State :=
  if scpWaiting s d.port d.frame = 0 ∨ scpWaiting t d.port d.frame ≠ scpWaiting s d.port d.frame then t else scpDone t d.port d.frame

/-- A datagram is taken from its VOQ, and acts by the checks it passes. -/
def scpReceive (s : State) (d : Datagram) (takes : Nat → Bool) (fail : State → Nat → Nat → Nat → State) (rest : State → Nat → Coll → State) : State :=
  scpTaken s d (scpChecks s d takes fail rest)

/-! ### CONTRIB (R125, R126, R129) -/

/-- The part of a message held at a bolt that a fragment continues. -/
def heldMsg (b : Bolt) (i : Nat) : Option Msg := b.msgs.find? (fun m => m.index == i)

/-- Check 11: NCONTRIB, and CHUNK_ELEMS (R126); the last chunk's count is the one its first CONTRIB without IDX gave. -/
def countOk (s : State) (c : Coll) (st : Nat) (b : Bolt) (h : ScpHdr) : Bool :=
  h.ncontrib == stageNeed s c st &&
  (if h.idx then decide (h.elems ≤ 4096)
   else if b.fixed then h.elems == b.elems
   else chunkCount c h.chunk h.elems)

/-- The payload is the size its format and count call for, MX in whole blocks, XP well formed (R35, R59, R126). -/
def payloadOk (h : ScpHdr) (bs : List Byte) : Bool :=
  h.plen == valueBytes h.fmt h.nelem + (if h.idx then 4 * h.nelem else 0) &&
  (!isMx h.fmt || (h.fragOff % 32 == 0 && h.nelem % 32 == 0 && h.elems % 32 == 0)) && (!isXp h.fmt || xpOk h.fmt h.nelem bs)

/-- Check 13: the stage and the chunk take the format and mode, the payload has its size, and the fragment agrees with those held (R35, R42, R43,
R59, R125, R126, R164). -/
def fmtOk (s : State) (c : Coll) (st : Nat) (b : Bolt) (h : ScpHdr) (bs : List Byte) (m : Option Msg) : Bool :=
  stageTakes c st h.fmt && chunkTakes s b h.mode h.fmt false && payloadOk h bs &&
  (match m with
    | some m => m.whole || (sameFmt m.fmt h.fmt && m.elems == h.elems && m.hasIdx == h.idx && m.standin == h.standin)
    | none => true)

/-- Check 14: within CHUNK_ELEMS, and overlapping nothing held of a message not yet whole. -/
def fragOk (h : ScpHdr) (m : Option Msg) : Bool :=
  (if h.nelem = 0 then h.elems == 0 && h.fragOff == 0 else decide (h.fragOff + h.nelem ≤ h.elems)) &&
  (match m with
    | some m => m.whole || m.frags.all (fun f => decide (f.off + f.n ≤ h.fragOff ∨ h.fragOff + h.nelem ≤ f.off))
    | none => true)

/-- Checks 11 to 14 of a CONTRIB: the check and cause of the first that fails. -/
def bodyCheck (s : State) (c : Coll) (st i : Nat) (h : ScpHdr) (bs : List Byte) : Option (Nat × Nat) :=
  let b := chunkOr s c st h.epoch h.chunk
  let m := heldMsg b i
  if !countOk s c st b h then some (11, nkCount)
  else if !h.crcEn && arithCrc (boltArith s b) then some (12, nkCheck)
  else if !fmtOk s c st b h bs m then some (13, nkFmt)
  else if !fragOk h m then some (14, nkFrag)
  else none

/-- Check 16: the bolt's engine is powered and not being powered down; a bolt only reserved moves to another context first (R129, R441). -/
def domainCheck (s : State) (k : Nat) : Option Nat × State :=
  match boltGet s k with
  | none => (none, s)
  | some b =>
    let up := domReady s (engDom (b.ctx / 16))
    if b.state ≠ .reserved then (if up then none else some nkDomain, s)
    else if boltReady s b then (none, s)
    else
      let s := rehome s k
      match boltGet s k with
      | some b' => (if b'.ctx = b.ctx then some (if up then nkCredit else nkDomain) else none, s)
      | none => (none, s)

/-- What a fragment's frame holds: its bobbin, its cells and what they are charged to, as it waited in its VOQ; a datagram whose frame did not wait there
is bound now (R223, R255, R257, R260; log 19). -/
def fragFrame (s : State) (d : Datagram) : List Word × Nat × List (Nat × Nat) × State :=
  match scpTake s d.port d.frame with
  | (some f, s) => (f.handle.toList, f.cells, [(pc f.inp f.cls, f.cells)], s)
  | (none, s) =>
    let (h, s) := bobTake s (frameSpool d.frame.length) (5 ≤ classOf s d.port d.frame)
    (h.toList, cellsOf d.frame.length, [], cellsTake s (cellsOf d.frame.length))

/-- A fragment is accepted: it joins its message with its frame's bobbin and cells; the last one makes the message whole (R125, R255, R257). -/
def fragJoin (s : State) (k i : Nat) (d : Datagram) : State :=
  let h := dgHdr d
  let f : Frag := ⟨h.fragOff, h.nelem, h.fmt, dgPayload d⟩
  let (hs, n, charge, s) := fragFrame s d
  match boltGet s k with
  | none => s
  | some b =>
    let (s, m) := match heldMsg b i with
      | some m => (s, m)
      | none =>
        let (a, s) := nextAge s
        (s, { localMsg i h.fmt h.elems h.idx h.arith [] ⟨h.fmt, [], [], [], []⟩ with
              rank := h.rank, ip := d.srcIp, port := d.srcPort, standin := h.standin, whole := false, parked := parks b i, age := a })
    let fs := m.frags ++ [f]
    let whole := fragsComplete fs h.elems
    let m := { m with frags := fs, flags := m.flags ||| h.arith, handles := m.handles ++ hs, cells := m.cells + n, charges := m.charges ++ charge,
                      whole := whole, data := if whole then readMsg fs h.idx else m.data, us := s.localUs }
    let s := boltSet s k (some { b with msgs := b.msgs.filter (fun x => x.index != i) ++ [m] })
    if whole then msgArrived s k i else s

/-- A message is discarded as a duplicate and counted once, with its first fragment (R21, R125). -/
def dupCount (s : State) (p : Nat) (h : ScpHdr) : State := if h.fragOff = 0 then ccoCount s .CCO_CNT_DUP p 0 else s

/-- Checks 15 to 17 of a CONTRIB that has passed 1 to 14, and its acceptance (R129, R135, R142, R146). -/
def contribTake (s : State) (d : Datagram) (p : Nat) (c : Coll) (st i : Nat) : State :=
  let h := dgHdr d
  if creditLimit c h.epoch ≤ h.chunk then refuse s d p 15 nkCredit
  else
    let late := match epochFind c h.epoch with
      | some x => x.ended.contains (st, h.chunk)
      | none => false
    match chunkBolt s p c.id st h.epoch h.chunk with
    | none => if late then dupCount s p h else refuse s d p 15 nkCredit
    | some (k, _) =>
      match domainCheck s k with
      | (some cause, s) => refuse s d p 16 cause
      | (none, s) => match boltGet s k with
        | none => s
        | some b =>
          let whole := match heldMsg b i with
            | some m => m.whole
            | none => false
          if b.counted.contains i || whole || b.state == .done || b.state == .aborting then dupCount s p h
          else
            let s := openEpoch s p c.id h.epoch false
            fragJoin (boltOpen (boltFix s k h.elems h.idx) k h.mode h.fmt (chalkWord h.layer h.oper)) k i d

/-- CONTRIB: checks 9 to 17 (R129, R130).  A refusal for format sets FMT_REFUSED of the chunk's context (R42, R111). -/
def contribRest (d : Datagram) (s : State) (p : Nat) (c : Coll) : State :=
  let h := dgHdr d
  match epochCheck c h.epoch with
  | some cause => refuse s d p 9 cause
  | none => match rankCheck s c h.epoch h.rank d.srcIp d.srcPort with
    | .error cause => refuse s d p 10 cause
    | .ok (i, st) => match bodyCheck s c st i h (dgPayload d) with
      | some (k, cause) =>
        let s := if k = 13 then raiseEv s .SEAM_CTX_EVENT (chunkOr s c st h.epoch h.chunk).ctx 4 else s
        refuse s d p k cause
      | none => contribTake s d p c st i

/-- CONTRIB.  A datagram of a reserved opcode is refused by this row as well (R122, R129). -/
def execContrib (d : Datagram) (s : State) : Result :=
  .next <| scpReceive s d (fun o => o == opcContrib || o == 0 || decide (7 ≤ o)) (fun s p k cause => refuse s d p k cause) (contribRest d)

/-! ### RESULT (R130) -/

/-- A RESULT refused: counted; at checks 2 to 6 and 10 to 14 its epoch aborts with DELIVERY_FAIL where it is open (R130). -/
def resultFail (d : Datagram) (s : State) (p k : Nat) : State :=
  let h := dgHdr d
  let s := discardCount s p opcResult
  if 7 ≤ k ∧ k ≤ 9 then s
  else match collFind s p h.coll with
    | none => s
    | some c => if (epochFind c h.epoch).isSome then abortEpoch s p h.coll h.epoch 4 false .self else s

/-- The rank map generation that a message of the parent carries: this gateway's messages to it carry it as well (R121, R151). -/
def parentGen (s : State) (p : Nat) (id : Word) (gen : Nat) : State := collMod s p id (fun c => { c with parentGen := gen })

/-- The parent's credit limit in a message from it: it never moves backward (R143, R144, R247). -/
def parentRaise (s : State) (p : Nat) (id : Word) (e lim : Nat) : State :=
  let s := collMod s p id (fun c => { c with parentCredit := match c.parentCredit with
    | none => some (e, lim)
    | some (ce, l) => if ce < e then some (e, lim) else if ce = e then some (e, max l lim) else some (ce, l) })
  upFlush s p id

/-- CHUNK_ELEMS of a RESULT: what fragments held of it say; in the bucket's last chunk the count that this gateway's own CONTRIB has (R126, R130). -/
def resultCount (c : Coll) (h : ScpHdr) : Bool :=
  (c.results.filter (fun r => r.epoch == h.epoch && r.chunk == h.chunk)).all (fun r => r.elems == h.elems) &&
  (if h.idx then decide (h.elems ≤ 4096)
   else chunkCount c h.chunk h.elems &&
    (c.up.filter (fun m => m.epoch == h.epoch && m.chunk == h.chunk && !m.hasIdx)).all (fun m => m.elems == h.elems))

/-- Checks 9 to 14 of a RESULT (R130). -/
def resultCheck (s : State) (d : Datagram) (c : Coll) (held : List Frag) : Option (Nat × Nat) :=
  let h := dgHdr d
  let crc := match c.ctx.head? with
    | some x => arithCrc (nextSetting s .SEAM_CTX_ARITH x.2)
    | none => false
  if !fromParent c d.srcIp d.srcPort then some (10, nkSource)
  else if h.rank ≠ rankNone then some (10, nkRank)
  else if h.ncontrib ≠ 0 ∨ !resultCount c h then some (11, nkCount)
  else if !h.crcEn && crc then some (12, nkCheck)
  else if 9 < h.fmt ∨ !payloadOk h (dgPayload d) then some (13, nkFmt)
  else if held.any (fun f => f.off == h.fragOff && f.n == h.nelem) then none
  else if !(if h.nelem = 0 then h.elems == 0 && h.fragOff == 0 else decide (h.fragOff + h.nelem ≤ h.elems)) ∨
    held.any (fun f => decide (f.off < h.fragOff + h.nelem ∧ h.fragOff < f.off + f.n)) then some (14, nkFrag)
  else none

/-- RESULT: checks 9 to 17; the whole result goes to delivery (R130, R158). -/
def resultRest (d : Datagram) (s : State) (p : Nat) (c : Coll) : State :=
  let h := dgHdr d
  match epochFind c h.epoch with
  | none => discardCount s p opcResult
  | some x =>
    let held := match c.results.find? (fun r => r.epoch == h.epoch && r.chunk == h.chunk) with
      | some r => r.frags
      | none => []
    match resultCheck s d c held with
    | some (k, _) => resultFail d s p k
    | none =>
      let s := parentGen (parentRaise s p c.id h.epoch h.creditLim) p c.id h.rgen
      if x.done.contains h.chunk || held.any (fun f => f.off == h.fragOff && f.n == h.nelem) then discardCount s p opcResult
      else
        let fs := held ++ [⟨h.fragOff, h.nelem, h.fmt, dgPayload d⟩]
        let chalk := chalkWord h.layer h.oper
        let whole := fragsComplete fs h.elems
        let rest := fun (c : Coll) => c.results.filter (fun r => !(r.epoch == h.epoch && r.chunk == h.chunk))
        let s := collMod s p c.id (fun c => { c with results := if whole then rest c else rest c ++ [⟨h.epoch, h.chunk, h.elems, h.arith, chalk, fs⟩] })
        if whole then deliver s p c.id h.epoch h.chunk h.elems h.idx h.crcEn h.arith chalk fs else s

/-- RESULT. -/
def execResult (d : Datagram) (s : State) : Result :=
  .next <| scpReceive s d (· == opcResult) (fun s p k _ => resultFail d s p k) (resultRest d)

/-! ### NACK, ABORT, CLOSE, TACK -/

/-- A message without a payload that fails a check is discarded and counted, against the panel of its port (R30, R130). -/
def bareFail (d : Datagram) (s : State) : State := discardCount s (portPanel s d.port) (dgHdr d).opc

/-- Checks 9 and 10 of such a message; `act` takes whether it comes from the parent, and else its contributor index and stage (R130).  A NACK's RANK
is the one it copies (R131). -/
def bareRest (d : Datagram) (act : Coll → Option (Nat × Nat) → State → State) (s : State) (p : Nat) (c : Coll) : State :=
  let h := dgHdr d
  match epochCheck c h.epoch with
  | some _ => bareFail d s
  | none =>
    if fromParent c d.srcIp d.srcPort then
      (if h.rank = rankNone ∨ (h.opc = opcNack ∧ h.rank = c.upRank) then act c none (parentGen (parentRaise s p c.id h.epoch h.creditLim) p c.id h.rgen)
       else bareFail d s)
    else match rankCheck s c h.epoch h.rank d.srcIp d.srcPort with
      | .error _ => bareFail d s
      | .ok w => act c (some w) s

/-- The CONTRIB of a chunk is to be sent again, at the earliest `wait` µs from now (R132, R133). -/
def upAgain (s : State) (p : Nat) (id : Word) (e chunk wait : Nat) (crc : Bool) : State :=
  let s := collMod s p id (fun c => { c with up := c.up.map (fun m =>
    if m.epoch = e ∧ m.chunk = chunk then { m with again := true, dueUs := s.localUs + wait, crc := m.crc || crc } else m) })
  upFlush s p id

/-- The action a NACK's cause calls for at a child gateway (R133): VERSION stops all that it sends to that gateway, PANEL_DOWN waits for a RESUME, which
then acts anew. -/
def nackAct (s : State) (p : Nat) (id : Word) (h : ScpHdr) (sender : Sender) : State :=
  let cause := h.aux / pow2 24
  let halt := collMod s p id (fun c => { c with stopped := true })
  let haltEpoch := collMod s p id (fun c => { c with stoppedEpochs := c.stoppedEpochs ++ [h.epoch] })
  match cause with
  | 0x01 => (match sender with
    | .addr ip _ => { s with cco := { s.cco with halted := if s.cco.halted.contains ip then s.cco.halted else s.cco.halted ++ [ip] } }
    | _ => s)
  | 0x02 | 0x03 | 0x0B | 0x0C | 0x0D | 0x10 => halt
  | 0x04 | 0x0E => haltEpoch
  | 0x05 | 0x06 | 0x08 | 0x0F | 0x12 => upAgain s p id h.epoch h.chunk 0 false
  | 0x07 => upAgain s p id h.epoch h.chunk 0 true
  | 0x09 => collMod s p id (fun c => { c with up := c.up.filter (fun m => !(m.epoch == h.epoch && m.chunk == h.chunk)) })
  | 0x0A => abortEpoch s p id h.epoch 7 false sender
  | 0x11 => upAgain s p id h.epoch h.chunk (h.aux % pow2 24) false
  | 0x13 => collMod s p id (fun c => { c with paused := true, resumed := [] })
  | _ => s

/-- NACK: acted on where it comes from the parent (R132). -/
def execNackMsg (d : Datagram) (s : State) : Result :=
  .next <| scpReceive s d (· == opcNack) (fun s _ _ _ => bareFail d s) (fun s p c =>
    bareRest d (fun c w s => if w.isNone then nackAct s p c.id (dgHdr d) (.addr d.srcIp d.srcPort) else s) s p c)

/-- ABORT: every open epoch from its own on aborts with its cause, passed on except toward the sender (R138). -/
def execAbortMsg (d : Datagram) (s : State) : Result :=
  .next <| scpReceive s d (· == opcAbort) (fun s _ _ _ => bareFail d s) (fun s p c =>
    bareRest d (fun c _ s => abortEpoch s p c.id (dgHdr d).epoch ((dgHdr d).aux / pow2 24) (dgHdr d).hold (.addr d.srcIp d.srcPort)) s p c)

/-- The parent has closed an epoch: it closes here once nothing of it is under way (R137; log 44). -/
def closeFrom (s : State) (p : Nat) (id : Word) (e : Nat) : State :=
  tryClose (epochMod s p id e (fun x => { x with closeRecv := true })) p id e

/-- CLOSE, from the parent. -/
def execCloseMsg (d : Datagram) (s : State) : Result :=
  .next <| scpReceive s d (· == opcClose) (fun s _ _ _ => bareFail d s) (fun s p c =>
    bareRest d (fun c w s => if w.isNone then closeFrom s p c.id (dgHdr d).epoch else s) s p c)

/-- A TACK of one type. -/
def tackReceive (d : Datagram) (typ : Nat) (act : Coll → Option (Nat × Nat) → State → State) (s : State) : State :=
  if (dgHdr d).opc = opcTack ∧ (dgHdr d).aux / pow2 24 ≠ typ ∧ reservedOk (dgHdr d) then s
  else scpReceive s d (· == opcTack) (fun s _ _ _ => bareFail d s) (fun s p c => bareRest d act s p c)

/-- CREDIT from the parent: its limit has been raised with the header's CREDIT_LIM (R143, R144). -/
def execCreditMsg (d : Datagram) (s : State) : Result := .next <| tackReceive d 1 (fun _ _ s => s) s

/-- One rank's BARRIER: the first opens the barrier's epoch (R141). -/
def barrierFrom (s : State) (p : Nat) (id : Word) (e st i : Nat) : State :=
  let s := openEpoch s p id e true
  match collFind s p id with
  | none => s
  | some c => match epochFind c e with
    | none => s
    | some x => if x.barrier then barrierArrive p id e 4 s st i else s

/-- BARRIER, from a rank. -/
def execBarrierMsg (d : Datagram) (s : State) : Result :=
  .next <| tackReceive d 2 (fun c w s => match w with
    | some (i, st) => barrierFrom s c.panel c.id (dgHdr d).epoch st i
    | none => s) s

/-- RELEASE, from the parent (R141). -/
def execReleaseMsg (d : Datagram) (s : State) : Result :=
  .next <| tackReceive d 3 (fun c w s => if w.isNone then releaseBarrier s c.panel c.id (dgHdr d).epoch else s) s

/-- The BARRIERs of open barriers at which every rank of this gateway's last stage has arrived go to the parent again (R133, R141). -/
def barriersAgain (s : State) (c : Coll) : State :=
  let last := if hasStage c 1 then 1 else 0
  if isRoot c then s
  else (c.epochs.filter (fun x => x.barrier && !x.released && stageArrived s c x last)).foldl (fun s x => tackParent s c 2 x.num) s

/-- RESUME: the held collective sends again, and the tack is passed down (R139); for each epoch it acts once (R247). -/
def resumeFrom (s : State) (p : Nat) (id : Word) (e : Nat) : State :=
  match collFind s p id with
  | none => s
  | some c =>
    if c.resumed.contains e then s
    else
      let s := upFlush (collMod s p id (fun c => { c with paused := false, resumed := c.resumed ++ [e] })) p id
      match collFind s p id with
      | none => s
      | some c' => tackResume (if c.paused then barriersAgain s c' else s) c' e

/-- RESUME, from the parent. -/
def execResumeMsg (d : Datagram) (s : State) : Result :=
  .next <| tackReceive d 4 (fun c w s => if w.isNone then resumeFrom s c.panel c.id (dgHdr d).epoch else s) s

/-! ### Tacks on circuits and control cells (R173, R179, R246, R247, R331) -/

/-- Check 5 of a tack word: SYNC apart, a type that is not reserved, reserved bits zero, a valid cause where there is one. -/
def tackOk (t : Tack) : Bool :=
  decide (1 ≤ t.typ.toNat ∧ t.typ.toNat ≤ 6) && t.flagsResv == 0 && t.resv == 0 &&
  (if t.typ = 5 then decide (1 ≤ t.cause.toNat ∧ t.cause.toNat ≤ 9) else t.cause == 0 && !t.hold) && (t.typ == 1 || t.aux == 0)

/-- Checks 5, 8 and 9 of a tack that has passed its CRC (R246): its collective, or the cause of the first that fails.  A CLOSE between site
roots is answered whatever its epoch has come to (R179), so `site` lifts check 9 from it. -/
def tackColl (s : State) (t : Tack) (site : Bool) : Except Nat Coll :=
  if !tackOk t then .error nkReserved
  else match (panelGet s t.panel.toNat).state with
  | .resetting | .faulted => .error nkDown
  | _ => match collFind s t.panel.toNat t.coll with
    | none => .error nkUnknown
    | some c =>
      if site && t.typ == 6 then .ok c
      else match epochCheck c t.epoch.toNat with
      | some cause => .error cause
      | none => .ok c

/-- The address at the far end of a receiver's lane: that of the ORIG circuit on the same lane (R242, R247; log 45). -/
def rxPeer (s : State) (rx : Nat) : Option Nat :=
  ((List.range 32).find? (fun n => circEn s n && circOrig s n && regBf s .BAST_CIRC_CFG n 8 0 == regBf s .BAST_RX_CFG rx 8 0)).map (circPeer s)

/-- What a tack from a gateway of the same site does: as the same message in-band does (R247). -/
def tackAct (s : State) (c : Coll) (t : Tack) (peer : Option Nat) : State :=
  let e := t.epoch.toNat
  match t.typ.toNat with
  | 1 => parentRaise s c.panel c.id e t.aux.toNat
  | 2 =>
    let l := (contributors s c 1 e).filter (fun x => x.2.kind == 1 && some x.2.ip == peer)
    (match l with
    | x :: _ => barrierFrom s c.panel c.id e 1 x.1
    | [] => s)
  | 3 => releaseBarrier s c.panel c.id e
  | 4 => resumeFrom s c.panel c.id e
  | 5 => abortEpoch s c.panel c.id e t.cause.toNat t.hold (match peer with
    | some ip => .addr ip 0
    | none => .self)
  | 6 => closeFrom s c.panel c.id e
  | _ => s

/-- The SRC and SEQ acted on, with one more: a SEQ is kept while it lies within 2^14 of the one acted on last, as SEQ counts modulo 2^16 and comes round
(R246, R331; log 84). -/
def actedNote (l : List (Nat × Nat)) (src seq : Nat) : List (Nat × Nat) :=
  l.filter (fun a => a.1 != src || decide ((seq + 65536 - a.2) % 65536 < 16384 ∨ (a.2 + 65536 - seq) % 65536 < 16384)) ++ [(src, seq)]

/-- TACK_WORD_RECEIVE: a word on an aligned receiver (R246). -/
def execTackWordReceive (rx : Nat) (word : BitVec 256) (s : State) : Result :=
  .next <|
    let x := tackRx s rx
    let t := tackParse word
    if 32 ≤ rx ∨ !x.aligned ∨ !rxEn s rx ∨ !domOn s 12 then s
    else if tackCrc word ≠ t.crc then ctrInc s .BAST_CNT_RX_CRC rx
    else if t.typ = 0 ∨ x.acted.contains (t.src.toNat, t.seq.toNat) then s
    else
      let s := tackRxSet s rx { x with acted := actedNote x.acted t.src.toNat t.seq.toNat }
      match tackColl s t false with
      | .error _ => raiseEv (discardCount s (t.panel.toNat) opcTack) .BAST_EVENT 0 1
      | .ok c => tackAct (ctrInc s .BAST_CNT_RX rx) c t (rxPeer s rx)

/-- A CLOSE tack from site `j`: held, answered where the epoch is committed or aborted, or the last one that lets this site commit (R179). -/
def closeTack (s : State) (p : Nat) (id : Word) (j e : Nat) : State :=
  match collFind s p id with
  | none => s
  | some c => match c.span with
    | none => s
    | some q =>
      if !(peerSites q).contains j then s
      else if (epochFind c e).isSome then
        tryClose (epochMod s p id e (fun x => { x with closes := if x.closes.contains j then x.closes else x.closes ++ [j] })) p id e
      else match c.aborted.lookup e with
        | some cause => tackSite s c q j tackAbort cause (c.holdOnMiss && cause == 3) e
        | none => if e < c.nextEpoch then tackSite s c q j tackClose 0 false e else s

/-- What a tack from site `j` does: BARRIER, ABORT or CLOSE (R141, R173). -/
def siteTack (s : State) (c : Coll) (t : Tack) (j : Nat) : State :=
  let e := t.epoch.toNat
  match t.typ.toNat with
  | 2 => barrierFrom s c.panel c.id e 2 j
  | 5 => abortEpoch s c.panel c.id e t.cause.toNat t.hold (.site j)
  | 6 => closeTack s c.panel c.id j e
  | _ => s

/-- The site of a span whose session rides on a line group. -/
def groupSite (s : State) (c : Coll) (g : Nat) : Option Nat :=
  match c.span with
  | some q => (peerSites q).find? (fun j => regBf s .SELV_SESS_CFG (q.sessBase + j) 21 16 == g)
  | none => none

/-- CONTROL_CELL_RECEIVE: a control cell of type `typ` on WORK or PROT; the first copy of a SRC and SEQ is acted on; one on a member
with a defect is lost (R330, R331, R334). -/
def execControlCellReceive (ch typ : Nat) (word : BitVec 256) (s : State) : Result :=
  .next <|
    let g := chGroup s ch
    let x := lineGrp s g
    let t := tackParse word
    if 64 ≤ ch ∨ !chEn s ch ∨ !(workCh s g == ch || (protEn s g && protCh s g == ch)) ∨ typ ≠ 1 ∨ t.typ = 0 ∨ (lineCh s ch).defects ≠ 0 then s
    else if tackCrc word ≠ t.crc ∨ x.acted.contains (t.src.toNat, t.seq.toNat) then s
    else
      let s := lineGrpSet s g { x with acted := actedNote x.acted t.src.toNat t.seq.toNat }
      match tackColl s t true with
      | .error _ => discardCount s t.panel.toNat opcTack
      | .ok c => match groupSite s c g with
        | none => s
        | some j => siteTack s c t j

end Sys2Proof.Machine
end

