-- ==== Sys2Proof/Machine/CcoCmd.lean ====
section
/-! DEFINITION. The Coordinator's commands (R134, R150-R152, R161-R163, R169, R181, R182), its missing-contribution timer (R145), CLOSE tacks
(R179). -/

namespace Sys2Proof.Machine

/-! ### Command windows (R161, R162) -/

/-- A command window. -/
def cmdGet (s : State) (view : Nat) : CcoCmd := tabGet ⟨false, none, 0, 0⟩ s.cco.cmds view
/-- Sets it. -/
def cmdSet (s : State) (view : Nat) (x : CcoCmd) : State := { s with cco := { s.cco with cmds := tabSet ⟨false, none, 0, 0⟩ s.cco.cmds view x } }

/-- The address a command's descriptor stands at. -/
def cmdAddr (s : State) (view : Nat) : Nat := (regGet s .CCO_CMD_ADDR_LO view).toNat + (regGet s .CCO_CMD_ADDR_HI view).toNat * pow2 32

/-- Reads what a command names: outside the issuing panel's quota it is refused with 0x02 (R182, R269), uncorrectable with 0x01 (R277). -/
def cmdRead (s : State) (view a n : Nat) : Except Byte (List Byte) × State :=
  if !inQuota s view a n then (.error 2, s)
  else match hbmRead s a n with
    | (some l, s) => (.ok l, s)
    | (none, s) => (.error 1, s)

/-- Zeroes a range of HBM. -/
def hbmZero (s : State) (a n : Nat) : State :=
  let s := countBytes .MEM_CNT_WR_BYTES (n / 256 + 2) s a n
  { s with mem := { s.mem with cells := tabDrop s.mem.cells (fun k => decide (a ≤ k ∧ k < a + n)),
                               ue := s.mem.ue.filter (fun b => !decide (a ≤ 32 * b ∧ 32 * b + 32 ≤ a + n)) } }

/-! ### OPEN (R134, R156, R163, R169, R181, R182) -/

/-- The descriptor's fields (R134); PANEL is the panel it is opened for. -/
def collOf (panel : Nat) (b : List Byte) : Coll :=
  let ent := fun (i : Nat) => leField b (76 + 2 * i) 2
  let first := leField b 4 6
  { panel := panel, id := leWord b 0, firstEpoch := first, chunkElems := leField b 10 2, bucketChunks := leField b 12 4, role := leField b 16 1,
    cw := leField b 17 1, tc := leField b 18 1, holdOnMiss := leField b 19 1 % 2 == 1, parentIp := beNat (slice b 20 16), parentPort := leField b 36 2,
    upRank := leField b 38 3, rmapAddr := leField b 48 8, nrmap := leField b 56 2, drecAddr := leField b 64 8, ndrec := leField b 72 2,
    ctx := ((List.range 16).filter (fun i => ent i / pow2 14 != 3)).map (fun i => (ent i / pow2 14, ent i / 256 % 32 * 16 + ent i % 16)),
    span := if leField b 16 1 / 4 % 2 = 0 then none else some
      { sessBase := leField b 108 2, nsites := leField b 110 1, siteIdx := leField b 111 1, fmt := leField b 112 1 % 16,
        resFp32 := leField b 112 1 / 16 % 2 == 1, banks := leField b 112 1 / 32 % 4, spw := leField b 113 1, remClear := leField b 114 1 % 2 == 1,
        remAddr := leField b 116 8 },
    subs := [], gens := [], epochs := [], nextEpoch := first, aborted := [], credit := (first, 0), parentCredit := none, parentGen := 0,
    resumed := [], up := [], results := [],
    retiring := false, stopped := false, paused := false, stoppedEpochs := [], ledgers := [], bank := 0, lastEpoch := 0 }

/-- The stages a ROLE runs (R163). -/
def roleStages (role : Nat) : List Nat :=
  if role % 8 = 1 then [0] else if role % 8 = 2 then [1] else if role % 8 = 3 then [0, 1]
  else if 4 ≤ role % 8 then (if role % 2 = 1 then [0, 1, 2] else [1, 2])
  else []

/-- A descriptor is well formed: ranges, reserved bits zero, the stages of its ROLE, and contexts bound to the panel (R134, R163; log 47). -/
def collOk (s : State) (c : Coll) (b : List Byte) : Bool :=
  let zero := fun (o n : Nat) => leField b o n == 0
  decide (1 ≤ c.chunkElems ∧ c.chunkElems ≤ 4096 ∧ 1 ≤ c.bucketChunks ∧ c.bucketChunks ≤ 1048576) &&
  decide (1 ≤ c.cw ∧ c.cw ≤ 128 ∧ 1 ≤ c.tc ∧ c.tc ≤ 3 ∧ 1 ≤ c.nrmap ∧ c.nrmap ≤ 1088 ∧ c.ndrec ≤ 65 ∧ c.role < 8) &&
  decide (leField b 19 1 < 2) && zero 41 7 && zero 58 6 && zero 74 2 &&
  (List.range 16).all (fun i => let e := leField b (76 + 2 * i) 2; e / pow2 14 == 3 || (e / pow2 13 % 2 == 0 && e / 16 % 16 == 0)) &&
  roleStages c.role != [] && (roleStages c.role).all (hasStage c) && c.ctx.all (fun x => (roleStages c.role).contains x.1) &&
  c.ctx.all (fun x => ctxPanel s x.2 == some c.panel)

/-- The span fields are accepted (R169). -/
def spanOk (s : State) (c : Coll) (b : List Byte) : Bool :=
  match c.span with
  | none => (slice b 108 20).all (· == 0)
  | some q =>
    decide (q.sessBase < 4096 ∧ 2 ≤ q.nsites ∧ q.nsites ≤ 16 ∧ q.siteIdx < q.nsites ∧ 2 ≤ q.banks ∧ q.spw < 16) &&
    (decide (q.fmt ≤ 6) || q.fmt == 10) && leField b 112 1 / 128 == 0 && decide (leField b 114 1 < 2) && leField b 115 1 == 0 && leField b 124 4 == 0 &&
    (if q.fmt = 0 ∨ q.fmt = 6 then q.remAddr == 0 else q.remAddr % 4096 == 0) &&
    (peerSites q).all (fun j => sessPanel s (q.sessBase + j) == some c.panel)

/-- The rank map as a whole: no reserved stage, GROUP and reserved bits as R148 has them, at most 1,024 contributors of a stage (R134). -/
def rmapOk (s : State) (c : Coll) : Bool :=
  (List.range c.nrmap).all (fun i =>
    let b := hbmBytes s (c.rmapAddr + 32 * i) 32
    decide ((rmapEntry s c i).stage ≤ 2) && leField b 3 1 / 4 % 16 == 0 && leField b 22 1 / 64 == 0 && leField b 23 1 == 0 && leField b 26 6 == 0) &&
  (List.range 3).all (fun st => decide (stageNeed s c st ≤ 1024))

/-- The size of a result's element as OPEN takes it: at a site root that of its Level 3 context's OUT_FMT; elsewhere the result's format is the
parent's, and its size, 1, 2 or 4 B, is a free value (R156; log 48). -/
def openElemBytes (s : State) (c : Coll) : Nat :=
  match c.ctx.find? (fun x => x.1 == 2) with
  | some x => max 1 (resultElemBytes (arithOut (nextSetting s .SEAM_CTX_ARITH x.2)))
  | none => pow2 (Config.resultSize c.id % 3)

/-- A delivery record is accepted (R156). -/
def drecOk (s : State) (c : Coll) (b : List Byte) : Bool :=
  decide (3 ≤ leField b 19 1 ∧ leField b 19 1 ≤ 5 ∧ 1 ≤ leField b 23 1 ∧ leField b 23 1 ≤ 31) && leField b 51 1 / 64 == 0 && leField b 52 12 == 0 &&
  decide (c.bucketChunks * c.chunkElems * openElemBytes s c ≤ leField b 36 8)

/-- A queue pair of delivery record `i`, whose bytes are `b`; SPORT 0 lets the gateway choose, and the choice is free (R156). -/
def qpNew (s : State) (c : Coll) (i : Nat) (b : List Byte) : Qp × State :=
  let (f, s) := freeBelow s 65536
  let sp := leField b 44 2
  ({ panel := c.panel, coll := c.id, drec := i, ip := beNat (slice b 0 16), remote := leField b 16 3, pmtu := leField b 19 1, rkey := leWord b 24,
     va := leField b 28 8, sport := if sp = 0 then f else sp, pkey := leField b 46 2, retryMax := leField b 51 1 % 8, rnrMax := leField b 51 1 / 8 % 8,
     ackTo := leField b 23 1 % 32, psn := leField b 20 3, err := false, writes := [] }, s)

/-- Queue pairs of a panel. -/
def panelQps (s : State) (p : Nat) : Nat := ((qps s).filter (fun e => e.2.panel == p)).length

/-- Record `i` gets a queue pair, whose number, a free one not in use, is written to it as LOCAL_QPN (R156). -/
def qpOpen (s : State) (c : Coll) (i : Nat) : State :=
  let a := c.drecAddr + 64 * i
  let (q, s) := qpNew s c i (hbmBytes s a 64)
  let used := (qps s).map Prod.fst
  let (f, s) := freeBelow s (pow2 24 - used.length)
  let n := nthFree used 0 f
  hbmWrite (qpSet s n (some q)) (a + 48) (leBytes 3 n)

/-- The delivery records, read and checked: 0x00, or the result that refuses the OPEN (R156, R269, R277). -/
def drecsCheck (s : State) (view : Nat) (c : Coll) : Byte × State :=
  if c.ndrec = 0 then (0, s)
  else match cmdRead s view c.drecAddr (64 * c.ndrec) with
  | (.error r, s) => (r, s)
  | (.ok l, s) =>
    if !(List.range c.ndrec).all (fun i => drecOk s c (slice l (64 * i) 64)) then (1, s)
    else if regBf s .GLB_PANEL_CFG c.panel 14 0 < panelQps s c.panel + c.ndrec ∨ 16384 < (qps s).length + c.ndrec then (2, s)
    else (0, s)

/-- The Remnant regions of two collectives overlap. -/
def remClash (c d : Coll) : Bool :=
  match remRegion c, remRegion d with
  | some p, some q => decide (p.remAddr < q.remAddr + remSize d q ∧ q.remAddr < p.remAddr + remSize c p)
  | _, _ => false

/-- The header page of a Remnant region (R176). -/
def remHeader (c : Coll) (q : SpanCfg) : List Byte :=
  leBytes 4 0x524D4E54 ++ leBytes 4 c.id.toNat ++ leBytes 8 (c.bucketChunks * c.chunkElems) ++ leBytes 2 c.chunkElems ++
  [BitVec.ofNat 8 (b2n q.resFp32 + 2 * q.banks), 0] ++ leBytes 6 ((c.firstEpoch + pow2 48 - 1) % pow2 48) ++ List.replicate 4070 0

/-- The Remnant region at OPEN, within what the issuing window may name (R269): cleared, or resumed from (R181, R182): the result, and the collective with its committed bank. -/
def remOpen (s : State) (view : Nat) (c : Coll) : Byte × Coll × State :=
  match remRegion c with
  | none => (0, c, s)
  | some q =>
    if !inQuota s view q.remAddr (remSize c q) ∨ s.cco.colls.any (remClash c) then (2, c, s)
    else if q.remClear then
      (0, { c with lastEpoch := (c.firstEpoch + pow2 48 - 1) % pow2 48 },
        hbmWrite (hbmZero s (q.remAddr + 4096) (remSize c q - 4096)) q.remAddr (remHeader c q))
    else match hbmRead s q.remAddr 26 with
      | (none, s) => (1, c, s)
      | (some h, s) =>
        let same := leField h 0 4 == 0x524D4E54 && leField h 8 8 == c.bucketChunks * c.chunkElems && leField h 16 2 == c.chunkElems &&
          leField h 18 1 == b2n q.resFp32 + 2 * q.banks && decide (leField h 19 1 % 4 < q.banks)
        if same then (0, { c with bank := leField h 19 1 % 4, lastEpoch := leField h 20 6 }, s) else (1, c, s)

/-- The panel an OPEN is for: the window's, or for the physical function the one its contexts are bound to. -/
def openPanel (s : State) (view : Nat) (b : List Byte) : Option Nat :=
  if view < 16 then some view else match (collOf 0 b).ctx with
    | x :: _ => ctxPanel s x.2
    | [] => none

/-- OPEN (R134): the result. -/
def cmdOpen (s : State) (view : Nat) : Byte × State :=
  match cmdRead s view (cmdAddr s view) 128 with
  | (.error r, s) => (r, s)
  | (.ok b, s) => match openPanel s view b with
    | none => (1, s)
    | some p =>
      let c := collOf p b
      if (panelGet s p).state = .resetting then (4, s)
      else if !collOk s c b ∨ (collFind s p c.id).isSome then (1, s)
      else match cmdRead s view c.rmapAddr (32 * c.nrmap) with
      | (.error r, s) => (r, s)
      | (.ok _, s) =>
        if !rmapOk s c ∨ !spanOk s c b then (1, s)
        else
          let (r, s) := drecsCheck s view c
          if r ≠ 0 then (r, s)
          else
            let (r, c, s) := remOpen s view c
            if r ≠ 0 then (r, s)
            else
              let s := (List.range c.ndrec).foldl (fun s i => qpOpen s c i) s
              (0, creditRaise { s with cco := { s.cco with colls := s.cco.colls ++ [c] } } p c.id)

/-! ### The other commands (R138, R150-R152, R159, R161, R162) -/

/-- The collective a command names: of the window's panel; for the physical function the first with that ID (log 34). -/
def cmdColl (s : State) (view : Nat) (id : Word) : Option Coll :=
  if view < 16 then collFind s view id else s.cco.colls.find? (fun c => c.id == id)

/-- A command's 16 B descriptor: COLL_ID, EPOCH, RANK, INDEX (R161). -/
def cmdFields (b : List Byte) : Word × Nat × Nat × Nat := (leWord b 0, leField b 4 6, leField b 10 3, leField b 13 2)

/-- A command on an open collective: `f` takes the collective, EPOCH, RANK and INDEX. -/
def cmdOn (s : State) (view : Nat) (f : State → Coll → Nat → Nat → Nat → Byte × State) : Byte × State :=
  match cmdRead s view (cmdAddr s view) 16 with
  | (.error r, s) => (r, s)
  | (.ok b, s) =>
    let (id, e, rank, i) := cmdFields b
    match cmdColl s view id with
    | none => (3, s)
    | some c => f s c e rank i

/-- RETIRE begins: open epochs abort; the rest follows as bolts and writes end (R162).  `cause` is HOST, or PANEL_RESET for a panel reset
(R405). -/
def retireStart (s : State) (p : Nat) (id : Word) (cause : Nat) : State :=
  let s := collMod s p id (fun c => { c with retiring := true })
  retireFinish (abortAll s p id cause .self) p id

/-- STANDIN: index `i` of the rank map stands in for `rank`, or the rank's original entry returns (R150-R152). -/
def standin (s : State) (c : Coll) (rank j : Nat) : Byte × State :=
  let y := rmapEntry s c j
  let group := fun (i : Nat) => (rmapEntry s c i).group == y.group
  if (panelGet s c.panel).state = .resetting then (4, s)
  else if c.nrmap ≤ j then (1, s)
  else match (stageIndices s c y.stage).find? (fun i => (rmapEntry s c i).rank == rank) with
  | none => (1, s)
  | some i =>
    let next := fun (subs : List (Nat × Nat)) =>
      collMod s c.panel c.id (fun c => { c with subs := subs, gens := tabSet 0 c.gens y.stage (tabGet 0 c.gens y.stage + 1) })
    if j = i then
      (if (c.subs.lookup i).isSome then (0, next (c.subs.filter (fun q => q.1 != i))) else (1, s))
    else if y.kind ≠ 3 ∨ !group i then (1, s)
    else if c.subs.any (fun q => q.2 == j) then (5, s)
    else (0, next (c.subs.filter (fun q => q.1 != i) ++ [(i, j)]))

/-- QP_RESET: the queue pair of a delivery record leaves the error state with the record's START_PSN (R159, R161). -/
def qpReset (s : State) (c : Coll) (i : Nat) : Byte × State :=
  match qpOf s c.panel c.id i with
  | none => (1, s)
  | some (n, q) =>
    match hbmRead s (c.drecAddr + 64 * i) 64 with
    | (none, s) => (1, s)
    | (some b, s) =>
      let s := q.writes.foldl (fun s w => cellDrop s w.cell) s
      (0, qpSet s n (some { q with psn := leField b 20 3, err := false, writes := [] }))

/-- What a command does: its result, and the collective a RETIRE waits for (R161). -/
def cmdRun (s : State) (view code : Nat) : Byte × Option (Nat × Word) × State :=
  let plain := fun (r : Byte × State) => (r.1, (none : Option (Nat × Word)), r.2)
  match code with
  | 1 => plain (cmdOpen s view)
  | 2 =>
    (match cmdRead s view (cmdAddr s view) 16 with
    | (.error r, s) => (r, none, s)
    | (.ok b, s) => match cmdColl s view (leWord b 0) with
      | none => (3, none, s)
      | some c => (0, some (c.panel, c.id), retireStart s c.panel c.id 6))
  | 3 => plain (cmdOn s view (fun s c _ rank i => standin s c rank i))
  | 4 => plain (cmdOn s view (fun s c e _ _ => (0, abortEpoch s c.panel c.id e 6 false .self)))
  | 5 => plain (cmdOn s view (fun s c _ _ i => qpReset s c i))
  | 6 => plain (cmdOn s view (fun s c e _ _ => (0, tackResume s c e)))
  | _ => (1, none, s)

/-- The doorbell: a command takes effect at once, and its result follows; while BUSY it is refused with 0x04 (R162). -/
def ccoDoorbell (s : State) (view code : Nat) : State :=
  let x := cmdGet s view
  if x.busy then cmdSet s view { x with result := 4 }
  else
    let (r, w, s) := cmdRun s view code
    cmdSet s view { cmdGet s view with busy := true, retire := w, next := r }

/-- OPEN: CCO_CMD 0x01. -/
def execOpenCommand (req : Requester) (view : Nat) (s : State) : Result := .next <| guardWrite s req .CCO_CMD view (fun s => ccoDoorbell s view 1)
/-- RETIRE: CCO_CMD 0x02. -/
def execRetireCommand (req : Requester) (view : Nat) (s : State) : Result := .next <| guardWrite s req .CCO_CMD view (fun s => ccoDoorbell s view 2)
/-- STANDIN: CCO_CMD 0x03. -/
def execStandinCommand (req : Requester) (view : Nat) (s : State) : Result := .next <| guardWrite s req .CCO_CMD view (fun s => ccoDoorbell s view 3)
/-- ABORT: CCO_CMD 0x04. -/
def execAbortCommand (req : Requester) (view : Nat) (s : State) : Result := .next <| guardWrite s req .CCO_CMD view (fun s => ccoDoorbell s view 4)
/-- QP_RESET: CCO_CMD 0x05. -/
def execQpReset (req : Requester) (view : Nat) (s : State) : Result := .next <| guardWrite s req .CCO_CMD view (fun s => ccoDoorbell s view 5)
/-- RESUME: CCO_CMD 0x06. -/
def execResumeCommand (req : Requester) (view : Nat) (s : State) : Result := .next <| guardWrite s req .CCO_CMD view (fun s => ccoDoorbell s view 6)

/-- CMD_DONE: the result is written, BUSY clears, CMD_DONE is set; a RETIRE waits for its collective to be gone (R162). -/
def execCmdDone (view : Nat) (s : State) : Result :=
  .next <|
    let x := cmdGet s view
    let wait : Bool := match x.retire with
      | some (p, id) => (collFind s p id).isSome
      | none => false
    if !x.busy ∨ wait then s
    else
      let s := cmdSet s view { busy := false, retire := none, next := 0, result := x.next }
      if view < 16 then ccoEvent s view 3 else raiseEv s .CCO_EVENT pfView 3

/-! ### The missing-contribution timer (R145, R173) -/

/-- Indices a chunk waits for. -/
def missing (b : Bolt) : List Nat :=
  b.want.filter (fun i => !b.counted.contains i && !(b.msgs.any (fun m => m.index == i && m.whole)))

/-- MISS_TIMER_EXPIRY: the timer of bolt `bolt` reaches a multiple of MISS_TO (R145). -/
def execMissTimerExpiry (bolt : Nat) (s : State) : Result :=
  .next <|
    match boltGet s bolt with
    | none => s
    | some b => match collFind s b.panel b.coll with
      | none => s
      | some c =>
        let l := missing b
        if b.state ≠ .open ∨ regBf s .CCO_MISS_CFG b.panel 15 0 = 0 ∨ l.isEmpty then s
        else if regBf s .CCO_MISS_CFG b.panel 19 16 ≤ b.rounds then
          abortEpoch (ccoEvent s b.panel 4) b.panel b.coll b.epoch 3 c.holdOnMiss .self
        else
          let s := boltSet s bolt (some { b with rounds := b.rounds + 1 })
          if b.stage = 2 then s
          else
            let late := (contributors s c b.stage b.epoch).filter (fun x => l.contains x.1 && x.2.kind != 2)
            late.foldl (fun s x =>
              let h : ScpHdr := { scpBlank with coll := b.coll, epoch := b.epoch, chunk := b.chunk, rank := x.2.rank,
                                                layer := b.chalk.toNat % 65536, oper := b.chalk.toNat / 65536 }
              nackSend s b.panel h x.2.ip (nackPort s x.2.port) nkMissing 0 (some b.stage)) s

/-! ### CLOSE tacks (R179) -/

/-- CLOSE_TACK_RECEIVE: from site `site` of a collective's span. -/
def execCloseTackReceive (panel : Nat) (coll : Word) (site epoch : Nat) (s : State) : Result := .next (closeTack s panel coll site epoch)

/-- CLOSE_TACK_REPEAT: to the peers whose CLOSE tack is not held; the first repetition sets COMMIT_WAIT. -/
def execCloseTackRepeat (panel : Nat) (coll : Word) (epoch : Nat) (s : State) : Result :=
  .next <|
    match collFind s panel coll with
    | none => s
    | some c => match c.span, epochFind c epoch with
      | some q, some x =>
        if x.state ≠ .closing then s
        else
          let s := ((peerSites q).filter (fun j => !x.closes.contains j)).foldl (fun s j => tackSite s c q j tackClose 0 false epoch) s
          let s := if x.commitWait then s else ccoEvent s panel 5
          epochMod s panel coll epoch (fun x => { x with commitWait := true })
      | _, _ => s

end Sys2Proof.Machine
end

