-- ==== Sys2Proof/Machine/Panels.lean ====
section
/-! DEFINITION. Panels: enabling, quotas and reset (14_registers_and_pattern, R402-R405). -/

namespace Sys2Proof.Machine

/-! ### GLB_PANEL_CFG (R402) -/

/-- The sum of a quota over the panels, with panel `n`'s taken as `v`. -/
def quotaSum (s : State) (hi lo n v : Nat) : Nat :=
  ((List.range 16).map (fun p => if p = n then v else regBf s .GLB_PANEL_CFG p hi lo)).sum

/-- Something of a panel is open: a collective, a bound context, a session that is not CLOSED. -/
def panelOpen (s : State) (n : Nat) : Bool :=
  s.cco.colls.any (fun c => c.panel == n) || !(contextsOf s n).isEmpty || (sessionsOf s n).any (fun k => (selvGet s k).state != .closed)

/-- A value of GLB_PANEL_CFG is accepted: the quotas of all panels within 512 contexts and 16,384 queue pairs, none below what the panel uses,
EN cleared only with nothing open. -/
def panelCfgOk (s : State) (n : Nat) (v : Word) : Bool :=
  decide (quotaSum s 25 16 n (bf v 25 16) ≤ 512) && decide (quotaSum s 14 0 n (bf v 14 0) ≤ 16384) &&
  decide ((panelContexts s n).length ≤ bf v 25 16) && decide (panelQps s n ≤ bf v 14 0) &&
  !(panelEn s n && !bit v 31 && panelOpen s n)

/-- PNL_STATUS.STATE follows EN, except while the panel is RESETTING (R404, R405). -/
def panelFollow (s : State) (n : Nat) : State :=
  let x := panelGet s n
  if x.state = .resetting then s
  else if !panelEn s n then panelSet s n { x with state := .disabled }
  else if x.state = .disabled then panelSet s n ⟨.active, 0⟩
  else s

/-- A value of GLB_PANEL_CFG is taken, or refused with QUOTA_REFUSED (R402); a changed quota sets PNL_EVENT.QUOTA_CHANGED (log 56). -/
def panelCfgWrite (s : State) (n : Nat) (value : Word) : State :=
  let old := regGet s .GLB_PANEL_CFG n
  let v := putBf (putBf (putBf 0 31 31 (bf value 31 31)) 25 16 (bf value 25 16)) 14 0 (bf value 14 0)
  if !panelCfgOk s n v then raiseEv s .GLB_EVENT 0 1
  else
    let s := creditAll (panelFollow (regSet s .GLB_PANEL_CFG n v) n)
    if bf v 25 0 = bf old 25 0 then s else raiseEv s .PNL_EVENT n 3

/-- GLB_PANEL_CFG_WRITE. -/
def execGlbPanelCfgWrite (req : Requester) (panel : Nat) (value : Word) (s : State) : Result :=
  .next <| guardWrite s req .GLB_PANEL_CFG panel (fun s => panelCfgWrite s panel value)

/-! ### Panel reset (R405) -/

/-- Every invocation of a panel's contexts is cancelled (R113). -/
def panelInvsCancel (s : State) (n : Nat) : State :=
  s.seam.slots.foldl (fun s e =>
    match runOf s e.1 with
    | some x => if (boltGet s x.bolt).any (fun b => b.panel == n) then abortingFree (invFree s e.1) x.bolt else s
    | none => s) s

/-- A closing epoch of a collective ends without a commit; its writes are discarded (R160, R179). -/
def closingDrop (s : State) (p : Nat) (id : Word) : State :=
  match collFind s p id with
  | none => s
  | some c =>
    let gone := fun (n : Nat) => c.epochs.any (fun x => x.num == n && x.state == .closing)
    let s := dropWrites s p id gone
    let s := (boltsWhere s (fun b => b.ofColl p id && gone b.epoch)).foldl (fun s b => abortBolt s b.1 8) s
    collMod s p id (fun c => { c with
      epochs := c.epochs.filter (fun x => x.state != .closing), up := c.up.filter (fun m => !gone m.epoch), results := c.results.filter (fun r => !gone r.epoch) })

/-- A context leaves the faulted state, its binding kept; a trial of it ends as passed (R405, R445). -/
def ctxClear (s : State) (k : Nat) : State :=
  let s := if (ctxGet s k).faulted then ctxSet s k { ctxGet s k with faulted := false } else s
  let x := engGet s (k / 16)
  let s := engSet s (k / 16) { x with suspects := x.suspects.filter (· != k) }
  if x.state = .trial ∧ x.trial = some k then trialNext s (k / 16) else s

/-- Every collective of a panel ends: invocations are cancelled, epochs abort with cause PANEL_RESET, closing ones end without a commit, queue pairs and
collectives go. -/
def panelCollsReset (s : State) (n : Nat) : State :=
  let cs := (s.cco.colls.filter (fun c => c.panel == n)).map (fun c => c.id)
  let s := cs.foldl (fun s id => retireStart (closingDrop s n id) n id 8) s
  let s := panelInvsCancel s n
  cs.foldl (fun s id => retireFinish (dropWrites s n id (fun _ => true)) n id) s

/-- PNL_CTRL.RESET; while RESETTING it has no further effect (R405). -/
def panelReset (s : State) (n : Nat) : State :=
  if (panelGet s n).state = .resetting then s
  else
    let s := panelCollsReset (panelSet s n ⟨.resetting, 0⟩) n
    let s := (sessionsOf s n).foldl (fun s k => closeStart s k false) s
    let s := panelKeysReset s n
    (contextsOf s n).foldl ctxClear s

/-- PANEL_RESET: PNL_CTRL bit 0. -/
def execPanelReset (req : Requester) (panel : Nat) (s : State) : Result :=
  .next <| guardWrite s req .PNL_CTRL panel (fun s => panelReset s panel)

/-- PANEL_RESET_DONE: a session that has not sent its last CLOSE is CLOSED with its key slots EMPTY, the KEK is renewed unless an alarm is latched, STATE becomes ACTIVE or DISABLED, RESET_DONE is set (R369, R375, R405). -/
def execPanelResetDone (panel : Nat) (s : State) : Result :=
  .next <|
    if (panelGet s panel).state ≠ .resetting then s
    else
      let left := (sessionsOf s panel).filter (fun k => (selvGet s k).state == .closing)
      let s := left.foldl (fun s k => sessKeysReset (sessClosed s k) k) s
      let s := if alarmLatched s then s else encapsulate s panel
      let s := panelSet s panel ⟨if panelEn s panel then .active else .disabled, 0⟩
      creditAll (raiseEv s .PNL_EVENT panel 0)

end Sys2Proof.Machine
end

