-- ==== Sys2Proof/Machine/Pins.lean ====
section
/-! DEFINITION. Pins, sensors, reference clocks and the interrupt hold-off (14_registers_and_pattern, 17_electrical_and_mechanical). -/

namespace Sys2Proof.Machine

/-! ### Interrupts (R401, R409) -/

/-- Interrupts that wait for the link leave once it carries requests (R401, R412). -/
def irqFlush (s : State) : State :=
  s.irq.foldl (fun s e => if e.2.pend && !e.2.fired && !e.2.masked then irqRaise s (e.1 / 64) (e.1 % 64) else s) s

/-- IRQ_HOLDOFF_EXPIRY: the hold-off of a vector ends; one message follows if it is pending (R409). -/
def execIrqHoldoffExpiry (fn vec : Nat) (s : State) : Result :=
  .next <|
    let v := vecGet s fn vec
    if !v.fired then s
    else
      let s := vecSet s fn vec { v with fired := false }
      if v.pend then irqRaise s fn vec else s

/-! ### PERST_N (R480) -/

/-- PERST_N_ASSERT: the endpoint and its link are reset, with its hold-offs and pending bits (log 57); the rest keeps running. -/
def execPerstNAssert (s : State) : Result := .next { s with boot := { s.boot with perst := true }, irq := [] }

/-- PERST_N_RELEASE: the endpoint trains its link again. -/
def execPerstNRelease (s : State) : Result := .next (irqFlush { s with boot := { s.boot with perst := false } })

/-- SMB_ALERT_N is high: no event bit of GLB_EVENT is set (R480). -/
def smbAlertN (s : State) : Bool := (evGet s .GLB_EVENT 0).bits == 0

/-! ### Temperatures (R486, R492) -/

/-- A die's hottest reading, in 0.1 °C; the highest since PORST_N release is kept. -/
def tempPut (s : State) (die : Nat) (t : BitVec 16) : State :=
  { s with pins := { s.pins with temps := tabSet 0 s.pins.temps die t, tempMax := if s.pins.tempMax.toInt < t.toInt then t else s.pins.tempMax } }

/-- THERM_ALERT_ASSERT: a die sensor reads above 105 °C; `die` 0 and 1 the core dies, 2 to 5 the IO dies. -/
def execThermAlertAssert (die : Nat) (temp : BitVec 16) (s : State) : Result :=
  .next <|
    if 6 ≤ die then s
    else
      let s := tempPut s die temp
      if temp.toInt ≤ 1050 ∨ s.pins.thermAlert then s
      else raiseEv { s with pins := { s.pins with thermAlert := true } } .CLK_EVENT 0 0

/-- THERM_ALERT_RELEASE: the six dies' readings once every sensor has read below 100 °C for 1 ms. -/
def execThermAlertRelease (temps : List (BitVec 16)) (s : State) : Result :=
  .next <|
    let s := (List.range 6).foldl (fun s d => match temps[d]? with
      | some t => tempPut s d t
      | none => s) s
    if (List.range 6).all (fun d => decide ((tabGet 0 s.pins.temps d).toInt < 1000)) then { s with pins := { s.pins with thermAlert := false } } else s

/-! ### Rails (R475, R485, R492) -/

/-- Nominal voltage of a monitored rail in mV: VDD_AON, VDD_CORE, VDDIO_1V8, VDDA_SER. -/
def railMv : Nat → Nat
  | 0 => 750
  | 1 => 750
  | 2 => 1800
  | _ => 900

/-- VMON_WARN: a monitored rail has stayed outside ±5 % of nominal for 1 µs. -/
def execVmonWarn (rail mv : Nat) (s : State) : Result :=
  .next <|
    if 4 ≤ rail then s
    else
      let s := { s with pins := { s.pins with vmon := tabSet 0 s.pins.vmon rail (BitVec.ofNat 16 mv) } }
      if 20 * mv < 19 * railMv rail ∨ 21 * railMv rail < 20 * mv then raiseEv s .CLK_EVENT 0 1 else s

/-! ### SerDes reference clocks (R479, R492) -/

/-- Ports of an IO die. -/
def ioDiePorts (d : Nat) : List Nat := (List.range 64).map (· + 64 * d)

/-- SERDES_REF_LOSS: the lanes of an IO die lose lock and its ports go link-down. -/
def execSerdesRefLoss (die : Nat) (s : State) : Result :=
  .next <|
    if 4 ≤ die ∨ s.pins.refLost.getLsbD die then s
    else
      let s := { s with pins := { s.pins with refLost := s.pins.refLost ||| BitVec.ofNat 4 (pow2 die) } }
      let s := (ioDiePorts die).foldl linkDown s
      raiseEv (lanesLost s (128 * die) 128) .CLK_EVENT 0 2

/-- SERDES_REF_RETURN: the lanes of the die can lock and train again. -/
def execSerdesRefReturn (die : Nat) (s : State) : Result :=
  .next <|
    if 4 ≤ die ∨ !s.pins.refLost.getLsbD die then s
    else
      let s := { s with pins := { s.pins with refLost := s.pins.refLost &&& ~~~ BitVec.ofNat 4 (pow2 die) } }
      (ioDiePorts die).foldl (fun s p => if portImpl s p ∧ domOn s (portDom p) then fabPortSet s p { fabPort s p with training := true } else s) s

end Sys2Proof.Machine
end

