-- ==== Sys2Proof/Machine/Optical.lean ====
section
/-! DEFINITION. Optical line dies (11_optical_line): bands, fitting, launch ramps, received power, ageing, calibration. -/

namespace Sys2Proof.Machine

/-- The die and its rings take commands: present and powered. -/
def dieUp (s : State) (d : Nat) : Bool := ldPresent s d && domOn s (dieDom d)

/-- The channels of a die. -/
def dieChs (d : Nat) : List Nat := (List.range 16).map (fun c => 16 * d + c)

/-- Every channel of the die has EN clear (R339, R357). -/
def dieUnlit (s : State) (d : Nat) : Bool := (dieChs d).all (fun k => !optEn s k)

/-! ### Light and loss of signal (R340, R343, R350) -/

/-- LOS is declared: reported to the framer, counted (R350). -/
def losDeclare (s : State) (k : Nat) : State :=
  let x := optCh s k
  if x.los then s
  else
    let s := raiseEv (ctrInc (optChSet s k { x with los := true }) .OPT_CH_CNT_LOS k) .OPT_CH_EVENT k 0
    if chEn s k then defectSet s k 0 else s

/-- LOS is cleared (R350). -/
def losClear (s : State) (k : Nat) : State :=
  let x := optCh s k
  if !x.los then s
  else
    let s := raiseEv (ctrInc (optChSet s k { x with los := false }) .OPT_CH_CNT_LOS k) .OPT_CH_EVENT k 1
    if chEn s k then defectClear s k 0 else s

/-- A channel goes dark at once (R343, R348). -/
def goDark (s : State) (k : Nat) : State := optChSet s k { optCh s k with light := .dark, launchLow := false }

/-- A dark channel's launch power starts to ramp up where it is enabled, its rings are fitted and its transmit ring is locked (R340). -/
def rampUp (s : State) (k : Nat) : State :=
  let x := optCh s k
  if x.light = .dark ∧ optEn s k ∧ x.fitted ∧ x.txLock ∧ (optDie s (k / 16)).fit = .done then optChSet s k { x with light := .ramping } else s

/-- A calibration is given up and its need cleared; its member returns as after a defect, and forced ones that waited
start (R357). -/
def calAbandon (s : State) (k : Nat) : State :=
  let s := { s with opt := { s.opt with need := s.opt.need.filter (· != k), forced := s.opt.forced.filter (· != k) } }
  let x := optCh s k
  if x.cal = .none then s
  else
    let s := optChSet s k { x with cal := .none }
    let s := if chEn s k ∧ (lineCh s k).mstate = 3 then lineChSet s k { lineCh s k with mstate := 1 } else s
    startForced s

/-- A channel needs calibration: CAL_PENDING, behind the needs before it; a need that stands is no second one (R353, R357). -/
def calNeed (s : State) (k : Nat) : State :=
  if (optCh s k).light ≠ .lit ∨ s.opt.need.contains k then s else { s with opt := { s.opt with need := s.opt.need ++ [k] } }

/-! ### Fitting (R344-R347) -/

/-- The nominal frequency of channel `c` of a die, in MHz (R338). -/
def chMHz (s : State) (d c : Nat) : Int := 191300000 + 6250 * (regBf s .OPT_BAND d 9 0 : Int) + (2 * (c : Int) - 15) * 37500

/-- A kept value the die may fit from: KEEP, the current band, within 10 °C (R347). -/
def warmFrom (s : State) (d : Nat) : Bool :=
  match (optDie s d).retain with
  | some r => regBit s .OPT_FIT_CFG d 0 && r.band == regGet s .OPT_BAND d && decide ((r.temp - (optDie s d).temp).natAbs ≤ 100)
  | none => false

/-- What a warm fitting starts from: the kept values (R344, R347). -/
def fitKept (x : OptDie) : OptDie :=
  match x.retain with
  | some r => { x with comb := r.comb, rots := r.rots, heaters := r.heaters, unfit := r.unfit }
  | none => x

/-- A fitting starts with the comb; rings are unlocked meanwhile (R345, R347). -/
def fitStart (s : State) (d : Nat) (warm : Bool) : State :=
  let x := optDie s d
  let s := optDieSet s d { (if warm then fitKept x else x) with fit := .comb, warmRun := warm, combLock := false }
  (dieChs d).foldl (fun s k =>
    optChSet (goDark s k) k { optCh (goDark s k) k with txLock := false, rxLock := false, fitted := false, txBad := 0, txGood := 0, rxBad := 0 }) s

/-- The die's domain comes on: LOS starts declared, fitting runs warm where R347 allows and cold otherwise (R345, R350). -/
def dieOn (s : State) (d : Nat) : State :=
  if !ldPresent s d then s
  else fitStart ((dieChs d).foldl losDeclare s) d (warmFrom s d)

/-- The die's domain goes off: fitting and calibrations abandoned, every channel dark, LOS (R334, R343, R357).  The retention
store and EOL stay (R347, R352). -/
def dieOff (s : State) (d : Nat) : State :=
  let s := optDieSet s d { optDie s d with fit := .off, combLock := false }
  (dieChs d).foldl (fun s k =>
    let s := goDark (calAbandon s k) k
    let s := optChSet s k { optCh s k with txLock := false, rxLock := false, fitted := false, txBad := 0, txGood := 0, rxBad := 0 }
    losDeclare s k) s

/-- Every channel of every die dark at once; the retention stores are kept (R343, R357). -/
def opticalDark (s : State) : State :=
  (List.range 64).foldl (fun s k => goDark (calAbandon s k) k) s

/-- OPT_BAND takes effect, and a cold fitting starts whatever KEEP holds (R339). -/
def bandApply (s : State) (d : Nat) (v : Word) : State := fitStart (regSet s .OPT_BAND d v) d false

/-- OPT_BAND_WRITE: not accepted while a channel's EN is set, or out of range; taken at once when every channel is dark, at the
next tuning period otherwise (R338, R339, R348). -/
def execOptBandWrite (req : Requester) (die : Nat) (value : Word) (s : State) : Result :=
  .next <| guardWrite s req .OPT_BAND die fun s =>
    if !dieUnlit s die ∨ 768 < bf value 9 0 then raiseEv s .OPT_EVENT die 5
    else rwsPut s .OPT_BAND die (acceptWord .OPT_BAND (rwsBase s .OPT_BAND die) value)
      ((dieChs die).all (fun k => (optCh s k).light == .dark)) (fun s v => bandApply s die v)

/-- REFIT: a cold fitting, refused unless every channel's EN is clear (R345, R357). -/
def execRefit (req : Requester) (die : Nat) (s : State) : Result :=
  .next <| guardWrite s req .OPT_FIT_CMD die fun s =>
    if dieUnlit s die then fitStart s die false else raiseEv s .OPT_EVENT die 5

/-- FIT_COMB_LOCK: the comb locks; the sweep begins, or in a warm fitting the rings' verification (R345, R347). -/
def execFitCombLock (die setpoint : Nat) (s : State) : Result :=
  .next <|
    let x := optDie s die
    if x.fit ≠ .comb ∨ !dieUp s die then s
    else optDieSet s die { x with fit := if x.warmRun then .lock else .sweep, combLock := true, comb := if x.warmRun then x.comb else setpoint }

/-- FIT_COMB_TIMEOUT: the whole die fails, every channel stays dark (R346). -/
def execFitCombTimeout (die : Nat) (s : State) : Result :=
  .next <|
    let x := optDie s die
    if x.fit ≠ .comb ∨ !dieUp s die then s else raiseEv (optDieSet s die { x with fit := .fail }) .OPT_EVENT die 1

/-- What a rotation gives one set of 16 rings: the heater setting of each ring, none where the ring recorded no passing of its
line (R345). -/
def rotSettings (set : List (List (Option Nat))) (k : Nat) : List (Option Nat) :=
  (List.range 16).map (fun r => ((set.getD r []).getD ((r + k) % 16) none))

/-- The rotation a set takes: the lowest of those with the smallest largest setting, among those that fit every ring; where none
does, the lowest of those that fit the most rings (R345, R346). -/
def assign (set : List (List (Option Nat))) : Nat :=
  let rank := fun k =>
    let l := rotSettings set k
    let miss := (l.filter Option.isNone).length
    (miss, if miss = 0 then (l.filterMap id).foldl max 0 else 0)
  (List.range 16).foldl (fun b k =>
    let (m, h) := rank k
    let (n, g) := rank b
    if m < n ∨ (m = n ∧ h < g) then k else b) 0

/-- FIT_SWEEP_DONE: rotations chosen, rings move to lock; `sweep` gives, for the modulator, demultiplexer and pilot rings in turn,
the setting at which each comb line passed (R345, R346). -/
def execFitSweepDone (die : Nat) (sweep : List (List (Option Nat))) (s : State) : Result :=
  .next <|
    let x := optDie s die
    if x.fit ≠ .sweep ∨ !dieUp s die then s
    else
      let sets := (List.range 3).map (fun i => (sweep.drop (16 * i)).take 16)
      let rots := sets.map assign
      let got := sets.map (fun set => rotSettings set (assign set))
      let unfit := (List.range 16).filter (fun c =>
        (List.range 3).any (fun i => ((got.getD i []).getD ((c + 16 - rots.getD i 0) % 16) none).isNone))
      optDieSet s die { x with fit := .lock, rots := rots, heaters := got.flatMap (fun l => l.map (fun h => h.getD 0)), unfit := unfit }

/-- FIT_DONE: STATE reads DONE, the retention store is written, enabled channels ramp up.  `lost` names the rings whose resonance
was not found within ±30 GHz of a kept setting: a warm fitting falls back to a cold one (R345-R347). -/
def execFitDone (die : Nat) (lost : List Nat) (s : State) : Result :=
  .next <|
    let x := optDie s die
    if x.fit ≠ .lock ∨ !dieUp s die then s
    else if x.warmRun ∧ lost ≠ [] then fitStart s die false
    else
      let keep : Retain := ⟨regGet s .OPT_BAND die, x.comb, x.rots, x.heaters, x.unfit, x.temp⟩
      let s := optDieSet s die { x with fit := .done, warm := x.warmRun, retain := some keep }
      let s := raiseEv s .OPT_EVENT die 0
      (List.range 16).foldl (fun s c =>
        let k := 16 * die + c
        let bad := x.unfit.contains c
        rampUp (optChSet s k { optCh s k with fitted := !bad, fitFail := bad, txLock := !bad }) k) s

/-! ### Channel control (R340, R346, R350) -/

/-- OPT_CH_CTRL takes effect: EN set declares LOS, and the ramp starts at the next tuning period, or at once where the channel still ramps down; EN cleared gives up a calibration and ramps down; a lit
channel moves to a new LAUNCH by a ramp (R340, R350, R357). -/
def chCtrlApply (s : State) (k : Nat) (v : Word) : State :=
  let old := regGet s .OPT_CH_CTRL k
  let s := regSet s .OPT_CH_CTRL k v
  if bit v 31 ∧ ¬ bit old 31 then losDeclare s k
  else if ¬ bit v 31 ∧ bit old 31 then
    let s := calAbandon s k
    if (optCh s k).light = .dark then s else optChSet s k { optCh s k with light := .ramping, launchLow := false }
  else if bf v 15 0 ≠ bf old 15 0 ∧ (optCh s k).light = .lit then optChSet s k { optCh s k with light := .ramping }
  else s

/-- A value of OPT_CH_CTRL is held for the channel's next tuning period; a dark channel reaches its boundary at once (R348, R399). -/
def chCtrlPut (s : State) (k : Nat) (v : Word) : State :=
  rwsPut s .OPT_CH_CTRL k v ((optCh s k).light == .dark) (fun s v => chCtrlApply s k v)

/-- OPT_CH_CTRL_WRITE: EN refused on FIT_FAIL, MOD kept while EN is set (R340, R346). -/
def execOptChCtrlWrite (req : Requester) (ch : Nat) (value : Word) (s : State) : Result :=
  .next <| guardWrite s req .OPT_CH_CTRL ch fun s =>
    let base := rwsBase s .OPT_CH_CTRL ch
    let v := acceptWord .OPT_CH_CTRL base value
    let v := if optEn s ch then putBf v 25 24 (bf base 25 24) else v
    if bit v 31 ∧ ¬ optEn s ch ∧ (optCh s ch).fitFail then
      raiseEv (chCtrlPut s ch (putBf v 31 31 0)) .OPT_CH_EVENT ch 3
    else chCtrlPut s ch v

/-- LAUNCH_RAMP_DONE: LIGHT reads lit where EN is set and dark otherwise; a calibration that lost its ring sends its pattern
again (R340, R357). -/
def execLaunchRampDone (ch : Nat) (s : State) : Result :=
  .next <|
    let x := optCh s ch
    if x.light ≠ .ramping then s
    else if !optEn s ch then goDark s ch
    else
      let t := match x.calTemp with
        | some t => t
        | none => (optDie s (ch / 16)).temp
      optChSet s ch { x with light := if x.cal = .pattern then .pattern else .lit, calTemp := some t }

/-- OPT_CH_LOS_THR_WRITE: refused unless LOS_CLR is at least LOS_SET + 1.0 dB; changes no state by itself (R350). -/
def execOptChLosThrWrite (req : Requester) (ch : Nat) (value : Word) (s : State) : Result :=
  .next <| guardWrite s req .OPT_CH_LOS_THR ch fun s =>
    if toSigned 16 (bf value 15 0) + 10 ≤ toSigned 16 (bf value 31 16) then
      rwsPut s .OPT_CH_LOS_THR ch value ((optCh s ch).light == .dark) (fun s v => regSet s .OPT_CH_LOS_THR ch v)
    else raiseEv s .OPT_EVENT (ch / 16) 5

/-- LOS_SET: power below LOS_SET, or the pilot absent, declares LOS (R350). -/
def execLosSet (ch : Nat) (power : Int) (pilot : Bool) (s : State) : Result :=
  .next <|
    if dieUp s (ch / 16) ∧ (!pilot ∨ power < toSigned 16 (regBf s .OPT_CH_LOS_THR ch 15 0)) then losDeclare s ch else s

/-- LOS_CLEARED: power at or above LOS_CLR with RX_LOCK set clears LOS (R350). -/
def execLosCleared (ch : Nat) (power : Int) (s : State) : Result :=
  .next <|
    if dieUp s (ch / 16) ∧ (optCh s ch).rxLock ∧ toSigned 16 (regBf s .OPT_CH_LOS_THR ch 31 16) ≤ power then losClear s ch else s

/-- RX_LOCK: the receive rings of a fitted channel move onto the far-end pilot (R345, R348). -/
def execRxLock (ch : Nat) (s : State) : Result :=
  .next <|
    let x := optCh s ch
    if dieUp s (ch / 16) ∧ x.fitted then optChSet s ch { x with rxLock := true, rxBad := 0 } else s

/-! ### Tuning periods (R348, R349, R351, R352) -/

/-- Periods in a row beyond ±3 GHz. -/
def badCount (n : Nat) (err : Int) : Nat := if 3000 < err.natAbs then n + 1 else 0

/-- One channel's loops: readings, ring errors, a transmit ring that locks again, LAUNCH_LOW (R348, R349, R352). -/
def tuneCh (s : State) (k : Nat) (m : OptMeas) : State :=
  let x := optCh s k
  let d := optDie s (k / 16)
  let good := if m.txErr.natAbs ≤ 500 then x.txGood + 1 else 0
  let relock := d.fit = .done ∧ x.fitted ∧ !x.txLock ∧ 10 ≤ good
  let x := { x with tx := m.tx, rx := max m.rx (-350), txBad := badCount x.txBad m.txErr, txGood := if good < 10 then good else 10,
                    rxBad := max (badCount x.rxBad m.demErr) (badCount x.rxBad m.pilErr) }
  let s := optChSet s k x
  let s := if relock then rampUp (optChSet s k { x with txLock := true }) k else s
  let x := optCh s k
  let low := x.light = .lit ∧ d.bias = 1000 ∧ m.tx + 5 < toSigned 16 (regBf s .OPT_CH_CTRL k 15 0)
  if low ∧ !x.launchLow then raiseEv (optChSet s k { x with launchLow := true }) .OPT_CH_EVENT k 2
  else if ¬ low then optChSet s k { x with launchLow := false }
  else s

/-- TUNING_PERIOD: held writes take effect, an enabled dark channel starts its ramp, readings are taken, EOL is latched, a move of more than 5 °C asks for
calibration (R340, R348-R353). -/
def execTuningPeriod (die bias : Nat) (temp : Int) (chans : List OptMeas) (s : State) : Result :=
  .next <|
    if !dieUp s die then s
    else
      let s := applyHeld s .OPT_BAND die (fun s v => bandApply s die v)
      let s := (dieChs die).foldl (fun s k =>
        let s := applyHeld s .OPT_CH_CTRL k (fun s v => chCtrlApply s k v)
        applyHeld s .OPT_CH_LOS_THR k (fun s v => regSet s .OPT_CH_LOS_THR k v)) s
      let x := optDie s die
      let b := min bias 1000
      let s := optDieSet s die { x with bias := b, temp := temp, eol := x.eol || decide (950 ≤ b) }
      let s := if 950 ≤ b ∧ !x.eol then raiseEv s .OPT_EVENT die 2 else s
      let s := (List.range 16).foldl (fun s c => match chans[c]? with
        | some m => tuneCh s (16 * die + c) m
        | none => s) s
      (dieChs die).foldl (fun s k =>
        let s := rampUp s k
        match (optCh s k).calTemp with
        | some t => if 50 < (temp - t).natAbs then calNeed s k else s
        | none => s) s

/-- RING_LOCK_LOSS: after 5 periods beyond ±3 GHz a transmit ring's channel goes dark and the ring is verified again, and a
receive ring clears RX_LOCK and LOS is declared; a calibration restarts from its pattern (R348, R357). -/
def execRingLockLoss (ch : Nat) (transmit : Bool) (s : State) : Result :=
  .next <|
    let x := optCh s ch
    if !dieUp s (ch / 16) ∨ !x.fitted then s
    else if transmit then
      if x.txBad < 5 ∨ !x.txLock then s
      else goDark (optChSet s ch { x with txLock := false, txBad := 0, txGood := 0, cal := if x.cal = .returning then .pattern else x.cal }) ch
    else if x.rxBad < 5 ∨ !x.rxLock then s
    else losDeclare (optChSet s ch { x with rxLock := false, rxBad := 0 }) ch

/-! ### Calibration (R353-R356) -/

/-- Idle and all cells of a channel over the last 100 ms. -/
def sentShare (s : State) (k : Nat) : Nat × Nat :=
  ((lineCh s k).sent.filter (fun e => decide (s.localUs / 1000 < e.1 + 100))).foldl (fun a e => (a.1 + e.2.1, a.2 + e.2.2)) (0, 0)

/-- A channel has headroom (R354). -/
def calHeadroom (s : State) (k : Nat) : Bool :=
  if !chEn s k then true
  else
    let g := chGroup s k
    let act := (members s g).filter (fun j => (lineGrp s g).txActive.getLsbD (chMid s j))
    let prot :=
      if protEn s g ∧ workCh s g = k then decide ((lineCh s (protCh s g)).defects = 0)
      else if protEn s g ∧ protCh s g = k then decide ((lineCh s (workCh s g)).defects = 0)
      else !chCtl s k
    let n := act.length
    let room :=
      if grpConcat s g then
        let sum := act.foldl (fun a j => let e := sentShare s j; (a.1 + e.1, a.2 + e.2)) (0, 0)
        decide (2 ≤ n ∧ sum.2 * (64 + n) ≤ sum.1 * 64 * n)
      else
        let used := (lineGrp s g).txPage.any (fun e => bit e.2 31 && decide (e.1 / 80 = chMid s k))
        !used || decide ((sentShare s k).1 = (sentShare s k).2)
    prot && room

/-- CAL: OPT_CH_CMD.CAL marks a lit channel (R353). -/
def execCalCommand (req : Requester) (ch : Nat) (s : State) : Result :=
  .next <| guardWrite s req .OPT_CH_CMD ch fun s => calNeed s ch

/-- CAL_PERIOD_EXPIRY: CAL_PERIOD has passed since the last calibration of a lit channel (R353). -/
def execCalPeriodExpiry (ch : Nat) (s : State) : Result := .next (calNeed s ch)

/-- CAL_START: the oldest pending channel of the die with headroom starts (R354). -/
def execCalStart (die : Nat) (s : State) : Result :=
  .next <|
    if !dieUp s die then s
    else match (s.opt.need.filter (fun k => k / 16 == die)).find? (fun k => !calBlocked s k && calHeadroom s k) with
    | some k => calBegin s k
    | none => s

/-- CAL_FORCED: a channel pending for 10 s is forced: counted, and started as soon as no other calibration of its die or group
runs (R355). -/
def execCalForced (ch : Nat) (s : State) : Result :=
  .next <|
    if !s.opt.need.contains ch ∨ s.opt.forced.contains ch then s
    else
      let s := { s with opt := { s.opt with forced := s.opt.forced ++ [ch] } }
      startForced (raiseEv (ctrInc s .OPT_CNT_CAL_FORCED (ch / 16)) .OPT_EVENT (ch / 16) 4)

/-- CAL_PATTERN_END: frames resume; the member returns as after a defect, and a channel in no group is done (R356). -/
def execCalPatternEnd (ch : Nat) (s : State) : Result :=
  .next <|
    let x := optCh s ch
    if x.cal ≠ .pattern ∨ x.light ≠ .pattern then s
    else if !chEn s ch then calFinish (optChSet s ch { x with light := .lit }) ch
    else
      let s := optChSet s ch { x with light := .lit, cal := .returning }
      if (lineCh s ch).mstate = 3 then lineChSet s ch { lineCh s ch with mstate := 1 } else s

/-- OPT_STATUS, OPT_FIT_STATUS and OPT_CAL_STATUS (R358). -/
def fitCode : FitState → Nat
  | .off => 0 | .comb => 1 | .sweep => 2 | .lock => 3 | .done => 4 | .fail => 5

/-- OPT_FIT_STATUS. -/
def fitStatusWord (s : State) (d : Nat) : Word :=
  let x := optDie s d
  BitVec.ofNat 32 (fitCode x.fit + b2n x.warm * 8 + x.rots.getD 0 0 * pow2 8 + x.rots.getD 1 0 * pow2 12 + x.rots.getD 2 0 * pow2 16)

/-- OPT_CAL_STATUS: BUSY and the channel in calibration. -/
def calStatusWord (s : State) (d : Nat) : Word :=
  match (List.range 16).find? (fun c => (optCh s (16 * d + c)).cal != .none) with
  | some c => BitVec.ofNat 32 (16 + c)
  | none => 0

/-- OPT_CH_STATUS (R360). -/
def optChStatusWord (s : State) (k : Nat) : Word :=
  let x := optCh s k
  let light := match x.light with
    | .dark => 0 | .ramping => 1 | .lit => 2 | .pattern => 3
  BitVec.ofNat 32 (light * pow2 8 + b2n x.launchLow * pow2 7 + b2n (x.cal != .none) * pow2 6 + b2n (s.opt.need.contains k) * pow2 5 +
    b2n x.rxLock * pow2 4 + b2n x.txLock * pow2 3 + b2n x.fitFail * pow2 2 + b2n x.fitted * 2 + b2n x.los)

end Sys2Proof.Machine
end

