-- ==== Sys2Proof/Machine/Power.lean ====
section
/-! DEFINITION. Power domains under traffic (15_faults_and_recovery): draining, switching off, returning, domain and device recovery, the port
detectors. -/

namespace Sys2Proof.Machine

/-! ### What a domain holds -/

/-- Every register. -/
def allRids : List Rid :=
  [Blk.GLB, .PWR, .CLK, .SEC, .THM, .TIME, .FPORT, .SW, .TM, .BAST, .SEAM, .CCO, .PLT, .BOB, .MEM, .SELV, .LINE, .OPT, .DBG, .BIST, .HLT, .PNL].flatMap blkRids

/-- A domain's counters start at 0 when it is powered on (R450). -/
def countersRestart (s : State) (d : Nat) : State :=
  { s with counters := allRids.foldl (fun t r =>
      if (ridRow r).acc = .cnt then tabSet [] t (ridNum r) (tabDrop (tabGet [] t (ridNum r)) (fun i => ridDom r i == some d)) else t) s.counters }

/-- Ports of a quadrant's domain. -/
def domPorts (d : Nat) : List Nat := (List.range 32).map (fun k => 32 * (d - 3) + k)

/-- Engines of a quarter's domain. -/
def domEngines (d : Nat) : List Nat := (List.range 8).map (fun k => 8 * (d - 13) + k)

/-- Objects dropped at the end of a drain are counted (R441). -/
def drainDrop (s : State) (d n : Nat) : State := ctrAdd s .PWR_CNT_DRAIN_DROP d n

/-! ### A quarter of the Seam array (R441, R442) -/

/-- The ranks counted in a bolt receive NACK DOMAIN_OFF with a retry interval of 200 µs. -/
def domNacks (s : State) (c : Coll) (b : Bolt) : State :=
  ((contributors s c b.stage b.epoch).filter (fun x => b.counted.contains x.1 && decide (x.2.kind ≤ 1))).foldl (fun s x =>
    let h : ScpHdr := { scpBlank with coll := b.coll, epoch := b.epoch, chunk := b.chunk, rank := x.2.rank, layer := b.chalk.toNat % 65536,
                                      oper := b.chalk.toNat / 65536 }
    nackSend s b.panel h x.2.ip (nackPort s x.2.port) nkDomain 200 (some b.stage)) s

/-- A bolt has counted what no NACK can bring again: the gateway's own lower stage, or another site (log 54). -/
def countedInside (s : State) (c : Coll) (b : Bolt) : Bool :=
  b.stage == 2 || (contributors s c b.stage b.epoch).any (fun x => b.counted.contains x.1 && decide (1 < x.2.kind))

/-- An OPEN or DONE bolt of the domain is freed; its chunk is reserved on another context of the stage, and where none has room, or a
contribution cannot come again, the epoch aborts with cause DOMAIN_OFF (R441). -/
def domBolt (s : State) (k : Nat) : State :=
  match boltGet s k with
  | none => s
  | some b => match collFind s b.panel b.coll with
    | none => s
    | some c =>
      if b.state ≠ .open ∧ b.state ≠ .done then s
      else
        let inside := countedInside s c b
        let s := domNacks s c b
        let s := b.msgs.foldl (fun s m => msgFree s k m) s
        let s := pageRelease (boltFree (boltSet s k (some { b with msgs := [] })) (b.ctx / 16) k) (ctxSlot s b.ctx)
        if inside then abortEpoch s b.panel b.coll b.epoch 9 false .self
        else (reserveOne s c b.stage b.epoch b.chunk).getD (abortEpoch s b.panel b.coll b.epoch 9 false .self)

/-- A bolt reserved in the domain moves to another context, or its epoch aborts. -/
def domReserved (s : State) (k : Nat) : State :=
  match boltGet s k with
  | none => s
  | some b =>
    if b.state ≠ .reserved then s
    else
      let s := rehome s k
      match boltGet s k with
      | some b' => if b'.ctx = b.ctx then abortEpoch s b.panel b.coll b.epoch 9 false .self else s
      | none => s

/-- What is left on a quarter when its drain ends. -/
def quarterOff (s : State) (d : Nat) : State :=
  let es := domEngines d
  let s := es.foldl engineStop s
  let mine := fun (k : Nat) => es.contains (k / 16)
  let lost := s.seam.ring.filter (fun r => mine r.ctx || mine r.src)
  let n := (boltsWhere s (fun b => mine b.ctx && (b.state == .open || b.state == .done))).length + lost.length +
    (s.seam.remq.filter (fun q => es.contains (q.slot / 8))).length
  let s := drainDrop { s with seam := { s.seam with ring := s.seam.ring.filter (fun r => !(mine r.ctx || mine r.src)),
                                                    remq := s.seam.remq.filter (fun q => !es.contains (q.slot / 8)) } } d n
  let s := (boltsWhere s (fun b => mine b.ctx)).foldl (fun s e => domBolt s e.1) s
  let s := (boltsWhere s (fun b => mine b.ctx)).foldl (fun s e => domReserved s e.1) s
  let s := lost.foldl (fun s r => abortEpoch s r.panel r.coll r.epoch 9 false .self) s
  es.foldl (fun s e => engSet s e engReset) s

/-! ### The other domains (R211, R249, R376, R442) -/

/-- Frames still bound for a quadrant's ports are dropped. -/
def framesDrop (d : Nat) (ps : List Nat) : Nat → State → State
  | 0, s => s
  | n + 1, s =>
    match s.fab.frames.findIdx? (fun f => f.dests.any (fun p => ps.contains p)) with
    | none => s
    | some k =>
      let p := (((s.fab.frames[k]?).map (fun f => f.dests)).getD []).find? (fun p => ps.contains p)
      framesDrop d ps n (leaveOne (drainDrop s d 1) k (p.getD 0))

/-- What is left of a quadrant. -/
def quadrantOff (s : State) (d : Nat) : State :=
  let s := framesDrop d (domPorts d) (32 * s.fab.frames.length) s
  lanesLost s (64 * (d - 3)) 64

/-- PD11, which goes off only without a port enabled or a collective open: frames held are dropped. -/
def switchOff (s : State) (d : Nat) : State :=
  let l := s.fab.frames
  l.foldl frameFree (drainDrop { s with fab := { s.fab with frames := [] } } d l.length)

/-- PD12: circuits squelched, receivers unaligned. -/
def bastingOff (s : State) : State :=
  let s := (List.range 32).foldl (fun s n => circSet s n { circ s n with state := .off }) s
  (List.range 32).foldl (fun s n => tackRxSet s n { tackRx s n with aligned := false, signal := false }) s

/-- PD17: requests not returned abort their epochs with cause DOMAIN_OFF, and their invocations end; a request whose invocation has gone concerns none (R211). -/
def pleatOff (s : State) (d : Nat) : State :=
  let l := s.plt.enc
  let s := drainDrop { s with plt := { s.plt with enc := [] } } d l.length
  (dedup (l.map (fun q => (q.slot, q.inv)))).foldl (fun s k =>
    let i := k.1
    match runOf s i with
    | none => s
    | some x =>
      if x.num ≠ k.2 then s
      else
      let b := boltGet s x.bolt
      let s := invFree s i
      match b with
      | some b => abortingFree (abortEpoch s b.panel b.coll b.epoch 9 false .self) x.bolt
      | none => s) s

/-- The line framers start empty: every channel as at reset, every group without members, its connection memory kept (R443; log 54). -/
def framersOff (s : State) : State :=
  let keep := fun (x : LineGrp) => { LineGrp.reset with
    txPage := x.txPage, rxPage := x.rxPage, txGen := x.txGen, rxGen := x.rxGen, sbValid := x.sbValid, err := x.err, tackSeq := x.tackSeq }
  let grps := s.line.grps.foldl (fun t e => tabSet LineGrp.reset t e.1 (keep e.2)) []
  { s with line := ⟨[], grps, [], []⟩ }

/-- PD18: what its sessions still hold is dropped, and they are CLOSED (R442). -/
def selvedgeOff (s : State) (d : Nat) : State :=
  let ks := (s.selv.sess.filter (fun e => e.2.state != .closed)).map Prod.fst
  let n := (ks.map (fun k => (sessSegs (selvGet s k)).length)).sum
  framersOff (ks.foldl sessClosed (drainDrop s d n))

/-- The trace FIFOs of a domain's units go with it (R28). -/
def fifosOff (s : State) (d : Nat) : State :=
  { s with obs := { s.obs with fifos := tabDrop s.obs.fifos (fun u => unitDom u == some d) } }

/-- What is left in a domain when its drain ends is dropped (R28, R441, R442). -/
def domEmpty (s : State) (d : Nat) : State :=
  fifosOff (domLeft s d) d
where
  /-- What each domain holds. -/
  domLeft (s : State) (d : Nat) : State :=
  if 3 ≤ d ∧ d ≤ 10 then quadrantOff s d
  else if d = 11 then switchOff s d
  else if d = 12 then bastingOff s
  else if 13 ≤ d ∧ d ≤ 16 then quarterOff s d
  else if d = 17 then pleatOff s d
  else if d = 18 then selvedgeOff s d
  else if d = 19 then
    let n := (s.thm.lanes.filter (fun e => e.2.isSome)).length
    drainDrop { s with thm := { s.thm with lanes := [] } } d n
  else if 20 ≤ d then dieOff s (d - 20)
  else s

/-- What happens first when a domain starts to drain: a quadrant's ports go link-down and their queues are flushed, sessions close without
draining, reserved bolts move away (R249, R303, R441, R442). -/
def domDrain (s : State) (d : Nat) : State :=
  if 3 ≤ d ∧ d ≤ 10 then (domPorts d).foldl (fun s p => flushPort (linkDown s p) p) s
  else if 13 ≤ d ∧ d ≤ 16 then
    (boltsWhere s (fun b => b.state == .reserved && (domEngines d).contains (b.ctx / 16))).foldl (fun s e => rehome s e.1) s
  else if d = 18 then
    let ks := (s.selv.sess.filter (fun e => e.2.state != .closed && e.2.state != .closing && e.2.state != .fault)).map Prod.fst
    ks.foldl (fun s k => closeStart s k false) { s with selv := { s.selv with reopen := ks } }
  else s

/-- What a domain does as it returns: it starts empty and takes new work only (R442, R443). -/
def domReturn (s : State) (d : Nat) : State :=
  if 3 ≤ d ∧ d ≤ 10 then (domPorts d).foldl (fun s p => fabPortSet s p { fabPort s p with training := portImpl s p }) s
  else if d = 12 then (List.range 32).foldl (fun s n => if circEn s n then circSet s n { circ s n with state := .relock } else s) s
  else if d = 18 then
    let ks := s.selv.reopen
    let s := (List.range 64).foldl (fun s k => if chEn s k ∧ (optCh s k).los then defectSet s k 0 else s) { s with selv := { s.selv with reopen := [] } }
    ks.foldl openRequest s
  else if 13 ≤ d ∧ d ≤ 17 then creditAll s
  else if 20 ≤ d then dieOn s (d - 20)
  else s

/-! ### Commands (R8, R441, R442, R448) -/

/-- PD11 serves: a port is enabled, or a collective is open (R442). -/
def switchInUse (s : State) : Bool := (List.range 256).any (fun p => portEn s p) || !s.cco.colls.isEmpty

/-- The cause that refuses a command to a domain, 0 where it is taken (R442, R448). -/
def domRefusal (s : State) (d : Nat) (off : Bool) : Nat :=
  if d ≤ 1 then 1
  else if domAbsent s d then 4
  else match (domGet s d).state with
  | .draining | .resetting | .starting => 3
  | _ => if off ∧ d = 11 ∧ switchInUse s then 2 else 0

/-- A refused command: its cause, PWR_EVENT.REFUSED, and for an absent die the count (R8, R448). -/
def domRefuse (s : State) (d cause : Nat) : State :=
  let s := if cause = 4 then ctrInc s .PWR_CNT_ABSENT 0 else s
  raiseEv (domSet s d { domGet s d with cause := BitVec.ofNat 8 cause }) .PWR_EVENT 0 2

/-- A domain starts to drain; `recovery` says that it returns at once (R441). -/
def domOffStart (s : State) (d : Nat) (recovery : Bool) : State :=
  domDrain (domSet s d { domGet s d with state := .draining, recovery := recovery }) d

/-- PWR_DOM_CMD.OFF (R441); a domain that is OFF stays so. -/
def domOffCmd (s : State) (d : Nat) : State :=
  let c := domRefusal s d true
  if c ≠ 0 then domRefuse s d c
  else if (domGet s d).state = .on then domOffStart s d false
  else s

/-- PWR_DOM_CMD.ON (R442); a domain that is ON stays so. -/
def domOnCmd (s : State) (d : Nat) : State :=
  let c := domRefusal s d false
  if c ≠ 0 then domRefuse s d c
  else if (domGet s d).state = .off then countersRestart (domSet s d { domGet s d with state := .starting }) d
  else s

/-- A write of PWR_DOM_CMD; with both bits set OFF is taken (log 54). -/
def domCmd (s : State) (d : Nat) (v : Word) : State := if bit v 0 then domOffCmd s d else if bit v 1 then domOnCmd s d else s

/-- DOMAIN_OFF: PWR_DOM_CMD.OFF. -/
def execDomainOff (req : Requester) (dom : Nat) (s : State) : Result := .next <| guardWrite s req .PWR_DOM_CMD dom (fun s => domOffCmd s dom)
/-- DOMAIN_ON: PWR_DOM_CMD.ON. -/
def execDomainOn (req : Requester) (dom : Nat) (s : State) : Result := .next <| guardWrite s req .PWR_DOM_CMD dom (fun s => domOnCmd s dom)

/-- DRAIN_TIMEOUT: after 100 µs what remains is dropped, the domain is switched off, and in a domain recovery reset (R441). -/
def execDrainTimeout (dom : Nat) (s : State) : Result :=
  .next <|
    let x := domGet s dom
    if x.state ≠ .draining then s
    else
      let s := domEmpty s dom
      let s := raiseEv (domSet s dom { domGet s dom with state := if x.recovery then .resetting else .off }) .PWR_EVENT 0 0
      if x.recovery then countersRestart s dom else s

/-- DOMAIN_ON_DONE: the domain returns to service (R442, R443). -/
def execDomainOnDone (dom : Nat) (s : State) : Result :=
  .next <|
    let x := domGet s dom
    if x.state ≠ .starting ∧ x.state ≠ .resetting then s
    else
      let s := domSet s dom { x with state := .on, recovery := false }
      let s := if s.health.tier = 2 ∧ s.health.dom = dom then { s with health := { s.health with tier := 0 } } else s
      raiseEv (domReturn s dom) .PWR_EVENT 0 1

/-! ### Device recovery (R437-R440) -/

/-- PD0 to PD2 stay as they are, a domain recovery of PD2 abandoned (R439, R445). -/
def domKept (s : State) (d : Nat) : PwrDom :=
  let x := domGet s d
  if x.recovery then { x with state := .on, recovery := false } else x

/-- What a device recovery leaves of the state: everything at its reset value but what R439 keeps.  TIME registers go with the time base, GLB
identity, fuses, straps and the flash are held in PD0, the PCIe link with its interrupt masks stays up (R439; log 55). -/
def deviceReset (s : State) : State :=
  let keepReg := allRids.filter (fun r => (ridRow r).blk == .TIME)
  let regs := keepReg.foldl (fun t r => tabSet [] t (ridNum r) (tabGet [] s.regs (ridNum r))) []
  let cnts := tabSet [] [] (ridNum .HLT_CNT_DEVICE) (tabGet [] s.counters (ridNum .HLT_CNT_DEVICE))
  let sess := s.selv.sess.foldl (fun t e => tabSet SelvSess.reset t e.1 { SelvSess.reset with gen := e.2.gen, started := e.2.started }) []
  let dies := s.opt.dies.foldl (fun t e => tabSet OptDie.reset t e.1 { OptDie.reset with retain := e.2.retain, eol := e.2.eol, temp := e.2.temp }) []
  { State.reset with
    pending := s.pending, regs := regs, counters := cnts, irq := s.irq, response := s.response, outbox := s.outbox, fresh := s.fresh,
    localUs := s.localUs, timeLatch := s.timeLatch, latches := s.latches, flash := s.flash, pins := s.pins, time := s.time,
    boot := { s.boot with stage := 2, recovering := true, sections := [], readyFabric := 0, readyLong := 0, errA := 0, errB := 0, errSect := 0, fallback := false },
    pwr := (List.range 3).foldl (fun t d => tabSet ⟨.off, 0, false, none⟩ t d (domKept s d)) [],
    health := { s.health with tier := 3, startUs := s.localUs, lastEng := 0, lastCtx := 0, detectors := 0 },
    mem := { State.reset.mem with cells := s.mem.cells, ue := s.mem.ue },
    thm := { State.reset.thm with alarm := s.thm.alarm },
    selv := { Selv.reset with sess := sess },
    opt := { State.reset.opt with dies := dies } }

/-- Contexts with an open chunk, in ascending order. -/
def openContexts (s : State) : List Nat := sortBy id (dedup ((boltsWhere s (fun b => b.state != .reserved)).map (fun e => e.2.ctx)))

/-- Device recovery: aborts leave, swatches of every context with an open chunk are written, ports go link-down, optics dark; then everything
below PD0 is reset (R437, R439).  It abandons a domain recovery (R445). -/
def deviceRecover (s : State) : State :=
  if s.boot.porst ∨ s.boot.recovering ∨ s.boot.stage = 15 then s
  else
    let ks := openContexts s
    let s := s.cco.colls.foldl (fun s c => abortAll s c.panel c.id 1 .self) s
    let s := ks.foldl (fun s k => swatch s k 5 false none) s
    let s := (List.range 256).foldl linkDown s
    deviceReset (ctrInc (opticalDark s) .HLT_CNT_DEVICE 0)

/-- Domain recovery (R440, R441): a second one of a domain within 10 s is a device recovery, and so is any of PD11. -/
def domainRecover (s : State) (d : Nat) : State :=
  if s.boot.recovering then s
  else
    let x := domGet s d
    let again : Bool := match x.lastRecov with
      | some t => decide (s.localUs < t + 10000000)
      | none => false
    if again ∨ d = 11 ∨ d ≤ 1 then deviceRecover s
    else if x.state ≠ .on then s
    else
      let s := raiseEv (ctrInc s .HLT_CNT_SUBSYS 0) .HLT_EVENT 0 5
      let s := { s with health := { s.health with tier := 2, dom := d } }
      domOffStart (domSet s d { domGet s d with lastRecov := some s.localUs }) d true

/-- HLT_CMD.DOM_RECOVER: a domain that cannot be commanded is refused as PWR_DOM_CMD would be (R442, R446). -/
def domRecoverCmd (s : State) (d : Nat) : State :=
  let c := domRefusal s d true
  if d < 2 ∨ 24 ≤ d then s
  else if c ≠ 0 then domRefuse s d c
  else domainRecover s d

/-- What a pointer fault leads to: an engine fault where an engine presented it (the context at fault is not stated and free), else the recovery
of the unit's domain or of the device (R428, R440; log 78). -/
def escalate (s : State) (unit : Nat) : State :=
  if unit < 32 then
    let (c, s) := freeBelow s 16
    engineFault s unit (16 * unit + c) 4 none
  else if unit = 0x20 ∨ unit = 0x21 ∨ unit = 0x22 ∨ unit = 0x26 then raiseEv (deviceRecover s) .HLT_EVENT 0 5
  else if unit = 0x23 ∨ unit = 0x25 then domainRecover s 18
  else if unit = 0x24 then domainRecover s 17
  else if unit = 0x27 then domainRecover s 2
  else s

/-- The pointer faults presented since the last microsecond, and an uncorrectable read of the control complex store, lead to what they do (R428,
R440). -/
def escalations (s : State) : State :=
  let t := s.bob.escal.foldl escalate { s with bob := { s.bob with escal := [] }, mem := { s.mem with ctlUe := false } }
  if s.mem.ctlUe then deviceRecover t else t

/-- DOM_RECOVER: HLT_CMD bit 2. -/
def execDomRecover (req : Requester) (dom : Nat) (s : State) : Result := .next <| guardWrite s req .HLT_CMD 0 (fun s => domRecoverCmd s dom)

/-- DEV_RECOVER: HLT_CMD bit 0 (R438, R446). -/
def execDevRecover (req : Requester) (s : State) : Result := .next <| guardWrite s req .HLT_CMD 0 deviceRecover

/-- CTL_WDOG: 100 ms without a firmware heartbeat (R428, R440).  The firmware runs from the image's APPLY 0x00 on. -/
def execCtlWdog (s : State) : Result :=
  .next <|
    if s.boot.stage.toNat < 4 ∨ s.boot.stage = 15 ∨ s.boot.recovering then s
    else
      let s := deviceRecover s
      raiseEv s .HLT_EVENT 0 7

/-- DEVICE_RECOVERY_DONE: long-haul service is back (R439, R446). -/
def execDeviceRecoveryDone (s : State) : Result :=
  .next <|
    if !s.boot.recovering ∨ s.boot.stage ≠ 7 then s
    else
      let ms := (s.localUs - s.health.startUs) / 1000
      raiseEv { s with boot := { s.boot with recovering := false }, health := { s.health with tier := 0, durMs := BitVec.ofNat 16 (min ms 65535) } } .HLT_EVENT 0 6

/-! ### Port detectors (R428, R430) -/

/-- The frames of a class held for a port are discarded and counted (R430). -/
def stallFlush (s : State) (p c : Nat) : State := flushFuel p (fun f => f.cls == c) s.fab.frames.length s

/-- PORT_STALL: a class paused without a break for HLT_PORT_STALL (R430). -/
def execPortStall (port cls : Nat) (s : State) : Result :=
  .next <|
    let x := fabPort s port
    if 8 ≤ cls ∨ !x.paused.getLsbD cls ∨ x.discard.getLsbD cls ∨ s.localUs < tabGet 0 x.pausedUs cls + 1000 * regBf s .HLT_PORT_STALL 0 10 0 then s
    else
      let s := raiseEv (ctrInc s .HLT_CNT_PORT_STALL 0) .HLT_EVENT 0 3
      if regBit s .HLT_CFG 0 24 then stallFlush (fabPortSet s port { x with discard := x.discard ||| BitVec.ofNat 8 (pow2 cls) }) port cls else s

/-- Frames that have come since for a class whose frames are being discarded are discarded too (R430). -/
def stallTick (s : State) : State :=
  s.fab.ports.foldl (fun s e => if e.2.discard = 0 then s
    else (List.range 8).foldl (fun s c => if e.2.discard.getLsbD c then stallFlush s e.1 c else s) s) s

/-- TX_HANG: a port with its link up has had an eligible class, whose frame came at least that long ago, for 1 ms without starting a frame (R430,
R440). -/
def execTxHang (port : Nat) (s : State) : Result :=
  .next <|
    if !portCarries s port ∨ s.localUs < (fabPort s port).lastTxUs + 1000 ∨ !((List.range 8).any (fun c => (classHead s port c 0).any (fun h => decide (h.2.arrUs + 1000 ≤ s.localUs)))) then s
    else domainRecover (raiseEv s .HLT_EVENT 0 4) (portDom port)

end Sys2Proof.Machine
end

