-- ==== Sys2Proof/Machine/Span.lean ====
section
/-! DEFINITION. The span (05_levels_and_span, 09_selvedge_transport): span windows (R184-R187), chunks delivered to Level 3 (R172, R295). -/

namespace Sys2Proof.Machine

/-! ### Span windows (R184-R187) -/

/-- Sets a span window. -/
def spwSet (s : State) (g : Nat) (x : Spw) : State := { s with spw := tabSet ⟨false, false, false, 0, 0⟩ s.spw g x }

/-- The registers of a span window. -/
def spwRids : List Rid := [.TM_SPW_CTRL, .TM_SPW_BASE_NS, .TM_SPW_BASE_SEC_LO, .TM_SPW_BASE_SEC_HI, .TM_SPW_CYCLE, .TM_SPW_OPEN]

/-- T0 of a window in ns. -/
def spwBase (s : State) (g : Nat) : Nat :=
  (regBf s .TM_SPW_BASE_SEC_HI g 15 0 * pow2 32 + (regGet s .TM_SPW_BASE_SEC_LO g).toNat) * 1000000000 + regBf s .TM_SPW_BASE_NS g 29 0

/-- A value of a window's register takes effect; ARM set arms it, with LATE_ARM where T0 is past (R184, R187). -/
def spwApply (s : State) (r : Rid) (g : Nat) (v : Word) : State :=
  let s := regSet s r g v
  if r ≠ .TM_SPW_CTRL then s
  else
    let x := spw s g
    if bit v 0 && !x.armed then
      let s := spwSet s g { x with armed := true, opened := false }
      if spwBase s g < nowNs s then raiseEv s .TM_SPW_EVENT g 2 else s
    else if !bit v 0 then spwSet s g { x with armed := false }
    else s

/-- A write to a window's register: in effect at once while it is not armed, at its next cycle start otherwise (R187, R399). -/
def spwWrite (s : State) (r : Rid) (g : Nat) (v : Word) : State :=
  let old := rwsBase s r g
  let v' := acceptWord r old v
  let bad := (r = .TM_SPW_OPEN ∧ bf (rwsBase s .TM_SPW_CYCLE g) 26 0 < bf v' 26 0)
  if bad then s else rwsPut s r g v' (!(spw s g).armed && !(spw s g).isOpen) (fun s v => spwApply s r g v)

/-- Segments of a session that wait for a window. -/
def waitsFor (s : State) (k g : Nat) : Bool :=
  let x := selvGet s k
  (x.openSeg.toList ++ x.queue).any (fun d => d.win == some g) || x.held.any (fun h => h.due && h.seg.win == some g)

/-- A collective whose span names a window has segments waiting for it. -/
def collWaits (s : State) (c : Coll) (g : Nat) : Bool :=
  match c.span with
  | some q => q.spw == g && (peerSites q).any (fun j => waitsFor s (q.sessBase + j) g)
  | none => false

/-- SPAN_WINDOW_OPEN: an armed window's opening; held writes apply at its cycle start; it does not open while the time base has never locked
(R184-R187). -/
def execSpanWindowOpen (win : Nat) (s : State) : Result :=
  .next <|
    if 16 ≤ win ∨ !domOn s 11 then s
    else
      let s := if (spw s win).isOpen then s else spwRids.foldl (fun s r => applyHeld s r win (fun s v => spwApply s r win v)) s
      let x := spw s win
      if !x.armed ∨ x.isOpen ∨ !s.time.everLocked then s
      else
        let t := instantAt (spwBase s win) (8 * regBf s .TM_SPW_CYCLE win 26 0) (nowNs s)
        let s := spwSet s win { x with isOpen := true, opened := true, since := t, openFor := 8 * regBf s .TM_SPW_OPEN win 26 0 }
        let s := ctrInc s .TM_SPW_CNT_OPEN win
        let s := if x.opened then s else raiseEv s .TM_SPW_EVENT win 0
        let own := regBf s .TM_SPW_CTRL win 11 8
        if s.cco.colls.any (fun c => c.panel != own && collWaits s c win) then raiseEv s .TM_SPW_EVENT win 3 else s

/-- Open segments that wait for a window are sealed as it closes (R285). -/
def sealAll (s : State) (win : Nat) : State :=
  (tabKeys s.selv.sess).foldl (fun s k => if (selvGet s k).openSeg.any (fun g => g.win == some win) then sealOpen s k else s) s

/-- SPAN_WINDOW_CLOSE: LEFTOVER where segments remain queued (R185, R187). -/
def execSpanWindowClose (win : Nat) (s : State) : Result :=
  .next <|
    let x := spw s win
    if !x.isOpen then s
    else
      let s := spwSet (sealAll s win) win { x with isOpen := false }
      let own := regBf s .TM_SPW_CTRL win 11 8
      if s.cco.colls.any (fun c => c.panel == own && collWaits s c win) then raiseEv s .TM_SPW_EVENT win 1 else s

/-! ### Chunks delivered (R172, R286, R295) -/

/-- Bytes of the first chunk that `bs` starts with: of PLEAT by its own prefix, of another format the collective's whole chunk (R192, R204, R285). -/
def spanChunkBytes (c : Coll) (fmt : Nat) (bs : List Byte) : Nat := if fmt = 10 then pleatPartBytes bs else valueBytes fmt c.chunkElems

/-- The count that a peer's contribution has to have, and the one it gives the chunk (R126, R170): the chunk's own where it is known, for the bucket's
last chunk perhaps only at the site's Level 2 stage; otherwise the one its bytes have, which for PLEAT is known in whole blocks only. -/
def spanWant (s : State) (c : Coll) (b : Bolt) (fmt : Nat) (bs : List Byte) : Nat × Nat :=
  if b.chunk + 1 ≠ c.bucketChunks ∨ b.fixed then (b.elems, b.elems)
  else match chunkBolt s c.panel c.id 1 b.epoch b.chunk with
  | some (_, x) => if x.fixed then (x.elems, x.elems) else
      if fmt = 10 then (min c.chunkElems (256 * leField bs 2 2), 0) else bySize
  | none => if fmt = 10 then (min c.chunkElems (256 * leField bs 2 2), 0) else bySize
where
  /-- The count that values of a size have. -/
  bySize : Nat × Nat :=
    let n := ((List.range (c.chunkElems + 1)).find? (fun n => n != 0 && valueBytes fmt n == bs.length)).getD 0
    (n, n)

/-- The bytes hold a chunk's count of elements (R170, R190). -/
def spanFits (fmt want : Nat) (bs : List Byte) : Bool :=
  decide (want ≠ 0) && (if fmt = 10 then leField bs 2 2 == (want + 255) / 256 else bs.length == valueBytes fmt want)

/-- What a chunk delivered has arrived in is bound to bobbins like any received frame, unless its blocks have already been copied (R207, R257). -/
def spanBind (s : State) (k i n : Nat) : State :=
  match (boltGet s k).bind (fun b => b.msgs.find? (fun m => m.index == i)) with
  | none => s
  | some m =>
    if m.dbob.isSome ∨ m.cells ≠ 0 ∨ !m.handles.isEmpty then s
    else
      let sizes := (List.range ((n + 8191) / 8192)).map (fun j => min 8192 (n - 8192 * j))
      let (hs, s) := sizes.foldl (fun a z =>
        let (h, s) := bobTake a.2 (frameSpool (80 + z)) false
        (a.1 ++ h.toList, s)) (([] : List Word), cellsTake s (cellsOf n))
      msgMod s k i (fun m => { m with handles := hs, cells := cellsOf n })

/-- A peer's contribution reaches the Level 3 stage; none where the stage does not yet hold its reservation, or no context has room for its chunk
(R172, R295). -/
def spanContrib (s : State) (p : Nat) (id : Word) (k e chunk fmt : Nat) (fl : Byte) (bs : List Byte) : Option State :=
  let gone := ctrInc s .SELV_CNT_NO_COLL 0
  match collFind s p id with
  | none => some gone
  | some c => match c.span with
    | none => some gone
    | some q =>
      let j := k - q.sessBase
      if k < q.sessBase ∨ !(peerSites q).contains j then some gone
      else if (epochFind c e).isNone ∧ (c.aborted.any (fun a => a.1 == e) ∨ e < c.nextEpoch) then some gone
      else match chunkBolt s p id 2 e chunk with
      | none =>
        let ended := match epochFind c e with
          | some x => x.ended.contains (2, chunk)
          | none => false
        if ended then some (ccoCount s .CCO_CNT_DUP p 0) else none
      | some (i, b) =>
        let (want, n) := spanWant s c b fmt bs
        let s := openEpoch s p id e false
        if fmt ≠ q.fmt then some (raiseEv s .SEAM_CTX_EVENT b.ctx 4)
        else if fmt = 10 ∧ !pleatPartOk s bs then
          some (raiseEv (raiseEv (ctrInc s .PLT_CNT_CB_MISMATCH 0) .PLT_EVENT 0 1) .SEAM_CTX_EVENT b.ctx 4)
        else if !spanFits fmt want bs then some (raiseEv s .SEAM_CTX_EVENT b.ctx 4)
        else
          let chalk := match chunkBolt s p id 1 e chunk with
            | some (_, b) => b.chalk
            | none => b.chalk
          let frag : Frag := ⟨0, want, fmt, bs⟩
          let data := if fmt = 10 then ⟨10, [], [], [], []⟩ else readMsg [frag] false
          (localContrib s i (localMsg j fmt want false (fl &&& 0x1F) [frag] data) n 0 false chalk).map (fun s => spanBind s i j bs.length)

/-- Chunk `n` of a segment not yet delivered: its index, its flags, its bytes.  The last one has what is left. -/
def segChunk (s : State) (p : Nat) (g : StoredSeg) (n : Nat) : Nat × Byte × List Byte :=
  let l := (List.range 16).filter (fun i => g.hdr.present.getLsbD i)
  let size := fun (bs : List Byte) => match collFind s p g.hdr.coll with
    | some c => spanChunkBytes c g.hdr.fmt bs
    | none => bs.length
  let rest := (List.range n).foldl (fun bs _ => bs.drop (size bs)) g.payload
  (g.hdr.firstChunk + l.getD n 0, g.hdr.cflags.getD n 0, if n + 1 < l.length then rest.take (size rest) else rest)

/-- Chunks of a segment. -/
def segChunks (g : StoredSeg) : Nat := ((List.range 16).filter (fun i => g.hdr.present.getLsbD i)).length

/-- The segment at RCVNXT has been delivered. -/
def segDone (s : State) (k : Nat) (g : StoredSeg) : State :=
  let x := selvGet s k
  selvSet s k { x with store := x.store.filter (fun h => h.seq != g.seq), rcvNxt := x.rcvNxt + 1, dlv := 0 }

/-- SPAN_CHUNK_DELIVER: the next chunk of the in-order segment is delivered, or the next part of a split chunk joined; behind a chunk that
waits for its reservation everything of the session waits (R172, R286, R294, R295). -/
def execSpanChunkDeliver (sess : Nat) (s : State) : Result :=
  .next <|
    let x := selvGet s sess
    let p := sessPanelNo s sess
    if sessKind s sess ≠ 0 ∨ !sessValid s sess ∨ !domOn s 18 then s
    else match x.store.find? (fun g => g.seq == x.rcvNxt) with
    | none => s
    | some g =>
      if 1 < g.hdr.npart then
        let bs := (if g.hdr.part = 0 then [] else x.parts) ++ g.payload
        if g.hdr.part + 1 < g.hdr.npart then segDone (selvSet s sess { x with parts := bs }) sess g
        else match spanContrib s p g.hdr.coll sess g.hdr.epoch g.hdr.firstChunk g.hdr.fmt (g.hdr.cflags.getD 0 0) bs with
          | some s => segDone (selvSet s sess { selvGet s sess with parts := [] }) sess g
          | none => s
      else
        let (chunk, fl, bs) := segChunk s p g x.dlv
        match spanContrib s p g.hdr.coll sess g.hdr.epoch chunk g.hdr.fmt fl bs with
        | none => s
        | some s =>
          if x.dlv + 1 < segChunks g then selvSet s sess { selvGet s sess with dlv := x.dlv + 1 } else segDone s sess g

end Sys2Proof.Machine
end

