-- ==== Sys2Proof/Machine/TimeCmd.lean ====
section
/-! DEFINITION. The commands of the time base (13_time_service). -/

namespace Sys2Proof.Machine

/-- A panel has an armed gate schedule: a span window armed, or a port's gate list running (R186, R240, R385). -/
def scheduleArmed (s : State) : Bool := s.spw.any (fun e => e.2.armed) || s.fab.ports.any (fun e => e.2.gates.running)

/-- TIME_CMD.RESTEP: back to ACQUIRE, and no time is served to PTP before the next TRACKING; refused with RESTEP_REFUSED while a schedule is
armed (R385, R388). -/
def restepCmd (s : State) : State :=
  if scheduleArmed s then raiseEv s .TIME_EVENT 0 4
  else
    let s := enterAcquire s
    { s with time := { s.time with noServe := true } }

/-- RESTEP (R385). -/
def execRestep (req : Requester) (s : State) : Result := .next <| guardWrite s req .TIME_CMD 0 restepCmd

/-- A value of TIME_CFG is held until the next 1 µs tick (R385, R399); REF_SRC 11b is not accepted (R393). -/
def timeCfgWrite (s : State) (v : Word) : State := heldSet s .TIME_CFG 0 (some (acceptWord .TIME_CFG (rwsBase s .TIME_CFG 0) v))

/-- TIME_CFG_WRITE (R385). -/
def execTimeCfgWrite (req : Requester) (value : Word) (s : State) : Result :=
  .next <| guardWrite s req .TIME_CFG 0 (fun s => timeCfgWrite s value)

/-- A read of TIME_NOW_FRAC: the fraction, with the nanoseconds and seconds latched (R379, R393). -/
def timeNowRead (s : State) : State :=
  answer { s with timeLatch := (BitVec.ofNat 64 (nowStampSec s % pow2 48), BitVec.ofNat 32 (nowStampNs s)) } (BitVec.ofNat 32 (nowFrac s))

/-! ### PTP messages of master ports (R386, R388, R390) -/

/-- The frame of a PTP message of `n` bytes at a port: the headers of its transport and the FCS about the message, whose contents no register gives;
over IPv6 two bytes more (R386, R390; log 85). -/
def ptpFrame (s : State) (port n : Nat) : List Byte :=
  let size := match regBf s .TIME_PORT_CFG port 2 1 with
    | 0 => 42 + n
    | 1 => 62 + n + 2
    | _ => 14 + n
  (List.range (size + 4)).map Config.headerByte

/-- A PTP message that carries no departure time of its own joins the TC6 queue of its port (R234, R386); where the port is disabled it is dropped and
counted as in `emitNet`. -/
def emitPtp (s : State) (port n : Nat) (out : Out) : State :=
  let f : Frame :=
    { inp := 0x300 + portPanel s port, cls := 6, dests := [port], data := ptpFrame s port n, bad := false, arrUs := s.localUs, handle := none, cells := 0,
      own := some out, res := none }
  if destOk s (portPanel s port) port then { s with fab := { s.fab with frames := s.fab.frames ++ [f] } }
  else ctrInc s .SW_CNT_NO_ENTRY 0

/-- DELAY_REQ on a master port: answered with a Delay_Resp while the gateway serves, dropped before (R388, R390). -/
def execDelayReq (port domain seq sender phase : Nat) (s : State) : Result :=
  .next <|
    if ptpServing s && ptpRole s port == 6 && domain == timeDomain s then
      emitPtp s port 54 (.ptpDelayResp port seq sender (ingressStamp s port phase))
    else s

/-- PTP_SYNC_SEND: a master port sends one-step Sync and Announce while the gateway serves.  The command is the instant at which the Sync crosses the
timestamp point; the Announce waits for its turn on TC6 (R234, R388, R390; log 85). -/
def execPtpSyncSend (port phase : Nat) (s : State) : Result :=
  .next <|
    if ptpServing s && ptpRole s port == 6 then
      let d := ptpPort s port
      let s := ptpPortSet s port { d with seq := (d.seq + 1) % 65536 }
      emitPtp (send s (.ptpSync port d.seq (egressStamp s port phase))) port 64 (.ptpAnnounce port d.seq (announceData s) s.time.utc)
    else s

end Sys2Proof.Machine
end

