-- ==== Sys2Proof/Machine/Writes.lean ====
section
/-! DEFINITION. Writes on the register bus (14_registers_and_pattern, R394-R404): what a word written to an address does. -/

namespace Sys2Proof.Machine

/-- The state a meaning leaves; where it stops, the state before. -/
def after (f : State → Result) (s : State) : State :=
  match f s with
  | .next t => t
  | _ => s

/-! ### Registers without a row of their own -/

/-- The unit a register belongs to is idle, so that its boundary is reached at once (R399); registers that wait for the next 1 µs tick
are never idle (log 59). -/
def rwsIdle (s : State) (r : Rid) (i : Nat) : Bool :=
  match r with
  | .FPORT_PCP_MAP | .FPORT_DSCP_MAP | .SW_CT => true
  | .TM_SCH_WT => !queueBusy s (i / 5) (i % 5)
  | .SEAM_CTX_ARITH | .PLT_CTX_CB => ctxIdle s i
  | .CCO_CFG | .CCO_UDP_PORT => s.cco.colls.all (fun c => c.epochs.isEmpty)
  | .CCO_MISS_CFG | .CCO_SLG_CFG =>
    s.cco.colls.all (fun c => (i / ridCount r != pfView && c.panel != i / ridCount r) || c.epochs.isEmpty)
  | .SELV_SESS_PEER | .SELV_SESS_RTT | .SELV_SESS_WIN | .SELV_SESS_STALL | .THM_SESS_CFG => (selvGet s i).state == .closed
  | .SELV_ACK_CFG | .SELV_PACK_HOLD => s.selv.sess.all (fun e => e.2.state == .closed)
  | .LINE_GRP_PROT | .LINE_GRP_SKEW_BUF => (members s i).isEmpty
  | _ => false

/-- A register's new value takes effect, with what follows from it. -/
def rwsTake (s : State) (r : Rid) (i : Nat) (v : Word) : State :=
  match r with
  | .TM_SHP_CTRL | .TM_SHP_RATE | .TM_SHP_BURST => tmShpApply s r i v
  | .TM_SPW_CTRL | .TM_SPW_BASE_NS | .TM_SPW_BASE_SEC_LO | .TM_SPW_BASE_SEC_HI | .TM_SPW_CYCLE | .TM_SPW_OPEN => spwApply s r i v
  | .SEAM_CTX_BIND => bindApply s i v
  | .LINE_CH_CFG => lineChApply s i v
  | .OPT_BAND => bandApply s i v
  | .OPT_CH_CTRL => chCtrlApply s i v
  | .FPORT_CTRL => fportCtrlApply s i v
  | .TIME_CFG => timeCfgApplied (regSet s .TIME_CFG i v) (regGet s .TIME_CFG i)
  | _ => regSet s r i v

/-- A write by access code (R18, R19, R399). -/
def plainWrite (s : State) (r : Rid) (i : Nat) (v : Word) : State :=
  match (ridRow r).acc with
  | .rw => regSet s r i (acceptWord r (regGet s r i) v)
  | .rws => rwsPut s r i (acceptWord r (rwsBase s r i) v) (rwsIdle s r i) (fun s v => rwsTake s r i v)
  | .sqc => sqcClear s r i v
  | _ => s

/-- A P-marked Coordinator setting written in the physical function's view is written for every panel as well (R161, log 58). -/
def ccoSetting (s : State) (r : Rid) (i : Nat) (v : Word) : State :=
  if i = pfView then (List.range 17).foldl (fun s k => plainWrite s r k v) s else plainWrite s r i v

/-- A word of a group's standby pages or their generation: what has been committed is then a pair of pages written in part, which is never used (R322;
log 84). -/
def cmStandbyWrite (s : State) (r : Rid) (i g : Nat) (v : Word) : State :=
  let s := plainWrite s r i v
  let x := lineGrp s g
  if x.sbValid then lineGrpSet s g { x with sbValid := false, txWait := false, rxWait := false, nextGen := 0 } else s

/-- LINE_GRP_SKEW_BUF: not accepted where all groups together would exceed the skew region (R325). -/
def skewBufWrite (s : State) (g : Nat) (v : Word) : State :=
  let w := acceptWord .LINE_GRP_SKEW_BUF (rwsBase s .LINE_GRP_SKEW_BUF g) v
  let sum := ((List.range 64).map (fun k => if k = g then bf w 9 0 else bf (rwsBase s .LINE_GRP_SKEW_BUF k) 9 0)).sum
  if s.mem.skewGiB * 16 < sum then s else plainWrite s .LINE_GRP_SKEW_BUF g v

/-- SW_PANEL_CELLS: not accepted below the limits the panel's ports hold, which is refused both as a limit and as a quota (R224, R402, log 56). -/
def panelCellsWrite (s : State) (n : Nat) (v : Word) : State :=
  let used := (tabGet [] s.regs (ridNum .SW_LIMIT)).foldl (fun a (e : Nat × Word) => if portPanel s (e.1 / 8) = n then a + bf e.2 18 0 else a) 0
  let w := acceptWord .SW_PANEL_CELLS (regGet s .SW_PANEL_CELLS n) v
  if bf w 18 0 < used then raiseEv (raiseEv s .SW_EVENT 0 0) .GLB_EVENT 0 1
  else
    let t := regSet s .SW_PANEL_CELLS n w
    if w = regGet s .SW_PANEL_CELLS n then t else raiseEv t .PNL_EVENT n 3

/-- PLT_PANEL_MAXQ: not accepted below the blocks the panel has queued; held until the next 1 µs tick (R212, R399, R402, log 56). -/
def maxqWrite (s : State) (n : Nat) (v : Word) : State :=
  let w := acceptWord .PLT_PANEL_MAXQ (rwsBase s .PLT_PANEL_MAXQ n) v
  if bf w 9 0 < (s.plt.enc.filter (fun q => q.panel == n)).length then raiseEv s .GLB_EVENT 0 1
  else
    let t := heldSet s .PLT_PANEL_MAXQ n (some w)
    if w = rwsBase s .PLT_PANEL_MAXQ n then t else raiseEv t .PNL_EVENT n 3

/-- SEAM_CTX_BIND: held, and applied at once while the context has no open chunk (R117). -/
def ctxBindWrite (s : State) (k : Nat) (v : Word) : State :=
  after (execCtxBindApply k) (heldSet s .SEAM_CTX_BIND k (some (acceptWord .SEAM_CTX_BIND (rwsBase s .SEAM_CTX_BIND k) v)))

/-- SEAM_CTX_ARITH: the pending value of a field whose new value is not accepted is kept (R71, R72). -/
def ctxArithWrite (s : State) (k : Nat) (v : Word) : State :=
  let old := rwsBase s .SEAM_CTX_ARITH k
  let f := bf v 11 8
  let bad := f = 3 ∨ f = 4 ∨ f = 5 ∨ 10 ≤ f
  let v := if bad then putBf v 11 8 (bf old 11 8) else v
  let v := if bf v 3 2 = 0 then putBf v 3 2 (bf old 3 2) else v
  plainWrite s .SEAM_CTX_ARITH k v

/-! ### Commands -/

/-- PLT_CMD: LOAD, CLEAR, and other values refused (R212). -/
def pltDoorbell (s : State) (req : Requester) (v : Word) : State :=
  match bf v 7 0 with
  | 1 => after (execPltLoad req (bf v 15 8)) s
  | 2 => after (execPltClear req (bf v 15 8)) s
  | _ => { s with plt := { s.plt with result := if s.plt.busy then 3 else 1 } }

/-- HLT_CMD: DEV_RECOVER, UNFENCE, DOM_RECOVER (R436, R438, R440, R446).  The engine's self-test that UNFENCE runs passes or fails freely
(log 58). -/
def hltCmd (s : State) (req : Requester) (v : Word) : State :=
  let s := if bit v 1 then
      let (n, s) := freeBelow s 2
      after (execUnfence req (bf v 20 16) (n == 1)) s
    else s
  let s := if bit v 2 then domRecoverCmd s (bf v 28 24) else s
  if bit v 0 then deviceRecover s else s

/-- Two bits of a command register, the first before the second. -/
def twoBits (s : State) (v : Word) (f g : State → State) : State :=
  let s := if bit v 0 then f s else s
  if bit v 1 then g s else s

/-- A word of a wrapped key load (R370); i counts 14 words for each group. -/
def kldWord (s : State) (i : Nat) (v : Word) : State :=
  let q := keyGroup s (i / 14)
  keyGroupSet s (i / 14) { q with words := tabSet 0 q.words (i % 14) v }

/-- What a word written to a register does (R18, R394-R404). -/
def regWrite (s : State) (req : Requester) (r : Rid) (i : Nat) (v : Word) : State :=
  match r with
  | .GLB_PANEL_CFG => panelCfgWrite s i v
  | .PWR_DOM_CMD => domCmd s i v
  | .SEC_CMD => if bit v 0 then raiseMinver s else s
  | .SEC_FLASH_CMD => flashCmd s (bf v 7 0)
  | .THM_KLD_W => kldWord s i v
  | .THM_KLD_CMD => if bit v 0 then goCmd s i else s
  | .THM_SESS_CMD => twoBits s v (fun s => switchCmd s i) (fun s => clearRetiredCmd s i)
  | .TIME_CFG => timeCfgWrite s v
  | .TIME_CMD => if bit v 0 then restepCmd s else s
  | .FPORT_QD_MODE => after (execFportQdModeWrite req i v) s
  | .FPORT_CTRL => after (execFportCtrlWrite req i v) s
  | .SW_PANEL_CELLS => panelCellsWrite s i v
  | .SW_FDB_CMD => twoBits s v (after (execFdbWrite req)) (after (execFdbDelete req))
  | .SW_LIMIT => after (execSwLimitWrite req false (i / 8) (i % 8) v) s
  | .SW_PFC => after (execSwLimitWrite req true (i / 8) (i % 8) v) s
  | .TM_POL_CTRL => after (execTmPolWrite req 0 (i / 8) (i % 8) v) s
  | .TM_POL_RATE => after (execTmPolWrite req 1 (i / 8) (i % 8) v) s
  | .TM_POL_BURST => after (execTmPolWrite req 2 (i / 8) (i % 8) v) s
  | .TM_SHP_CTRL => after (execTmShpWrite req 0 (i / 8) (i % 8) v) s
  | .TM_SHP_RATE => after (execTmShpWrite req 1 (i / 8) (i % 8) v) s
  | .TM_SHP_BURST => after (execTmShpWrite req 2 (i / 8) (i % 8) v) s
  | .TM_SPW_CTRL | .TM_SPW_BASE_NS | .TM_SPW_BASE_SEC_LO | .TM_SPW_BASE_SEC_HI | .TM_SPW_CYCLE | .TM_SPW_OPEN => spwWrite s r i v
  | .TM_GCL_CMD => twoBits s v (after (execGclCommit req i)) (after (execGclStop req i))
  | .BAST_CIRC_CFG => after (execBastCircCfgWrite req i v) s
  | .BAST_RX_CFG => after (execBastRxCfgWrite req i v) s
  | .SEAM_SP_DATA => after (execSpDataWrite req ⟨i, none⟩ v) s
  | .SEAM_SLOT_CTRL => slotCtrl s i v
  | .SEAM_SLOT_SBCFG | .SEAM_SLOT_SBCRC => slotWrite s r i i v
  | .SEAM_SB_PAGE => slotWrite s r i (i / 512) v
  | .SEAM_CTX_ARITH => ctxArithWrite s i v
  | .SEAM_CTX_BIND => ctxBindWrite s i v
  | .CCO_CMD => ccoDoorbell s i (bf v 7 0)
  | .CCO_MISS_CFG | .CCO_SLG_CFG => ccoSetting s r i v
  | .PLT_CMD => pltDoorbell s req v
  | .PLT_PANEL_MAXQ => maxqWrite s i v
  | .MEM_PANEL_QUOTA => quotaWrite s i v
  | .SELV_SESS_CFG => after (execSelvSessCfgWrite req i v) s
  | .SELV_SESS_CTRL => (match bit v 0, bit v 1 with
    | true, false => openRequest s i
    | false, true => closeStart s i true
    | _, _ => s)
  | .SELV_TWIN_CFG => twinCfgWrite s v
  | .SELV_TWIN_CMD => if bit v 0 then after (execTakeover req) s else s
  | .LINE_GRP_CFG => after (execLineGrpCfgWrite req i v) s
  | .LINE_GRP_SKEW_BUF => skewBufWrite s i v
  | .LINE_CM_TX_SB | .LINE_CM_RX_SB => cmStandbyWrite s r i (i / 640) v
  | .LINE_GRP_CM_SBGEN => cmStandbyWrite s r i i v
  | .LINE_GRP_CM_CTRL => twoBits s v (after (execCmCommit req i)) (after (execCmClear req i))
  | .LINE_CH_CFG => after (execLineChCfgWrite req i v) s
  | .LINE_CH_CMD => twoBits s v (after (execMemberAdd req i)) (after (execMemberRemove req i))
  | .OPT_BAND => after (execOptBandWrite req i v) s
  | .OPT_FIT_CMD => if bit v 0 then after (execRefit req i) s else s
  | .OPT_CH_CTRL => after (execOptChCtrlWrite req i v) s
  | .OPT_CH_LOS_THR => after (execOptChLosThrWrite req i v) s
  | .OPT_CH_CMD => if bit v 0 then after (execCalCommand req i) s else s
  | .DBG_PNL_OBS => obsWrite s i v
  | .BIST_CMD => bistCmd s v
  | .HLT_CMD => hltCmd s req v
  | .PNL_CTRL => if bit v 0 then panelReset s i else s
  | _ => plainWrite s r i v

/-! ### The bus -/

/-- In safe state, and before the image is applied, the GLB registers take SQC clears alone (R410, R425). -/
def glbClosed (s : State) : Bool := safeState s || decide (s.boot.stage.toNat < 4)

/-- The write reaches a copy that is read-only: MEM_PANEL_QUOTA in a panel window (R403). -/
def readOnlyCopy (req : Requester) (addr : Nat) (r : Rid) : Bool :=
  r == .MEM_PANEL_QUOTA && (match req with
    | .vf _ => true
    | _ => (windowPanel addr).isSome)

/-- A word written to an address by a requester (R394-R404): nothing without a link; a bus error outside what is implemented for the
requester and in every alias page. -/
def busWrite (s : State) (req : Requester) (addr : Nat) (v : Word) : State :=
  if !reqLink s req then s
  else if addr % 4 ≠ 0 then busError s req addr true
  else match target req addr with
  | .reg r i _ =>
    if !addrHas s req addr r i then busError s req addr true
    else if readOnlyCopy req addr r || ((ridRow r).blk == .GLB && glbClosed s && (ridRow r).acc != .sqc) then s
    else regWrite s req r i v
  | .aperture view off => aptWrite s req addr view off v
  | .shadow _ _ => busError s req addr true
  | .none => busError s req addr true

/-- REGISTER_WRITE: a write to a register that has no row of its own (R18). -/
def execRegisterWrite (req : Requester) (addr : Nat) (value : Word) (s : State) : Result := .next (busWrite s req addr value)

/-- RWS_WRITE: the value is held as the whole register and replaces any earlier one (R399). -/
def execRwsWrite (req : Requester) (addr : Nat) (value : Word) (s : State) : Result := .next (busWrite s req addr value)

/-- SQC_WRITE: the event bits set as of SEQ clear when [31:24] equals SEQ (R18). -/
def execSqcWrite (req : Requester) (addr : Nat) (value : Word) (s : State) : Result := .next (busWrite s req addr value)

/-- APERTURE_WRITE: a device word is stored through the HBM aperture (R271). -/
def execApertureWrite (req : Requester) (addr : Nat) (value : Word) (s : State) : Result := .next (busWrite s req addr value)

/-- MALFORMED_ACCESS: an access other than one aligned word is a bus error; the host sees a completer abort on a read, a control core an access fault
on either (R396). -/
def execMalformedAccess (req : Requester) (addr : Nat) (write : Bool) (s : State) : Result :=
  .next <|
    if !reqLink s req then s
    else if write ∧ req ≠ .ctl then busError s req addr true
    else { busError s req addr write with response := .busError }

/-- RWS_APPLY: the boundary of the register at an address is reached, and its held value takes effect (R399).  A bind waits for its open
chunks (R117), a span window's registers for its next cycle start (R187). -/
def execRwsApply (addr : Nat) (s : State) : Result :=
  .next <|
    match target .pf addr with
    | .reg r i false =>
      if r = .SEAM_CTX_BIND then after (execCtxBindApply i) s
      else if (r ∈ spwRids) ∧ (spw s i).isOpen then s
      else applyHeld s r i (fun s v => rwsTake s r i v)
    | _ => s

end Sys2Proof.Machine
end

