-- ==== Sys2Proof/Machine/Pattern.lean ====
section
/-! DEFINITION. The Pattern image (14_registers_and_pattern, R416-R422): its layout, its checks, and what applying its sections does. -/

namespace Sys2Proof.Machine

/-! ### The image's bytes (R416-R418) -/

/-- First byte of a slot (R416). -/
def slotBase (b : Bool) : Nat := if b then 0x2000000 else 0

/-- The header of a slot's image. -/
def patHdr (s : State) (b : Bool) : List Byte := flashBytes s (slotBase b) 256

/-- IMAGE_LEN. -/
def patLen (h : List Byte) : Nat := leField h 8 4
/-- NSECT. -/
def patSects (h : List Byte) : Nat := leField h 12 4
/-- VERSION. -/
def patVersionOf (h : List Byte) : Word := leWord h 16
/-- PK_OFF. -/
def patPk (h : List Byte) : Nat := leField h 28 4
/-- SIG_OFF. -/
def patSig (h : List Byte) : Nat := leField h 32 4

/-- Entry `i` of a slot's section table (R418). -/
def sectEntry (s : State) (b : Bool) (i : Nat) : List Byte := flashBytes s (slotBase b + 256 + 32 * i) 32

/-- An entry's OFFSET. -/
def sectOff (e : List Byte) : Nat := leField e 4 4
/-- An entry's LENGTH. -/
def sectLen (e : List Byte) : Nat := leField e 8 4

/-- The bytes of a section. -/
def sectBytes (s : State) (b : Bool) (e : List Byte) : List Byte := flashBytes s (slotBase b + sectOff e) (sectLen e)

/-- MAGIC, FORMAT and HDR_LEN are right, the reserved fields zero (R417, check 0x02). -/
def hdrOk (h : List Byte) : Bool :=
  decide (leField h 0 4 = 0x50545A56) && decide (leField h 4 2 = 1) && decide (leField h 6 2 = 256) && (slice h 21 1 ++ slice h 68 188).all (· == 0)

/-- The bytes a section occupies: whole 64 B units (R418). -/
def sectUnits (e : List Byte) : Nat := (sectLen e + 63) / 64 * 64

/-- Sections lie in ascending OFFSET from `lo` on, in whole 64 B units, and end by `hi`; reserved bytes are zero (R418). -/
def sectsFit (hi : Nat) : Nat → List (List Byte) → Bool
  | lo, [] => decide (lo ≤ hi)
  | lo, e :: es =>
    decide (sectOff e % 64 = 0) && decide (lo ≤ sectOff e) && (slice e 3 1 ++ slice e 16 16).all (· == 0) && sectsFit hi (sectOff e + sectUnits e) es

/-- IMAGE_LEN, TABLE_OFF, PK_OFF, SIG_OFF, NSECT and the section table are consistent (R417, R418, check 0x03; log 58). -/
def lensOk (s : State) (b : Bool) (h : List Byte) : Bool :=
  let n := patSects h
  decide (patLen h ≤ 33554432) && decide (1 ≤ n ∧ n ≤ 256) && decide (leField h 24 4 = 256) && decide (patSig h + 4627 = patLen h) &&
  decide (patPk h + 2592 ≤ patSig h) && sectsFit (patPk h) (256 + 32 * n) ((List.range (min n 256)).map (sectEntry s b))

/-- PART and VARIANTS fit the device (R417, check 0x04). -/
def partOk (s : State) (h : List Byte) : Bool :=
  let v := leField h 22 2
  decide (leField h 20 1 = 0x72) && v.testBit s.boot.variant.toNat && !v.testBit 0

/-- The sections of a slot, in table order. -/
def patSections (s : State) (b : Bool) : List Section :=
  (List.range (patSects (patHdr s b))).map (fun i =>
    let e := sectEntry s b i
    ⟨leField e 0 2, leField e 2 1, sectBytes s b e⟩)

/-- The first section whose CRC does not match (check 0x08). -/
def crcFails (s : State) (b : Bool) : Option Nat :=
  (List.range (patSects (patHdr s b))).find? (fun i =>
    let e := sectEntry s b i
    crc32c (sectBytes s b e) != leWord e 12)

/-- A TYPE is defined, with an APPLY that is defined for it (R418, R419). -/
def typeOk (x : Section) : Bool :=
  match x.typ with
  | 1 | 3 | 4 | 5 | 7 => decide (x.apply = 0)
  | 2 => decide (x.apply ≤ 3)
  | 6 => decide (x.apply = 1)
  | 8 => decide (x.apply = 3)
  | _ => false

/-- Every TYPE and APPLY is defined, and FIRMWARE, MEMLAYOUT and SPOOLS appear once each (check 0x09). -/
def typesOk (l : List Section) : Bool :=
  l.all typeOk && [1, 3, 4].all (fun t => decide ((l.filter (fun x => x.typ == t)).length = 1))

/-! ### Contents of a section, checked and applied (R419, R420) -/

/-- A domain that the image names is powered (R425). -/
def domOnNow (s : State) (d : Nat) : State :=
  let s := domOnCmd s d
  match (domGet s d).state with
  | .starting => raiseEv (domReturn (domSet s d { domGet s d with state := .on }) d) .PWR_EVENT 0 1
  | _ => s

/-- A register took what was written to it: every writable field holds it, and a scratch word was not refused (R420). -/
def regTook (s t : State) (r : Rid) (i : Nat) (v : Word) : Bool :=
  if r = .SEAM_SP_DATA then (evGet s .SEAM_ENG_EVENT i).seq == (evGet t .SEAM_ENG_EVENT i).seq
  else match (ridRow r).acc with
  | .rw | .rws => (ridRow r).fields.all (fun f => bf (regGet t r i) f.hi f.lo == bf v f.hi f.lo)
  | _ => true

/-- The windows a REGLIST entry may not name (R420). -/
def regListBars (r : Rid) : Bool :=
  match (ridRow r).blk with
  | .SEC | .DBG | .BIST | .HLT => true
  | _ => false

/-- A register of the image is written: a domain comes on at once, a band before fitting starts is only noted (R345, R347, R425). -/
def imageWrite (s : State) (r : Rid) (i : Nat) (v : Word) : State :=
  match r with
  | .PWR_DOM_CMD => if bit v 1 && !bit v 0 then domOnNow s i else regWrite s .ctl r i v
  | .OPT_BAND => (match (optDie s i).fit with
    | .off => regSet s r i (acceptWord r (regGet s r i) v)
    | _ => regWrite s .ctl r i v)
  | _ => regWrite s .ctl r i v

/-- A value names a channel of an absent line die as WORK or PROT member of a group (R9). -/
def protAbsent (s : State) (r : Rid) (v : Word) : Bool :=
  r == .LINE_GRP_PROT && (!ldPresent s (bf v 5 0 / 16) || (bit v 31 && !ldPresent s (bf v 13 8 / 16)))

/-- A REGLIST entry: written as the physical function's write would be, RWS registers in effect at once; whether it is accepted (R9, R420). -/
def regEntry (s : State) (addr : Nat) (v : Word) : Bool × State :=
  match target .ctl addr with
  | .reg r i false =>
    let s0 := { s with boot := { s.boot with recovering := false } }
    if regListBars r || protAbsent s r v || !addrHas s0 .ctl addr r i || readOnlyCopy .ctl addr r then (false, s)
    else
      let t := applyHeld (imageWrite s0 r i v) r i (fun s v => rwsTake s r i v)
      (regTook s0 t r i v, { t with boot := { t.boot with recovering := s.boot.recovering } })
  | _ => (false, s)

/-- The entries of a REGLIST, offset then value. -/
def regList : List Word → Bool × State → Bool × State
  | a :: v :: l, (ok, s) =>
    let (k, t) := regEntry s a.toNat v
    regList l (ok && k, t)
  | _, x => x

/-- MEMLAYOUT: RTX and SKEW, then the panels' quotas (R12, R268, R270; layout log 58). -/
def layoutSect (s : State) (bs : List Byte) : Bool × State :=
  let rtx := leField bs 0 1
  let skew := leField bs 1 1
  let s := { s with mem := { s.mem with rtxGiB := rtx, skewGiB := skew } }
  (List.range 16).foldl (fun (x : Bool × State) p =>
    let v := leWord bs (4 + 4 * p)
    (x.1 && quotaAccepts x.2 p v false, regSet x.2 .MEM_PANEL_QUOTA p v)) (decide (bs.length = 68) && layoutOk s rtx skew, s)

/-- SPOOLS: COUNT and PRIV of the six spools (R256, R259). -/
def spoolsSect (s : State) (bs : List Byte) : Bool × State :=
  let l := (List.range 6).map (fun k => (leField bs (8 * k) 4, leField bs (8 * k + 4) 4))
  (decide (bs.length = 48) && spoolsOk l, (l.zipIdx).foldl (fun s p => spoolSet s p.2 (spoolInit p.1.1 p.1.2)) s)

/-- PROGRAM: engine, slot, SEAM_SLOT_SBCFG and 256 stitches, through the checker (R109, R110; layout log 58). -/
def programSect (s : State) (bs : List Byte) : Bool × State :=
  let e := leField bs 0 4
  let k := leField bs 4 4
  let w := leWord bs 8
  let cfg := acceptWord .SEAM_SLOT_SBCFG 0 w
  let words := (List.range 256).foldl (fun t j => tabSet 0 t j (BitVec.ofNat 64 (leField bs (12 + 8 * j) 8))) []
  let i := 8 * e + k
  let x := slotGet s i
  (decide (bs.length = 2060) && decide (e < 32 ∧ k < 8) && cfg == w && (checkPage words cfg).1 == 0,
    slotSet s i { x with active := ⟨words, cfg, x.active.gen + 1⟩, valid := true })

/-- CODEBOOK: slot, DIM and image (R201, R202; layout log 58). -/
def codebookSect (s : State) (bs : List Byte) : Bool × State :=
  let k := leField bs 0 4
  let dim := leField bs 4 4
  let img := bs.drop 8
  (decide (k < 256) && imageOk dim img, if k < 256 ∧ imageOk dim img then cbLoad s k dim img else s)

/-- KEMKEY: a group's encapsulation key; its KEK is encapsulated unless an alarm is latched (R369, R375; layout log 58). -/
def kemSect (s : State) (bs : List Byte) : Bool × State :=
  let g := leField bs 0 4
  let s := keyGroupSet s g { keyGroup s g with hasEk := true }
  (decide (bs.length = 1572) && decide (g ≤ 16), if alarmLatched s then s else encapsulate s g)

/-- SESSGEN: the starting GEN of sessions; a device recovery keeps the GEN of each (R299, R439). -/
def genSect (s : State) (bs : List Byte) : Bool × State :=
  (decide (bs.length % 4 = 0),
    if s.boot.recovering then s
    else (leWords bs).foldl (fun s w => selvSet s (bf w 11 0) { selvGet s (bf w 11 0) with gen := BitVec.ofNat 16 (bf w 31 16) }) s)

/-- Applies a section; whether its contents are accepted (R419, check 0x0A). -/
def applySect (s : State) (x : Section) : Bool × State :=
  match x.typ with
  | 2 => let (k, t) := regList (leWords x.bytes) (true, s); (k && decide (x.bytes.length % 8 = 0), t)
  | 3 => layoutSect s x.bytes
  | 4 => spoolsSect s x.bytes
  | 5 => programSect s x.bytes
  | 6 => codebookSect s x.bytes
  | 7 => kemSect s x.bytes
  | 8 => genSect s x.bytes
  | _ => (true, s)

/-- Applies the sections of one APPLY value in table order; the index of the first that is not accepted (R419). -/
def applyList (n : Nat) : List (Section × Nat) → Option Nat × State → Option Nat × State
  | [], x => x
  | (q, i) :: l, (bad, s) =>
    if q.apply = n then
      let (k, t) := applySect s q
      applyList n l (if bad.isNone && !k then some i else bad, t)
    else applyList n l (bad, s)

/-- The line-die domains come on; fitting starts after the APPLY 0x01 sections (R425). -/
def diesPower (s : State) : State :=
  (List.range 4).foldl (fun s d => if ldPresent s d then domSet s (20 + d) { domGet s (20 + d) with state := .on } else s) s

/-- Fitting starts on the line dies present. -/
def diesFit (s : State) : State := (List.range 4).foldl (fun s d => if ldPresent s d then dieOn s d else s) s

/-- The sections of the image in use that a stage applies (R425). -/
def applyStage (s : State) (n : Nat) : State := (applyList n s.boot.sections.zipIdx (none, s)).2

/-- The first section of an image whose contents are refused: its sections are applied in the order start-up would apply them (R9, R109, R259, R420,
check 0x0A). -/
def contentsFail (s : State) (l : List Section) : Option Nat :=
  let q := l.zipIdx
  let s := { s with boot := { s.boot with stage := 4 }, pwr := tabSet ⟨.off, 0, false, none⟩ s.pwr 1 ⟨.on, 0, false, none⟩ }
  let x := applyList 0 q (none, s)
  let x := applyList 1 q (x.1, diesPower x.2)
  let x := applyList 3 q (applyList 2 q (x.1, diesFit x.2))
  x.1

/-! ### The checks of a slot (R421) -/

/-- The result of checking a slot, with the index of the failing section; `c` is what the boot ROM finds of SFDP, the key hash and the signature. -/
def checkSlot (s : State) (b : Bool) (c : SlotCheck) : Nat × Nat :=
  let h := patHdr s b
  if !c.sfdp then (1, 0)
  else if !hdrOk h then (2, 0)
  else if !lensOk s b h then (3, 0)
  else if !partOk s h then (4, 0)
  else if !c.keyHash then (5, 0)
  else if !c.signature then (6, 0)
  else if (patVersionOf h).toNat < s.boot.minver.toNat then (7, 0)
  else match crcFails s b with
  | some i => (8, i)
  | none =>
    let l := patSections s b
    if !typesOk l then (9, 0)
    else match contentsFail s l with
    | some i => (10, i)
    | none => (0, 0)

end Sys2Proof.Machine
end

