-- ==== Sys2Proof/Machine/Boot.lean ====
section
/-! DEFINITION. Start-up, its stages and safe state (14_registers_and_pattern, R413-R425; 17_electrical_and_mechanical, R478). -/

namespace Sys2Proof.Machine

/-! ### PORST_N (R425, R478) -/

/-- PORST_N_RELEASE: ROOTCLK locks, PD0 and PD2 are powered, the time base free-runs from 0 s (R382, R425). -/
def execPorstNRelease (s : State) : Result :=
  .next <|
    if !s.boot.porst then s
    else domSet (domSet { s with boot := { s.boot with porst := false }, localUs := 0, pins := { s.pins with rootLock := true } } 0 ⟨.on, 0, false, none⟩)
      2 ⟨.on, 0, false, none⟩

/-- PORST_N_ASSERT: everything returns to its reset value, with alarm latches, retention stores, EOL and safe state (R347, R352, R413, R415, R478,
R491).  Flash, fuses, the assembly and the pins' levels are not the gateway's to reset; HBM cells keep what they held (log 58). -/
def execPorstNAssert (s : State) : Result :=
  .next { State.reset with
    pending := s.pending, response := s.response, outbox := s.outbox, fresh := s.fresh,
    boot := { Boot.reset with perst := s.boot.perst, numVfs := s.boot.numVfs, variant := s.boot.variant, stepping := s.boot.stepping,
                              lifecycle := s.boot.lifecycle, minver := s.boot.minver },
    flash := { Flash.reset with cells := s.flash.cells, sizeMiB := s.flash.sizeMiB },
    pins := { Pins.reset with temps := s.pins.temps, refLost := s.pins.refLost, thermAlert := s.pins.thermAlert, vmon := s.pins.vmon },
    mem := { State.reset.mem with cells := s.mem.cells } }

/-! ### Stages (R411, R415) -/

/-- BOOT_STAGE advances: GLB_EVENT.STAGE. -/
def setStage (s : State) (n : BitVec 4) : State := raiseEv { s with boot := { s.boot with stage := n } } .GLB_EVENT 0 2

/-- Safe state with a cause (R415): ports and lanes down, optics dark, keys and KEKs empty, the time base free-running and serving no PTP. -/
def enterSafe (s : State) (cause : BitVec 4) : State :=
  let s := (List.range 256).foldl (fun s p => fabPortSet (linkDown s p) p { fabPort (linkDown s p) p with training := false }) s
  let s := eraseKeys (opticalDark (lanesLost s 0 512))
  setStage { s with
    held := [], bast := ⟨[], []⟩,
    boot := { s.boot with safeCause := cause, recovering := false },
    time := { s.time with mode := .freerun, noServe := true } } 15

/-! ### Straps and lifecycle (R413, R414) -/

/-- The level of input `i` in a sample. -/
def strapLevel (l : List StrapLevel) (i : Nat) : StrapLevel := l.getD i .band

/-- Input `i` is not LOW in all samples nor HIGH in all, or is an input that has to be tied low and reads HIGH. -/
def strapBad (samples : List (List StrapLevel)) (i : Nat) : Bool :=
  let low := samples.all (fun l => strapLevel l i == .low)
  let high := samples.all (fun l => strapLevel l i == .high)
  (!low && !high) || (high && decide (6 ≤ i))

/-- The straps resolve after the third sample. -/
def strapResolve (s : State) : State :=
  let ok := fun (i : Nat) => s.boot.samples.all (fun l => strapLevel l i == .high)
  let fault := BitVec.ofNat 8 ((List.range 8).foldl (fun a i => a + b2n (strapBad s.boot.samples i) * pow2 i) 0)
  let strap := BitVec.ofNat 8 ((List.range 8).foldl (fun a i => a + b2n (ok i) * pow2 i) 0)
  let s := { s with boot := { s.boot with strap := strap, strapFault := fault } }
  irqFlush (if fault ≠ 0 then enterSafe s 1 else setStage s 1)

/-- STRAP_SAMPLE: one of the samples 1 ms, 3 ms and 5 ms after the release of PORST_N. -/
def execStrapSample (levels : List StrapLevel) (s : State) : Result :=
  .next <|
    if s.boot.porst ∨ 3 ≤ s.boot.samples.length then s
    else
      let s := { s with boot := { s.boot with samples := s.boot.samples ++ [levels] } }
      if s.boot.samples.length = 3 then strapResolve s else s

/-- LIFECYCLE_READ: the lifecycle decides how start-up proceeds. -/
def execLifecycleRead (code : BitVec 4) (s : State) : Result :=
  .next <|
    if s.boot.porst ∨ s.boot.stage ≠ 1 then s
    else
      let s := { s with boot := { s.boot with lifecycle := code } }
      if code = 1 ∨ code = 2 ∨ code = 3 then setStage s 2 else enterSafe s 2

/-! ### Self-test, image, HBM, fabric, long haul (R414, R422, R425, R465) -/

/-- POST_DONE: a FAIL ends in safe state; so do FIELD_RETURN and STRAP_SAFE_HOLD. -/
def execPostDone (units : List BistReport) (s : State) : Result :=
  .next <|
    if s.boot.porst ∨ s.boot.stage ≠ 2 then s
    else
      let s := bistRecord s units
      if bistFailed units then enterSafe s 3
      else if s.boot.lifecycle = 3 then enterSafe s 2
      else if s.boot.strap.getLsbD 5 then enterSafe s 6
      else setStage s 3

/-- The result of a slot's check is recorded. -/
def slotRecord (s : State) (b : Bool) (e : Nat × Nat) : State :=
  let s := if b then { s with boot := { s.boot with errB := BitVec.ofNat 8 e.1 } } else { s with boot := { s.boot with errA := BitVec.ofNat 8 e.1 } }
  if e.1 = 0 then s else { s with boot := { s.boot with errSect := BitVec.ofNat 8 e.2 } }

/-- An accepted image is taken: PD1 comes on, and the APPLY 0x00 sections are applied (R425). -/
def imageTake (s : State) (b : Bool) : State :=
  let s := { s with boot := { s.boot with patSlotB := b, patVersion := patVersionOf (patHdr s b), sections := patSections s b } }
  applyStage (setStage (domSet s 1 ⟨.on, 0, false, none⟩) 4) 0

/-- PATTERN_CHECK_DONE: the slot that STRAP_PAT_SEL names first, then the other with FALLBACK; with neither, safe state (R421, R422).  `slow`: the
flash lacks 8D-8D-8D reads (R416). -/
def execPatternCheckDone (slow : Bool) (a b : SlotCheck) (s : State) : Result :=
  .next <|
    if s.boot.porst ∨ s.boot.stage ≠ 3 then s
    else
      let s := { s with flash := { s.flash with slow := slow } }
      let first := s.boot.strap.getLsbD 0
      let e := checkSlot s first (if first then b else a)
      let s := slotRecord s first e
      if e.1 = 0 then imageTake s first
      else
        let s := raiseEv { s with boot := { s.boot with fallback := true } } .GLB_EVENT 0 4
        let e := checkSlot s (!first) (if first then a else b)
        let s := slotRecord s (!first) e
        if e.1 = 0 then imageTake s (!first) else enterSafe s 4

/-- HBM_TRAINING_DONE: the line-die domains come on, the APPLY 0x01 sections are applied, fitting starts (R425). -/
def execHbmTrainingDone (ok : Bool) (s : State) : Result :=
  .next <|
    if s.boot.porst ∨ s.boot.stage ≠ 4 then s
    else if !ok then enterSafe s 5
    else setStage (diesFit (applyStage (diesPower s) 1)) 5

/-- Milliseconds since PORST_N release, at most 65,535 (log 58). -/
def readyMs (s : State) : BitVec 16 := BitVec.ofNat 16 (min 65535 (s.localUs / 1000))

/-- FABRIC_READY: the APPLY 0x02 sections are applied (R425). -/
def execFabricReady (s : State) : Result :=
  .next <|
    if s.boot.porst ∨ s.boot.stage ≠ 5 then s
    else
      let s := applyStage s 2
      setStage { s with boot := { s.boot with readyFabric := readyMs s } } 6

/-- LONGHAUL_READY: the APPLY 0x03 sections are applied, and sessions come to admission (R300, R425). -/
def execLonghaulReady (s : State) : Result :=
  .next <|
    if s.boot.porst ∨ s.boot.stage ≠ 6 then s
    else
      let s := applyStage s 3
      setStage { s with boot := { s.boot with readyLong := readyMs s } } 7

end Sys2Proof.Machine
end

