-- ==== Sys2Proof/Machine/Frames.lean ====
section
/-! DEFINITION. Frames leaving the switch core (07_switch_and_traffic): egress ports, FRAME sessions, ageing. -/

namespace Sys2Proof.Machine

/-- The frame that a FRAME session takes next, with its index: of the highest class that a frame of the panel waits in, the head of the next input in
round robin after the one served last (R225; log 50). -/
def sessNext (s : State) (panel v k : Nat) : Option (Nat × Frame) :=
  ((List.range 8).reverse).findSome? (fun c =>
    nextInput (tabGet 0 s.fab.sessLast (pc k c)) ((voqHeads s.fab.frames (256 + v) c).filter (fun h => inputPanel s h.2.inp == panel)))

/-- A frame enters the FRAME session it is bound for, unless it has to wait in its VOQ (R282, R287, R289). -/
def sessTransmit (s : State) (panel v : Nat) : State :=
  match vdestSess s panel v with
  | none => s
  | some k => match sessNext s panel v k with
    | none => s
    | some (i, f) => match frameEnter s k f.cls f.data with
      | (true, s) => leaveOne { s with fab := { s.fab with sessLast := tabSet 0 s.fab.sessLast (pc k f.cls) (f.inp + 1) } } i (256 + v)
      | (false, s) => s

/-- FRAME_TRANSMIT: an egress port starts its next eligible frame, `phase` (2^-16 ns) after the last tick (R223, R225, R234-R239); for
`port` 0x100 + v, a frame of `panel` enters the FRAME session that it is bound for (R282). -/
def execFrameTransmit (port panel phase : Nat) (s : State) : Result :=
  .next <| if port < 256 then portTransmit s port phase else sessTransmit s panel (port - 256)

/-- FRAME_AGE_OUT: the head of the queue of input `inp` and class `cls` for `dest` (R232). -/
def execFrameAgeOut (inp cls dest : Nat) (s : State) : Result := .next (ageOut s inp cls dest).1

end Sys2Proof.Machine
end

