-- ==== Sys2Proof/Machine/Rdma.lean ====
section
/-! DEFINITION. Delivery queue pairs: acknowledges, NAKs, timeouts, errors (R155-R159). -/

namespace Sys2Proof.Machine

/-- PSN `a` is at or before PSN `b`, modulo 2^24. -/
def psnLe (a b : Nat) : Bool := decide ((b + pow2 24 - a) % pow2 24 < pow2 23)

/-- A write has been acknowledged: its cells are let go; the write with immediate is recorded and traced (R137, R157, R158, R455). -/
def writeAcked (s : State) (w : RdmaWr) : State :=
  let s := cellDrop s w.cell
  if !w.imm then s
  else
    let s := epochMod s w.panel w.coll w.epoch (fun x => { x with acked := if x.acked.contains w.drec then x.acked else x.acked ++ [w.drec] })
    traceChunk s 0x22 6 w.panel 0 w.chalk w.coll w.epoch w.chunk w.drec

/-- Every write of a queue pair that ends at or before a PSN is acknowledged; its epochs may then close (R137, R155). -/
def qpAck (s : State) (n psn : Nat) : State :=
  match qpGet s n with
  | none => s
  | some q =>
    let (out, left) := q.writes.partition (fun w => psnLe w.last psn)
    let s := out.foldl writeAcked (qpSet s n (some { q with writes := left }))
    let s := (dedup (out.map (fun w => w.epoch))).foldl (fun s e => tryClose s q.panel q.coll e) s
    if out.isEmpty then s else retireFinish s q.panel q.coll

/-- A queue pair enters the error state: QP_ERROR, its writes discarded, the epoch aborts with DELIVERY_FAIL (R159). -/
def qpError (s : State) (n e : Nat) : State :=
  match qpGet s n with
  | none => s
  | some q =>
    let s := q.writes.foldl (fun s w => cellDrop s w.cell) (qpSet s n (some { q with err := true, writes := [] }))
    retireFinish (abortEpoch (ccoEvent s q.panel 2) q.panel q.coll e 4 false .self) q.panel q.coll

/-- The oldest write is sent again from packet `start` on, and the later ones after it; with its count exhausted the queue pair fails (R155, R159). -/
def qpRetry (s : State) (n : Nat) (rnr : Bool) (start : RdmaWr → Nat) : State :=
  match qpGet s n with
  | none => s
  | some q => match q.writes with
    | [] => s
    | w :: t =>
      if (if rnr then w.rnr else w.retry) = 0 then qpError s n w.epoch
      else
        let w' := if rnr then { w with rnr := w.rnr - 1 } else { w with retry := w.retry - 1 }
        let s := qpSet s n (some { q with writes := w' :: t })
        t.foldl (fun s x => sendWrite s q x 0) (sendWrite s q w' (start w'))

/-- RDMA_ACK: an Acknowledge for every packet up to `psn` (R155). -/
def execRdmaAck (qpn psn : Nat) (s : State) : Result :=
  .next <| match qpGet s qpn with
    | some q => if q.err then s else qpAck s qpn psn
    | none => s

/-- RDMA_NAK: a NAK at `psn`: the packets before it are acknowledged; a sequence error and RNR lead to a retry from it, the remote errors to the
error state (R155, R159). -/
def execRdmaNak (qpn psn : Nat) (kind : NakKind) (s : State) : Result :=
  .next <|
    match qpGet s qpn with
    | none => s
    | some q =>
      if q.err then s
      else
        let s := qpAck s qpn ((psn + pow2 24 - 1) % pow2 24)
        let start := fun (w : RdmaWr) => if psnLe w.first psn then (psn + pow2 24 - w.first) % pow2 24 else 0
        match kind with
        | .psnSequence => qpRetry s qpn false start
        | .rnr => qpRetry s qpn true start
        | _ => match (qpGet s qpn).map (fun q => q.writes) with
          | some (w :: _) => qpError s qpn w.epoch
          | _ => s

/-- RDMA_ACK_TIMEOUT: the oldest write is sent again, or its retry count is exhausted (R156, R159). -/
def execRdmaAckTimeout (qpn : Nat) (s : State) : Result :=
  .next <| match qpGet s qpn with
    | some q => if q.err then s else qpRetry s qpn false (fun _ => 0)
    | none => s

/-- RDMA_IGNORED_PACKET: a request, a CNP or an ECN mark on a fabric port: counted for the port's panel (R155). -/
def execRdmaIgnoredPacket (port : Nat) (s : State) : Result :=
  .next <| if portCarries s port && domOn s 11 then ccoCount s .CCO_CNT_RDMA_IGN (portPanel s port) 0 else s

end Sys2Proof.Machine
end

