-- ==== Sys2Proof/Machine/Views.lean ====
section
/-! DEFINITION. What registers read as: the words that status registers show of the machine's state, by the register tables of the chapters. -/

namespace Sys2Proof.Machine

/-- A word of fields, each a value and its lowest bit. -/
def packed (l : List (Nat × Nat)) : Word := BitVec.ofNat 32 (l.foldl (fun a f => a + f.1 * pow2 f.2) 0)

/-- A bit for each of `n` things. -/
def maskOf (n : Nat) (p : Nat → Bool) : Nat := (List.range n).foldl (fun a k => a + b2n (p k) * pow2 k) 0

/-- BLOCK_STATUS.PENDING: an RWS write of the block is held, of the engine or die alone where the block has one for each (R400). -/
def blkPending (s : State) (b : Blk) (outer : Nat) : Bool :=
  (blkRids b).any (fun r => (tabGet [] s.held (ridNum r)).any (fun e => (b != .SEAM && b != .OPT) || ridOuter r e.1 == outer))

/-! ### GLB, PNL, SEC, PWR, CLK (R10, R404, R410, R411, R424, R448, R492) -/

/-- GLB_ID (R10). -/
def glbId (s : State) : Word :=
  packed [(0x72, 24), (s.boot.variant.toNat, 20), (maskOf 4 (ldPresent s), 16), (maskOf 8 (fun k => (hbmStacks s).contains k), 8), (s.boot.stepping.toNat, 4)]

/-- GLB_STATUS (R411). -/
def glbStatus (s : State) : Word :=
  packed [(s.boot.stage.toNat, 28), (s.boot.safeCause.toNat, 24), (b2n s.flash.slow, 2), (b2n (decide (s.flash.sizeMiB ≤ 64)), 1), (b2n s.flash.logWorn, 0)]

/-- The code of a strap level in GLB_STRAP_SMP (R410). -/
def strapCode : StrapLevel → Nat
  | .low => 0
  | .band => 1
  | .high => 2

/-- GLB_STRAP_SMPk; 0 before the sample is taken (R410). -/
def strapSample (s : State) (k : Nat) : Word :=
  match s.boot.samples[k]? with
  | some l => packed ((List.range 8).map (fun i => (strapCode (l.getD i .band), 2 * i)))
  | none => 0

/-- PNL_STATUS.STATE (R404). -/
def panelCode : PanelState → Nat
  | .disabled => 0
  | .active => 1
  | .resetting => 2
  | .faulted => 3

/-- PNL_STATUS (R404). -/
def panelStatusWord (s : State) (n : Nat) : Word := packed [((panelGet s n).fcause.toNat, 8), (panelCode (panelGet s n).state, 0)]

/-- PWR_DOM_STATUS.STATE (R448); a domain of an absent die reads ABSENT (R8). -/
def domCode : DomState → Nat
  | .off => 0
  | .on => 1
  | .draining => 2
  | .resetting => 3
  | .starting => 4
  | .absent => 5

/-- PWR_DOM_STATUS (R448). -/
def domStatusWord (s : State) (d : Nat) : Word :=
  packed [((domGet s d).cause.toNat, 8), (if domAbsent s d then 5 else domCode (domGet s d).state, 0)]

/-- What a register of the GLB, PNL, SEC, PWR and CLK blocks shows. -/
def glbValue (s : State) (r : Rid) (i : Nat) : Word :=
  match r with
  | .GLB_ID => glbId s
  | .GLB_STATUS => glbStatus s
  | .GLB_STRAP => packed [(s.boot.strapFault.toNat, 8), (s.boot.strap.toNat, 0)]
  | .GLB_STRAP_SMP => strapSample s i
  | .GLB_PAT_STATUS =>
    packed [(b2n s.boot.patSlotB, 31), (b2n s.boot.fallback, 30), (s.boot.errA.toNat, 16), (s.boot.errB.toNat, 8), (s.boot.errSect.toNat, 0)]
  | .GLB_PAT_VERSION => s.boot.patVersion
  | .GLB_READY_MS => packed [(s.boot.readyLong.toNat, 16), (s.boot.readyFabric.toNat, 0)]
  | .GLB_BUSERR_ADDR => s.glbBusErr.addr
  | .GLB_BUSERR_INFO => packed [(b2n s.glbBusErr.write, 31), (s.glbBusErr.who.toNat, 0)]
  | .GLB_PANEL_STATUS | .PNL_STATUS => panelStatusWord s i
  | .PWR_DOM_STATUS => domStatusWord s i
  | .CLK_STATUS => packed [(b2n s.pins.thermAlert, 5), (15 - s.pins.refLost.toNat, 1), (b2n s.pins.rootLock, 0)]
  | .CLK_TEMP => (tabGet 0 s.pins.temps i).setWidth 32
  | .CLK_TEMP_MAX => s.pins.tempMax.setWidth 32
  | .CLK_VMON => (tabGet 0 s.pins.vmon i).setWidth 32
  | .SEC_LIFECYCLE => s.boot.lifecycle.setWidth 32
  | .SEC_PAT_MINVER => s.boot.minver
  | .SEC_CMD_STATUS => packed [(b2n s.boot.secBusy, 31), (s.boot.secResult.toNat, 0)]
  | .SEC_FLASH_STATUS => packed [(b2n s.flash.busy, 31), (s.flash.err.toNat, 0)]
  | .SEC_FLASH_SIZE => BitVec.ofNat 32 s.flash.sizeMiB
  | .SEC_FLASH_RDATA => s.flash.rdata
  | .PNL_ID => packed [(0x72, 24), (s.boot.variant.toNat, 20), (i, 0)]
  | .PNL_CTX_QUOTA => packed [((panelContexts s i).length, 16), (regBf s .GLB_PANEL_CFG i 25 16, 0)]
  | .PNL_QP_QUOTA => packed [(panelQps s i, 16), (regBf s .GLB_PANEL_CFG i 14 0, 0)]
  | .PNL_BUSERR => let e := tabGet ⟨0, false, 0⟩ s.pnlBusErr i; packed [(b2n e.write, 31), (bf e.addr 23 0, 0)]
  | _ => 0

/-! ### THM, TIME (R377, R378, R393) -/

/-- TIME_STATUS.STATE (R382). -/
def timeCode : TimeMode → Nat
  | .freerun => 0
  | .acquire => 1
  | .tracking => 2
  | .holdover => 3

/-- What a register of the THM and TIME blocks shows. -/
def timeValue (s : State) (r : Rid) (i : Nat) : Word :=
  match r with
  | .THM_ALARM => s.thm.alarm
  | .THM_KLD_STATUS => packed [(b2n (keyGroup s i).busy, 31), ((keyGroup s i).result.toNat, 0)]
  | .THM_KEK_STATUS => packed [(b2n (!(keyGroup s i).hasEk), 1), (b2n (keyGroup s i).kek.isSome, 0)]
  | .THM_KLD_SEQ => (keyGroup s i).seq
  | .THM_KEK_CT => (match (keyGroup s (i / 392)).ct with
    | some n => Config.kemCt n (i % 392)
    | none => 0)
  | .THM_SESS_KEY => sessKeyWord s i
  | .TIME_STATUS =>
    packed [((upstreamPort s).getD 0 % 256, 16), (s.time.stepCnt.toNat, 8), (b2n s.time.everLocked, 3), (timeCode s.time.mode, 0)]
  | .TIME_NOW_FRAC => BitVec.ofNat 32 (nowFrac s)
  | .TIME_NOW_NS => s.timeLatch.2
  | .TIME_NOW_SEC_LO => s.timeLatch.1.setWidth 32
  | .TIME_NOW_SEC_HI => (s.timeLatch.1 >>> 32).setWidth 32 &&& 0xFFFF
  | .TIME_OFFSET => BitVec.ofNat 32 (ofSigned 32 s.time.offset)
  | .TIME_UTC_OFS => s.time.utc.setWidth 32
  | .TIME_PORT_STATE => BitVec.ofNat 32 (ptpRole s i)
  | .TIME_LINE_OFS => BitVec.ofNat 32 (ofSigned 32 (lineTime s i).ofs)
  | .TIME_LINE_DELAY => BitVec.ofNat 32 (ofSigned 32 (lineTime s i).delay)
  | _ => 0

/-! ### FPORT, SW, TM, BAST (R187, R251-R254) -/

/-- BAST_CIRC_STATUS.STATE (R254). -/
def circCode : CircState → Nat
  | .off => 0
  | .relock => 1
  | .up => 2
  | .lossOfLock => 3

/-- A gate list entry as it reads: the bits of TC6 and TC7 read 1 (R237). -/
def gatesShown (e : Word) : Word := e ||| 0xC0000000

/-- What a register of the FPORT, SW, TM and BAST blocks shows. -/
def fabricValue (s : State) (r : Rid) (i : Nat) : Word :=
  match r with
  | .FPORT_STATUS =>
    let x := fabPort s i
    packed [(x.pausing.toNat, 12), (x.paused.toNat, 4), (b2n x.fecLock, 2), (b2n x.training, 1), (b2n x.link, 0)]
  | .SW_BUF_SUM => BitVec.ofNat 32 ((tabGet [] s.regs (ridNum .SW_LIMIT)).foldl (fun a (e : Nat × Word) => a + bf e.2 18 0) 0)
  | .SW_FDB_STATUS => packed [(b2n s.fab.fdbMissing, 1), (b2n s.fab.fdbFull, 0)]
  | .SW_OCC => BitVec.ofNat 32 (occOf s (i / 8) (i % 8))
  | .TM_SPW_STATUS =>
    packed [(b2n ((spw s i).armed && !s.time.everLocked), 2), (b2n (spw s i).isOpen, 1), (b2n (spw s i).armed, 0)]
  | .TM_GCL_STATUS =>
    let g := (fabPort s i).gates
    packed [(g.err.toNat, 8), (b2n (!s.time.everLocked), 2), (b2n g.next.isSome, 1), (b2n g.running, 0)]
  | .TM_GCL_ENTRY => gatesShown ((fabPort s (i / 256)).gates.entries.getD (i % 256) 0)
  | .BAST_CIRC_STATUS => BitVec.ofNat 32 (circCode (circ s i).state)
  | .BAST_RX_STATUS => packed [(b2n (tackRx s i).signal, 1), (b2n (tackRx s i).aligned, 0)]
  | _ => 0

/-! ### SEAM, CCO, PLT, BOB, MEM (R114-R118, R161, R212, R214, R279, R280) -/

/-- PLT_CB_STATUS.STATE (R214). -/
def cbStateCode : CbState → Nat
  | .empty => 0
  | .loading => 1
  | .valid => 2

/-- PLT_CB_STATUS (R214). -/
def cbStatusWord (s : State) (k : Nat) : Word :=
  let x := cbGet s k
  packed [(x.gen.toNat, 24), (min 0xFFFF (codebookRef s k), 8), (x.dim % 4, 2), (cbStateCode x.state, 0)]

/-- What a register of the SEAM, CCO, PLT, BOB and MEM blocks shows. -/
def seamValue (s : State) (r : Rid) (i : Nat) : Word :=
  match r with
  | .SEAM_SLOT_STATUS => slotStatusWord s i
  | .SEAM_SLOT_CFG => (slotGet s i).active.cfg
  | .SEAM_ACT_PAGE =>
    let w := tabGet 0 (slotGet s (i / 512)).active.words (i % 512 / 2)
    if i % 2 = 0 then w.setWidth 32 else (w >>> 32).setWidth 32
  | .SEAM_CTX_STATUS => ctxStatusWord s i
  | .SEAM_CTX_FCAUSE => ctxCauseWord s i
  | .CCO_CMD_STATUS => packed [(b2n (cmdGet s i).busy, 31), ((cmdGet s i).result.toNat, 0)]
  | .CCO_SLG_ENTRY => (tabGet [] s.cco.slg (i / 4)).getD (i % 4) 0
  | .PLT_CMD_STATUS => packed [(b2n s.plt.busy, 31), (s.plt.result.toNat, 0)]
  | .PLT_CB_STATUS => cbStatusWord s i
  | .PLT_CB_FP => (match (cbGet s i).state with
    | .valid => (cbGet s i).fp
    | _ => 0)
  | .BOB_CELL_FREE => BitVec.ofNat 32 (cellsLeft s)
  | .BOB_PF_HANDLE => s.bob.pfHandle
  | .BOB_PF_INFO => s.bob.pfInfo
  | .BOB_SPOOL_COUNT => BitVec.ofNat 32 (spoolGet s i).count
  | .BOB_SPOOL_PRIV => BitVec.ofNat 32 (spoolGet s i).priv
  | .BOB_SPOOL_FREE => BitVec.ofNat 32 (spoolOrdFree (spoolGet s i))
  | .BOB_SPOOL_PFREE => BitVec.ofNat 32 (spoolPrivFree (spoolGet s i))
  | .BOB_SPOOL_CACHE => BitVec.ofNat 32 (spoolGet s i).cache
  | .MEM_LAYOUT => packed [(s.mem.rtxGiB, 24), (s.mem.skewGiB, 16), (hbmGiB s, 0)]
  | .MEM_UE_ADDR_LO => s.mem.ueAddr.setWidth 32
  | .MEM_UE_ADDR_HI => packed [(s.mem.ueRegion.toNat, 8), (s.mem.ueAddr.toNat / pow2 32, 0)]
  | .MEM_SCRUB_POS => BitVec.ofNat 32 (min 0xFFFF (s.mem.scrubBlock * 0x10000 / max 1 (scrubBlocks s)))
  | _ => 0

/-! ### SELV, LINE, OPT (R298, R310, R335, R337, R358-R360) -/

/-- SELV_SESS_STATUS.STATE (R298). -/
def sessCode : SessState → Nat
  | .closed => 0
  | .keywait => 1
  | .admission => 2
  | .opening => 3
  | .open => 4
  | .closing => 5
  | .keyStop => 6
  | .fault => 7

/-- LINE_CH_STATUS.STATE (R337; the order of the cases is log 60). -/
def chCode (s : State) (k : Nat) : Nat :=
  let c := lineCh s k
  if !chEn s k then 0
  else if c.defects ≠ 0 then 5
  else if c.mstate = 3 then 4
  else if c.mstate = 2 then 3
  else if c.rxOkSent then 2
  else 1

/-- LINE_CH_STATUS (R337): MOD reads dark while no light leaves. -/
def lineChWord (s : State) (k : Nat) : Word :=
  let c := lineCh s k
  packed [(if carriesLight s k then chMod s k else 3, 24), (b2n (chEn s k && selCh s (chGroup s k) == some k), 17), (b2n c.rdi, 16), (c.defects.toNat, 8), (chCode s k, 0)]

/-- What a register of the SELV, LINE and OPT blocks shows. -/
def lineValue (s : State) (r : Rid) (i : Nat) : Word :=
  match r with
  | .SELV_RTX_SLOTS => BitVec.ofNat 32 (s.mem.rtxGiB * gib / 8320)
  | .SELV_RTX_USED => BitVec.ofNat 32 s.selv.slots.length
  | .SELV_TWIN_STATUS => packed [(b2n s.selv.twin.busy, 1), (b2n (twinStandby s && s.selv.twin.page.isSome), 0)]
  | .SELV_TWIN_SEQ => if twinStandby s then (if s.selv.twin.page.isSome then s.selv.twin.pageSeq else 0) else s.selv.twin.acked
  | .SELV_SESS_STATUS => packed [((selvGet s i).gen.toNat, 16), (sessCode (selvGet s i).state, 0)]
  | .SELV_SESS_SNDNXT => (selvGet s i).sndNxt
  | .SELV_SESS_SNDUNA => (selvGet s i).sndUna
  | .SELV_SESS_RCVNXT => (selvGet s i).rcvNxt
  | .SELV_SESS_FCAUSE => (selvGet s i).fcause.setWidth 32
  | .LINE_SKEW_USED => BitVec.ofNat 32 ((tabGet [] s.regs (ridNum .LINE_GRP_SKEW_BUF)).foldl (fun a (e : Nat × Word) => a + bf e.2 9 0) 0)
  | .LINE_GRP_STATUS =>
    let x := lineGrp s i
    packed [(((members s i).filter (fun k => (lineCh s k).inStream)).length, 16), (((List.range 64).filter (fun m => x.txActive.getLsbD m)).length, 8),
      (b2n x.wtrUs.isSome, 2), (x.sel, 0)]
  | .LINE_GRP_SKEW => BitVec.ofNat 32 ((lineGrp s i).skewUs % pow2 14)
  | .LINE_GRP_CM_STATUS =>
    let x := lineGrp s i
    packed [(x.err.toNat, 8), (b2n x.rxWait, 3), (b2n x.txWait, 2), (b2n x.sbValid, 1), (b2n x.checking, 0)]
  | .LINE_GRP_CM_GEN => packed [((lineGrp s i).rxGen, 16), ((lineGrp s i).txGen, 0)]
  | .LINE_CH_STATUS => lineChWord s i
  | .LINE_CH_TTI => (lineCh s (i / 4)).tti.getD (i % 4) 0
  | .LINE_CM_TX_ACT => tabGet 0 (lineGrp s (i / 640)).txPage (i % 640)
  | .LINE_CM_RX_ACT => tabGet 0 (lineGrp s (i / 640)).rxPage (i % 640)
  | .OPT_STATUS => packed [(b2n (optDie s i).combLock, 1), (b2n (optDie s i).eol, 0)]
  | .OPT_FIT_STATUS => fitStatusWord s i
  | .OPT_LASER_BIAS => BitVec.ofNat 32 (optDie s i).bias
  | .OPT_DIE_TEMP => BitVec.ofNat 32 (ofSigned 16 (optDie s i).temp)
  | .OPT_CAL_STATUS => calStatusWord s i
  | .OPT_CH_STATUS => optChStatusWord s i
  | .OPT_CH_RXPWR => packed [(ofSigned 16 (optCh s i).tx, 16), (ofSigned 16 (optCh s i).rx, 0)]
  | _ => 0

/-! ### DBG, BIST, HLT (R446, R468, R470) -/

/-- HLT_ENG_STATE of one engine (R446). -/
def engCode : EngState → Nat
  | .normal => 0
  | .resetting => 1
  | .trial => 2
  | .fenced => 3

/-- The tier of recovery in progress (R446): a domain's or the device's, or an engine's while one is being reset or tried. -/
def tierCode (s : State) : Nat :=
  if s.health.tier ≠ 0 then s.health.tier.toNat
  else if (List.range 32).any (fun e => (engGet s e).state == .resetting || (engGet s e).state == .trial) then 1 else 0

/-- HLT_TRIAL (R446). -/
def trialWord (s : State) (e : Nat) : Word :=
  let x := engGet s e
  packed [(b2n x.trial.isSome, 31), (x.trial.getD 0 % 16, 16), (maskOf 16 (fun c => x.suspects.contains (16 * e + c)), 0)]

/-- What a register of the DBG, BIST and HLT blocks shows. -/
def healthValue (s : State) (r : Rid) (i : Nat) : Word :=
  match r with
  | .DBG_LOG_STATUS => packed [(logRetired s, 16), (logSectors s - logRetired s, 0)]
  | .DBG_LOG_MAXERASE => BitVec.ofNat 32 (logMaxErase s)
  | .BIST_STATUS => packed [(b2n (bistBusy s || s.boot.stage == 2), 31), (s.bist.firstFail.toNat, 0)]
  | .BIST_CMD_STATUS => packed [(b2n (bistBusy s), 31), (s.bist.cmdResult.toNat, 0)]
  | .BIST_RESULT => let u := tabGet ⟨0, 0, 0⟩ s.bist.units i; packed [(u.spares.toNat, 8), (u.result.toNat, 0)]
  | .HLT_RECOV_STATUS => packed [(s.health.durMs.toNat, 16), (s.health.dom, 8), (tierCode s, 0)]
  | .HLT_LAST_FAULT => packed [(s.health.detectors.toNat, 16), (s.health.lastCtx, 8), (s.health.lastEng, 0)]
  | .HLT_ENG_STATE => packed ((List.range 16).map (fun k => (engCode (engGet s (16 * i + k)).state, 2 * k)))
  | .HLT_SWATCH_SEQ => s.health.swatchSeq
  | .HLT_SWATCH_FLASH => s.health.swatchFlash
  | .HLT_TRIAL => trialWord s i
  | _ => 0

/-! ### Any register -/

/-- The register is a BLOCK_STATUS. -/
def isBlockStatus (r : Rid) : Bool :=
  match r with
  | .GLB_BLOCK_STATUS | .PWR_BLOCK_STATUS | .CLK_BLOCK_STATUS | .SEC_BLOCK_STATUS | .THM_BLOCK_STATUS | .TIME_BLOCK_STATUS
  | .FPORT_BLOCK_STATUS | .SW_BLOCK_STATUS | .TM_BLOCK_STATUS | .BAST_BLOCK_STATUS | .SEAM_BLOCK_STATUS | .CCO_BLOCK_STATUS
  | .PLT_BLOCK_STATUS | .BOB_BLOCK_STATUS | .MEM_BLOCK_STATUS | .SELV_BLOCK_STATUS | .LINE_BLOCK_STATUS | .OPT_BLOCK_STATUS
  | .DBG_BLOCK_STATUS | .BIST_BLOCK_STATUS | .HLT_BLOCK_STATUS | .PNL_BLOCK_STATUS => true
  | _ => false

/-- What a read-only register shows. -/
def roValue (s : State) (r : Rid) (i : Nat) : Word :=
  if isBlockStatus r then BitVec.ofNat 32 (b2n (blkPending s (ridRow r).blk (ridOuter r i)))
  else match (ridRow r).blk with
  | .GLB | .PNL | .SEC | .PWR | .CLK => glbValue s r i
  | .THM | .TIME => timeValue s r i
  | .FPORT | .SW | .TM | .BAST => fabricValue s r i
  | .SEAM | .CCO | .PLT | .BOB | .MEM => seamValue s r i
  | .SELV | .LINE | .OPT => lineValue s r i
  | .DBG | .BIST | .HLT => healthValue s r i

/-- A 64-bit pair computed from other state: KEY_USE of the active slot, the applied frequency, TXC, TX_ACTIVE, a BIST signature. -/
def pairValue (s : State) (r : Rid) (i : Nat) : Dword :=
  match r with
  | .THM_SESS_USE => BitVec.ofNat 64 (keySlot s (activeSlot s i)).use
  | .TIME_FREQ => BitVec.ofNat 64 (ofSigned 64 s.time.rate)
  | .SELV_SESS_TXC => BitVec.ofNat 64 (selvGet s i).txc
  | .LINE_GRP_TX_ACTIVE => (lineGrp s i).txActive
  | .LINE_GRP_RX_ACTIVE => (lineGrp s i).rxActive
  | .BIST_SIG => (tabGet ⟨0, 0, 0⟩ s.bist.units i).sig
  | _ => ctrGet s r i

/-- The word in effect that a register reads as (R18, R395); a write-only register reads 0. -/
def regValue (s : State) (r : Rid) (i : Nat) : Word :=
  match (ridRow r).acc with
  | .rw | .rws => if r = .TM_GCL_SB_ENTRY then gatesShown (regGet s r i) else regGet s r i
  | .ro => roValue s r i
  | .sqc => evWord (evGet s r i)
  | .wo => 0
  | .cnt | .cntv => (pairValue s r i).setWidth 32

end Sys2Proof.Machine
end

