-- ==== Sys2Proof/Machine/Reads.lean ====
section
/-! DEFINITION. Reads on the register bus (14_registers_and_pattern, R394-R398, R403) and the SMBus port (R413). -/

namespace Sys2Proof.Machine

/-- The number of a requester's latch: the physical function, each virtual function, the control complex (R398). -/
def latchOf : Requester → Nat
  | .pf => 0
  | .vf n => n + 1
  | .ctl => 17

/-- A read of a pair's low word: bits [31:0], with bits [63:32] latched for the requester (R398). -/
def lowRead (s : State) (req : Requester) (r : Rid) (i : Nat) : State :=
  let v := pairValue s r i
  let l : Latch := ⟨ridNum r, i, (v >>> 32).setWidth 32⟩
  answer { s with latches := tabSet none s.latches (latchOf req) (some l) } (v.setWidth 32)

/-- A read of a pair's high word: the latch if the requester's last low-word read was of the same counter, the current bits otherwise (R398). -/
def highRead (s : State) (req : Requester) (r : Rid) (i : Nat) : State :=
  match tabGet none s.latches (latchOf req) with
  | some l => if l.rid = ridNum r ∧ l.idx = i then answer s l.hi else answer s (((pairValue s r i) >>> 32).setWidth 32)
  | none => answer s (((pairValue s r i) >>> 32).setWidth 32)

/-- A read of a register's word. -/
def regRead (s : State) (req : Requester) (r : Rid) (i : Nat) (hi : Bool) : State :=
  if ridWide r then (if hi then highRead s req r i else lowRead s req r i)
  else match r with
  | .TIME_NOW_FRAC => timeNowRead s
  | .SEAM_SP_DATA => after (execSpDataRead req ⟨i, none⟩) s
  | _ => answer s (regValue s r i)

/-- A read of an address by a requester (R394-R404): nothing without a link; a bus error outside what is implemented for the requester; at an
alias address the pending value, or the value in effect where nothing is held (R395). -/
def busRead (s : State) (req : Requester) (addr : Nat) : State :=
  if !reqLink s req then s
  else if addr % 4 ≠ 0 then readError s req addr
  else match target req addr with
  | .reg r i hi => if addrHas s req addr r i then regRead s req r i hi else readError s req addr
  | .shadow r i => if addrHas s req addr r i then answer s (rwsBase s r i) else readError s req addr
  | .aperture view off => aptRead s req addr view off
  | .none => readError s req addr

/-- ALIAS_READ: a read at a shadow alias address (R395). -/
def execAliasRead (req : Requester) (addr : Nat) (s : State) : Result := .next (busRead s req addr)

/-- COUNTER_LOW_READ: the low word of a counter, its high word latched for the requester (R398). -/
def execCounterLowRead (req : Requester) (addr : Nat) (s : State) : Result := .next (busRead s req addr)

/-- COUNTER_HIGH_READ: the high word of a counter (R398). -/
def execCounterHighRead (req : Requester) (addr : Nat) (s : State) : Result := .next (busRead s req addr)

/-- TIME_NOW_READ: TIME_NOW_FRAC in the block window or a panel's copy, with the nanoseconds and seconds latched (R393). -/
def execTimeNowRead (req : Requester) (addr : Nat) (s : State) : Result := .next (busRead s req addr)

/-- APERTURE_READ: a device word through the HBM aperture (R271). -/
def execApertureRead (req : Requester) (addr : Nat) (s : State) : Result := .next (busRead s req addr)

/-! ### PCIe identity (R406) -/

/-- What a function of the management endpoint identifies itself as. -/
structure PcieId where
  vendor : Nat
  device : Nat
  classCode : Nat
  revision : Nat
  subVendor : Nat
  subsystem : Nat
  barBytes : Nat
  deriving DecidableEq, Repr

/-- Function 0, the physical function, and virtual function n as function n + 1, whose class, revision and subsystem SR-IOV takes from the physical
function's (R406). -/
def pcieId (s : State) (fn : Nat) : PcieId :=
  { vendor := 0x1F3C, device := if fn = 0 then 0x8720 else 0x8721, classCode := 0x0B4000, revision := s.boot.stepping.toNat, subVendor := 0x1F3C,
    subsystem := s.boot.variant.toNat, barBytes := if fn = 0 then 0x20000000 else 0x1000000 }

/-! ### SMBus (R413) -/

/-- The SMBus port answers: PORST_N released, the straps sampled, PD0 on (R413). -/
def smbusUp (s : State) : Bool := !s.boot.porst && decide (3 ≤ s.boot.samples.length) && domOn s 0

/-- SMBUS_BLOCK_READ: the GLB register at word offset `code`; a code that names no register is not answered (log 61). -/
def execSmbusBlockRead (code : Nat) (s : State) : Result :=
  .next <|
    if !smbusUp s then s
    else match regAt .GLB (4 * code) with
    | some (r, i, _) => send s (.smbus (regValue s r i))
    | none => s

/-- SMBUS_SQC_CLEAR: the one write accepted, an SQC clear of GLB_EVENT. -/
def execSmbusSqcClear (value : Word) (s : State) : Result := .next (if smbusUp s then sqcClear s .GLB_EVENT 0 value else s)

end Sys2Proof.Machine
end

