-- ==== Sys2Proof/Machine/Dispatch.lean ====
section
/-! DEFINITION. The meaning of every command, one arm for each constructor. -/

namespace Sys2Proof.Machine

def exec (i : Instr) (s : State) : Host.Outcome State Fault Refusal :=
  match i with
  | .porstNRelease => Sys2Proof.Machine.execPorstNRelease s
  | .porstNAssert => Sys2Proof.Machine.execPorstNAssert s
  | .perstNAssert => Sys2Proof.Machine.execPerstNAssert s
  | .strapSample levels => Sys2Proof.Machine.execStrapSample levels s
  | .lifecycleRead code => Sys2Proof.Machine.execLifecycleRead code s
  | .postDone units => Sys2Proof.Machine.execPostDone units s
  | .patternCheckDone slow a b => Sys2Proof.Machine.execPatternCheckDone slow a b s
  | .hbmTrainingDone ok => Sys2Proof.Machine.execHbmTrainingDone ok s
  | .fabricReady => Sys2Proof.Machine.execFabricReady s
  | .longhaulReady => Sys2Proof.Machine.execLonghaulReady s
  | .registerWrite req addr value => Sys2Proof.Machine.execRegisterWrite req addr value s
  | .malformedAccess req addr write => Sys2Proof.Machine.execMalformedAccess req addr write s
  | .rwsWrite req addr value => Sys2Proof.Machine.execRwsWrite req addr value s
  | .rwsApply addr => Sys2Proof.Machine.execRwsApply addr s
  | .aliasRead req addr => Sys2Proof.Machine.execAliasRead req addr s
  | .sqcWrite req addr value => Sys2Proof.Machine.execSqcWrite req addr value s
  | .counterLowRead req addr => Sys2Proof.Machine.execCounterLowRead req addr s
  | .counterHighRead req addr => Sys2Proof.Machine.execCounterHighRead req addr s
  | .timeNowRead req addr => Sys2Proof.Machine.execTimeNowRead req addr s
  | .irqHoldoffExpiry fn vec => Sys2Proof.Machine.execIrqHoldoffExpiry fn vec s
  | .glbPanelCfgWrite req panel value => Sys2Proof.Machine.execGlbPanelCfgWrite req panel value s
  | .panelReset req panel => Sys2Proof.Machine.execPanelReset req panel s
  | .panelResetDone panel => Sys2Proof.Machine.execPanelResetDone panel s
  | .smbusBlockRead code => Sys2Proof.Machine.execSmbusBlockRead code s
  | .smbusSqcClear value => Sys2Proof.Machine.execSmbusSqcClear value s
  | .flashErase req => Sys2Proof.Machine.execFlashErase req s
  | .flashProgram req => Sys2Proof.Machine.execFlashProgram req s
  | .flashRead req => Sys2Proof.Machine.execFlashRead req s
  | .flashDone fail => Sys2Proof.Machine.execFlashDone fail s
  | .raiseMinver req => Sys2Proof.Machine.execRaiseMinver req s
  | .alarm cause => Sys2Proof.Machine.execAlarm cause s
  | .stitchNop eng slot => Sys2Proof.Machine.execStitchNop eng slot s
  | .stitchEnd eng slot => Sys2Proof.Machine.execStitchEnd eng slot s
  | .stitchSetl eng slot => Sys2Proof.Machine.execStitchSetl eng slot s
  | .stitchLoad eng slot u => Sys2Proof.Machine.execStitchLoad eng slot u s
  | .stitchStore eng slot u => Sys2Proof.Machine.execStitchStore eng slot u s
  | .stitchIota eng slot => Sys2Proof.Machine.execStitchIota eng slot s
  | .stitchUnpack eng slot => Sys2Proof.Machine.execStitchUnpack eng slot s
  | .stitchPack eng slot u => Sys2Proof.Machine.execStitchPack eng slot u s
  | .stitchWiden eng slot => Sys2Proof.Machine.execStitchWiden eng slot s
  | .stitchNarrow eng slot => Sys2Proof.Machine.execStitchNarrow eng slot s
  | .stitchSum eng slot u => Sys2Proof.Machine.execStitchSum eng slot u s
  | .stitchScale eng slot u => Sys2Proof.Machine.execStitchScale eng slot u s
  | .stitchGather eng slot u => Sys2Proof.Machine.execStitchGather eng slot u s
  | .stitchSort eng slot => Sys2Proof.Machine.execStitchSort eng slot s
  | .stitchTopk eng slot => Sys2Proof.Machine.execStitchTopk eng slot s
  | .stitchFilter eng slot => Sys2Proof.Machine.execStitchFilter eng slot s
  | .stitchCheck eng slot => Sys2Proof.Machine.execStitchCheck eng slot s
  | .stitchEmit eng slot => Sys2Proof.Machine.execStitchEmit eng slot s
  | .stitchWait eng slot => Sys2Proof.Machine.execStitchWait eng slot s
  | .stitchBranch eng slot => Sys2Proof.Machine.execStitchBranch eng slot s
  | .stitchStallRelease eng slot => Sys2Proof.Machine.execStitchStallRelease eng slot s
  | .arriveDispatch eng slot panel => Sys2Proof.Machine.execArriveDispatch eng slot panel s
  | .doneDispatch eng slot panel => Sys2Proof.Machine.execDoneDispatch eng slot panel s
  | .arriveResume eng slot => Sys2Proof.Machine.execArriveResume eng slot s
  | .usedTallyHalving eng => Sys2Proof.Machine.execUsedTallyHalving eng s
  | .ringTransferArrive k => Sys2Proof.Machine.execRingTransferArrive k s
  | .remnantAccessDone => Sys2Proof.Machine.execRemnantAccessDone s
  | .spDataWrite req eng value => Sys2Proof.Machine.execSpDataWrite req eng value s
  | .spDataRead req eng => Sys2Proof.Machine.execSpDataRead req eng s
  | .slotCommit req k => Sys2Proof.Machine.execSlotCommit req k s
  | .slotClear req k => Sys2Proof.Machine.execSlotClear req k s
  | .slotCheckDone k => Sys2Proof.Machine.execSlotCheckDone k s
  | .ctxBindApply k => Sys2Proof.Machine.execCtxBindApply k s
  | .contrib d => Sys2Proof.Machine.execContrib d s
  | .result d => Sys2Proof.Machine.execResult d s
  | .nackMsg d => Sys2Proof.Machine.execNackMsg d s
  | .abortMsg d => Sys2Proof.Machine.execAbortMsg d s
  | .closeMsg d => Sys2Proof.Machine.execCloseMsg d s
  | .creditMsg d => Sys2Proof.Machine.execCreditMsg d s
  | .barrierMsg d => Sys2Proof.Machine.execBarrierMsg d s
  | .releaseMsg d => Sys2Proof.Machine.execReleaseMsg d s
  | .resumeMsg d => Sys2Proof.Machine.execResumeMsg d s
  | .missTimerExpiry bolt => Sys2Proof.Machine.execMissTimerExpiry bolt s
  | .openCommand req view => Sys2Proof.Machine.execOpenCommand req view s
  | .retireCommand req view => Sys2Proof.Machine.execRetireCommand req view s
  | .standinCommand req view => Sys2Proof.Machine.execStandinCommand req view s
  | .abortCommand req view => Sys2Proof.Machine.execAbortCommand req view s
  | .qpReset req view => Sys2Proof.Machine.execQpReset req view s
  | .resumeCommand req view => Sys2Proof.Machine.execResumeCommand req view s
  | .cmdDone view => Sys2Proof.Machine.execCmdDone view s
  | .rdmaAck qpn psn => Sys2Proof.Machine.execRdmaAck qpn psn s
  | .rdmaNak qpn psn kind => Sys2Proof.Machine.execRdmaNak qpn psn kind s
  | .rdmaAckTimeout qpn => Sys2Proof.Machine.execRdmaAckTimeout qpn s
  | .rdmaIgnoredPacket port => Sys2Proof.Machine.execRdmaIgnoredPacket port s
  | .closeTackReceive panel coll site epoch => Sys2Proof.Machine.execCloseTackReceive panel coll site epoch s
  | .closeTackRepeat panel coll epoch => Sys2Proof.Machine.execCloseTackRepeat panel coll epoch s
  | .spanWindowOpen win => Sys2Proof.Machine.execSpanWindowOpen win s
  | .spanWindowClose win => Sys2Proof.Machine.execSpanWindowClose win s
  | .pltLoad req slot => Sys2Proof.Machine.execPltLoad req slot s
  | .pltClear req slot => Sys2Proof.Machine.execPltClear req slot s
  | .pltCmdDone => Sys2Proof.Machine.execPltCmdDone s
  | .pleatBlockReturn k => Sys2Proof.Machine.execPleatBlockReturn k s
  | .pleatDecodeDone group dec => Sys2Proof.Machine.execPleatDecodeDone group dec s
  | .frameReceive f => Sys2Proof.Machine.execFrameReceive f s
  | .pfcReceive port quanta => Sys2Proof.Machine.execPfcReceive port quanta s
  | .frameTransmit port panel phase => Sys2Proof.Machine.execFrameTransmit port panel phase s
  | .pfcRefresh port cls => Sys2Proof.Machine.execPfcRefresh port cls s
  | .frameAgeOut inp cls dest => Sys2Proof.Machine.execFrameAgeOut inp cls dest s
  | .linkUp port => Sys2Proof.Machine.execLinkUp port s
  | .linkDown port => Sys2Proof.Machine.execLinkDown port s
  | .fportQdModeWrite req q value => Sys2Proof.Machine.execFportQdModeWrite req q value s
  | .fportCtrlWrite req port value => Sys2Proof.Machine.execFportCtrlWrite req port value s
  | .swLimitWrite req pfc port cls value => Sys2Proof.Machine.execSwLimitWrite req pfc port cls value s
  | .fdbWrite req => Sys2Proof.Machine.execFdbWrite req s
  | .fdbDelete req => Sys2Proof.Machine.execFdbDelete req s
  | .tmPolWrite req reg port cls value => Sys2Proof.Machine.execTmPolWrite req reg port cls value s
  | .tmShpWrite req reg port cls value => Sys2Proof.Machine.execTmShpWrite req reg port cls value s
  | .gclCommit req port => Sys2Proof.Machine.execGclCommit req port s
  | .gclStop req port => Sys2Proof.Machine.execGclStop req port s
  | .gclSwap port => Sys2Proof.Machine.execGclSwap port s
  | .gclEntryExpiry port => Sys2Proof.Machine.execGclEntryExpiry port s
  | .bastCircCfgWrite req circ value => Sys2Proof.Machine.execBastCircCfgWrite req circ value s
  | .relockDone circ => Sys2Proof.Machine.execRelockDone circ s
  | .lossOfLock circ => Sys2Proof.Machine.execLossOfLock circ s
  | .lockReturn circ => Sys2Proof.Machine.execLockReturn circ s
  | .bastRxCfgWrite req rx value => Sys2Proof.Machine.execBastRxCfgWrite req rx value s
  | .tackWordReceive rx word => Sys2Proof.Machine.execTackWordReceive rx word s
  | .tackRxAlign rx => Sys2Proof.Machine.execTackRxAlign rx s
  | .tackRxAlignLoss rx => Sys2Proof.Machine.execTackRxAlignLoss rx s
  | .bobbinGrant => Sys2Proof.Machine.execBobbinGrant s
  | .ringRefillDone spool lost => Sys2Proof.Machine.execRingRefillDone spool lost s
  | .memPanelQuotaWrite req panel value => Sys2Proof.Machine.execMemPanelQuotaWrite req panel value s
  | .apertureRead req addr => Sys2Proof.Machine.execApertureRead req addr s
  | .apertureWrite req addr value => Sys2Proof.Machine.execApertureWrite req addr value s
  | .scrubRead first second => Sys2Proof.Machine.execScrubRead first second s
  | .scrubPeriodExpiry => Sys2Proof.Machine.execScrubPeriodExpiry s
  | .segmentTransmit sess => Sys2Proof.Machine.execSegmentTransmit sess s
  | .dataSegment seg => Sys2Proof.Machine.execDataSegment seg s
  | .spanChunkDeliver sess => Sys2Proof.Machine.execSpanChunkDeliver sess s
  | .ackSegment seg => Sys2Proof.Machine.execAckSegment seg s
  | .ackTimerExpiry sess => Sys2Proof.Machine.execAckTimerExpiry sess s
  | .rtxTimerExpiry sess seq => Sys2Proof.Machine.execRtxTimerExpiry sess seq s
  | .stallTimeout sess => Sys2Proof.Machine.execStallTimeout sess s
  | .packHoldExpiry sess => Sys2Proof.Machine.execPackHoldExpiry sess s
  | .openSegment seg => Sys2Proof.Machine.execOpenSegment seg s
  | .openAck seg => Sys2Proof.Machine.execOpenAck seg s
  | .closeSegment seg => Sys2Proof.Machine.execCloseSegment seg s
  | .openRepeat sess => Sys2Proof.Machine.execOpenRepeat sess s
  | .closeRepeat sess => Sys2Proof.Machine.execCloseRepeat sess s
  | .sessionAdmit => Sys2Proof.Machine.execSessionAdmit s
  | .sessOpen req sess => Sys2Proof.Machine.execSessOpen req sess s
  | .sessClose req sess => Sys2Proof.Machine.execSessClose req sess s
  | .selvSessCfgWrite req sess value => Sys2Proof.Machine.execSelvSessCfgWrite req sess value s
  | .twinCopyStart => Sys2Proof.Machine.execTwinCopyStart s
  | .twinRecords copySeq recs => Sys2Proof.Machine.execTwinRecords copySeq recs s
  | .twinCommit copySeq count crc => Sys2Proof.Machine.execTwinCommit copySeq count crc s
  | .commitAck copySeq => Sys2Proof.Machine.execCommitAck copySeq s
  | .twinAutoTakeover => Sys2Proof.Machine.execTwinAutoTakeover s
  | .takeover req => Sys2Proof.Machine.execTakeover req s
  | .lineFrameReceive ch f => Sys2Proof.Machine.execLineFrameReceive ch f s
  | .lineFrameTransmit group phase => Sys2Proof.Machine.execLineFrameTransmit group phase s
  | .controlCellReceive ch typ word => Sys2Proof.Machine.execControlCellReceive ch typ word s
  | .cmCommit req group => Sys2Proof.Machine.execCmCommit req group s
  | .cmClear req group => Sys2Proof.Machine.execCmClear req group s
  | .cmCheckDone group => Sys2Proof.Machine.execCmCheckDone group s
  | .memberAdd req ch => Sys2Proof.Machine.execMemberAdd req ch s
  | .memberRemove req ch => Sys2Proof.Machine.execMemberRemove req ch s
  | .lineChCfgWrite req ch value => Sys2Proof.Machine.execLineChCfgWrite req ch value s
  | .lineGrpCfgWrite req group value => Sys2Proof.Machine.execLineGrpCfgWrite req group value s
  | .wtrExpiry group => Sys2Proof.Machine.execWtrExpiry group s
  | .optBandWrite req die value => Sys2Proof.Machine.execOptBandWrite req die value s
  | .refit req die => Sys2Proof.Machine.execRefit req die s
  | .fitCombLock die setpoint => Sys2Proof.Machine.execFitCombLock die setpoint s
  | .fitCombTimeout die => Sys2Proof.Machine.execFitCombTimeout die s
  | .fitSweepDone die sweep => Sys2Proof.Machine.execFitSweepDone die sweep s
  | .fitDone die lost => Sys2Proof.Machine.execFitDone die lost s
  | .tuningPeriod die bias temp chans => Sys2Proof.Machine.execTuningPeriod die bias temp chans s
  | .ringLockLoss ch transmit => Sys2Proof.Machine.execRingLockLoss ch transmit s
  | .rxLock ch => Sys2Proof.Machine.execRxLock ch s
  | .optChCtrlWrite req ch value => Sys2Proof.Machine.execOptChCtrlWrite req ch value s
  | .launchRampDone ch => Sys2Proof.Machine.execLaunchRampDone ch s
  | .losSet ch power pilot => Sys2Proof.Machine.execLosSet ch power pilot s
  | .losCleared ch power => Sys2Proof.Machine.execLosCleared ch power s
  | .optChLosThrWrite req ch value => Sys2Proof.Machine.execOptChLosThrWrite req ch value s
  | .calCommand req ch => Sys2Proof.Machine.execCalCommand req ch s
  | .calPeriodExpiry ch => Sys2Proof.Machine.execCalPeriodExpiry ch s
  | .calStart die => Sys2Proof.Machine.execCalStart die s
  | .calForced ch => Sys2Proof.Machine.execCalForced ch s
  | .calPatternEnd ch => Sys2Proof.Machine.execCalPatternEnd ch s
  | .keySwitch req sess => Sys2Proof.Machine.execKeySwitch req sess s
  | .clearRetired req sess => Sys2Proof.Machine.execClearRetired req sess s
  | .kldGo req group => Sys2Proof.Machine.execKldGo req group s
  | .keyLoadComplete group plain => Sys2Proof.Machine.execKeyLoadComplete group plain s
  | .ppsEdge phase => Sys2Proof.Machine.execPpsEdge phase s
  | .todMessage msg => Sys2Proof.Machine.execTodMessage msg s
  | .ptpSync m => Sys2Proof.Machine.execPtpSync m s
  | .followUp port seq sender origin corr => Sys2Proof.Machine.execFollowUp port seq sender origin corr s
  | .delayReq port domain seq sender phase => Sys2Proof.Machine.execDelayReq port domain seq sender phase s
  | .delayResp port seq received corr => Sys2Proof.Machine.execDelayResp port seq received corr s
  | .announce port domain d => Sys2Proof.Machine.execAnnounce port domain d s
  | .ptpUnsupported port => Sys2Proof.Machine.execPtpUnsupported port s
  | .ptpSyncSend port phase => Sys2Proof.Machine.execPtpSyncSend port phase s
  | .refLost => Sys2Proof.Machine.execRefLost s
  | .restep req => Sys2Proof.Machine.execRestep req s
  | .timeCfgWrite req value => Sys2Proof.Machine.execTimeCfgWrite req value s
  | .lineTimeAverage group => Sys2Proof.Machine.execLineTimeAverage group s
  | .ctxWatchdogExpiry ctx => Sys2Proof.Machine.execCtxWatchdogExpiry ctx s
  | .engineResetDone eng => Sys2Proof.Machine.execEngineResetDone eng s
  | .trialTimeout eng => Sys2Proof.Machine.execTrialTimeout eng s
  | .portStall port cls => Sys2Proof.Machine.execPortStall port cls s
  | .txHang port => Sys2Proof.Machine.execTxHang port s
  | .ctlWdog => Sys2Proof.Machine.execCtlWdog s
  | .devRecover req => Sys2Proof.Machine.execDevRecover req s
  | .deviceRecoveryDone => Sys2Proof.Machine.execDeviceRecoveryDone s
  | .unfence req eng pass => Sys2Proof.Machine.execUnfence req eng pass s
  | .domRecover req dom => Sys2Proof.Machine.execDomRecover req dom s
  | .domainOff req dom => Sys2Proof.Machine.execDomainOff req dom s
  | .domainOn req dom => Sys2Proof.Machine.execDomainOn req dom s
  | .drainTimeout dom => Sys2Proof.Machine.execDrainTimeout dom s
  | .domainOnDone dom => Sys2Proof.Machine.execDomainOnDone dom s
  | .swatchLogCopy eraseOk programOk => Sys2Proof.Machine.execSwatchLogCopy eraseOk programOk s
  | .obsRefresh => Sys2Proof.Machine.execObsRefresh s
  | .satPeriodExpiry => Sys2Proof.Machine.execSatPeriodExpiry s
  | .dbgPnlObsWrite req panel value => Sys2Proof.Machine.execDbgPnlObsWrite req panel value s
  | .engTest req eng => Sys2Proof.Machine.execEngTest req eng s
  | .bistExtended req => Sys2Proof.Machine.execBistExtended req s
  | .bistDone units => Sys2Proof.Machine.execBistDone units s
  | .thermAlertAssert die temp => Sys2Proof.Machine.execThermAlertAssert die temp s
  | .thermAlertRelease temps => Sys2Proof.Machine.execThermAlertRelease temps s
  | .vmonWarn rail mv => Sys2Proof.Machine.execVmonWarn rail mv s
  | .serdesRefLoss die => Sys2Proof.Machine.execSerdesRefLoss die s
  | .pfcPauseExpiry port cls => Sys2Proof.Machine.execPfcPauseExpiry port cls s
  | .serdesRefReturn die => Sys2Proof.Machine.execSerdesRefReturn die s
  | .perstNRelease => Sys2Proof.Machine.execPerstNRelease s
  | .delayReqSend port phase => Sys2Proof.Machine.execDelayReqSend port phase s
  | .raiseMinverDone fail => Sys2Proof.Machine.execRaiseMinverDone fail s

end Sys2Proof.Machine
end

