-- ==== Sys2Proof/Machine/Tick.lean ====
section
/-! DEFINITION. One microsecond of the time base, which is what a step does while no command waits (log 62). -/

namespace Sys2Proof.Machine

/-- The registers whose boundary is the next 1 µs tick (R399; log 59). -/
def tickRids : List Rid :=
  [.TIME_CFG, .TIME_FREQ_TRIM, .TIME_PORT_CFG, .TIME_PORT_ING_LAT, .TIME_PORT_EGR_LAT, .TIME_LINE_ASYM, .PLT_PANEL_MAXQ, .MEM_REM_SHARE,
   .HLT_CFG, .HLT_PORT_STALL]

/-- Held writes whose boundary is the tick take effect (R399). -/
def tickApply (s : State) : State :=
  tickRids.foldl (fun s r =>
    (tabKeys (tabGet [] s.held (ridNum r))).foldl (fun s i => applyHeld s r i (fun s v => rwsTake s r i v)) s) s

/-- The bulk lanes have finished their segments (R372). -/
def lanesDone (s : State) : State := { s with thm := { s.thm with lanes := [] } }

/-- An interval of 1 µs in which an encode request waited for an array is counted (R209, R212). -/
def encWaits (s : State) : State := if 16 < s.plt.enc.length then raiseEv (ctrInc s .PLT_CNT_ENC_SAT 0) .PLT_EVENT 0 2 else s

/-- An interval of 1 µs in which a residual request waited for its share is counted (R183). -/
def remWaits (s : State) : State := if !remWaiting s then remNew s else ctrInc (remNew s) .MEM_REM_CNT_THR 0
where
  /-- The next microsecond's share starts. -/
  remNew (s : State) : State := { s with seam := { s.seam with remUsed := 0 } }

/-- The trace FIFO of every unit whose domain is ON gives up its oldest record (R28, R453). -/
def tracesOut (s : State) : State :=
  ((tabKeys s.obs.fifos).filter (fun u => (unitDom u).all (domOn s))).foldl traceDrain s

/-- Codebook slots whose copies have both failed (R277). -/
def codebooksOut (s : State) : State := (tabKeys s.plt.cbs).foldl cbLost s

/-- CONTRIBs that wait for their time to be sent again (R132). -/
def upsOut (s : State) : State := s.cco.colls.foldl (fun s c => upFlush s c.panel c.id) s

/-- One microsecond passes: time advances, held writes of the tick apply, what is driven by time alone goes on, and faults presented in it lead to
their recovery. -/
def tick (s : State) : State :=
  if s.boot.porst then s
  else escalations <| codebooksOut <| stallTick (scrubWriteBack (remWaits (encWaits (satTick (upsOut (tracesOut (streamsOut (lanesDone (announceTick (tickApply (timeTick s)))))))))))

end Sys2Proof.Machine
end

