-- ==== Sys2Proof/Machine/Step.lean ====
section
/-! DEFINITION. One step: the command at the front of the queue, or with none waiting one microsecond of the time base (log 62). -/

namespace Sys2Proof.Machine

/-- One step of the gateway. -/
def step (s : State) : Host.Outcome State Fault Refusal :=
  match s.pending with
  | i :: q => exec i { s with pending := q }
  | [] => .next (tick s)

/-- The state with the command that a word of the table spells put at the front of its queue; the table gives no row any bits (log 63). -/
def State.withFetchWord (s : State) (nbits w : Nat) : State :=
  match Sys2Proof.decodeTableWord nbits w with
  | some i => { s with pending := i :: s.pending }
  | none => s

end Sys2Proof.Machine
end

