-- ==== Sys2Proof/Safety.lean ====
section
/-! DEFINITION. The terms the statements use: a command that completes, a register that is reached, and what a state change leaves alone. -/

namespace Sys2Proof.Machine

/-- The command completes: it answers a next state, of which `P` holds. -/
def Completes (c : Instr) (s : State) (P : State → Prop) : Prop := ∃ t, exec c s = .next t ∧ P t

/-- The requester's access arrives at element `i` of the register and finds it implemented (R394-R397). -/
def Arrives (s : State) (req : Requester) (r : Rid) (i : Nat) : Bool :=
  reqLink s req && (decide (i < ridCount r * (if (ridRow r).view then 17 else 1)) && reaches s req r i)

/-- The address names a word of the register, and the requester's access reaches it (R394-R397, R403). -/
def ReadsAt (s : State) (req : Requester) (addr : Nat) (r : Rid) (i : Nat) (hi : Bool) : Bool :=
  reqLink s req && decide (addr % 4 = 0) && decide (target req addr = .reg r i hi) && addrHas s req addr r i

/-- The same for a write that the register's window takes: not the read-only copy of a quota, not GLB in safe state (R403, R410, R425). -/
def WritesAt (s : State) (req : Requester) (addr : Nat) (r : Rid) (i : Nat) : Bool :=
  ReadsAt s req addr r i false && !readOnlyCopy req addr r && !((ridRow r).blk == .GLB && glbClosed s && (ridRow r).acc != .sqc)

/-- The RW registers a write of which has a row of its own in the table, or limits of its own. -/
def ownRowRw : List Rid :=
  [.GLB_PANEL_CFG, .FPORT_QD_MODE, .SW_PANEL_CELLS, .BAST_CIRC_CFG, .BAST_RX_CFG, .SEAM_SP_DATA, .SEAM_SLOT_SBCFG, .SEAM_SLOT_SBCRC,
   .SEAM_SB_PAGE, .MEM_PANEL_QUOTA, .SELV_TWIN_CFG, .DBG_PNL_OBS, .LINE_CM_TX_SB, .LINE_CM_RX_SB, .LINE_GRP_CM_SBGEN]

/-- The RWS registers without a row, or limits, of their own. -/
def plainRws : List Rid :=
  [.THM_SESS_CFG, .TIME_FREQ_TRIM, .TIME_PORT_CFG, .TIME_PORT_ING_LAT, .TIME_PORT_EGR_LAT, .TIME_LINE_ASYM, .FPORT_PCP_MAP, .FPORT_DSCP_MAP,
   .SW_CT, .TM_SCH_WT, .CCO_CFG, .CCO_UDP_PORT, .PLT_CTX_CB, .MEM_REM_SHARE, .SELV_ACK_CFG, .SELV_PACK_HOLD, .SELV_SESS_PEER,
   .SELV_SESS_RTT, .SELV_SESS_WIN, .SELV_SESS_STALL, .LINE_GRP_PROT, .HLT_CFG, .HLT_PORT_STALL]

/-- An event happened once in an event register: its bit is set, the others are as before, SEQ advanced by one (R18, R401). -/
def Happened (s t : State) (r : Rid) (i b : Nat) : Prop :=
  evGet t r i = ⟨(evGet s r i).seq + 1, (evGet s r i).bits ||| BitVec.ofNat 24 (pow2 b)⟩

/-- The parts of the state. -/
inductive Part where
  | pending | regs | held | events | counters | latches | irq | glbBusErr | pnlBusErr | timeLatch | response | outbox | fresh | localUs
  | boot | flash | pins | panels | pwr | health | obs | bist | bob | mem | time | thm | selv | spw | cco | seam | plt | fab | bast | line
  | opt
  deriving DecidableEq, Repr

/-- A part is the same in two states. -/
def Part.same (s t : State) : Part → Prop
  | .pending => t.pending = s.pending
  | .regs => t.regs = s.regs
  | .held => t.held = s.held
  | .events => t.events = s.events
  | .counters => t.counters = s.counters
  | .latches => t.latches = s.latches
  | .irq => t.irq = s.irq
  | .glbBusErr => t.glbBusErr = s.glbBusErr
  | .pnlBusErr => t.pnlBusErr = s.pnlBusErr
  | .timeLatch => t.timeLatch = s.timeLatch
  | .response => t.response = s.response
  | .outbox => t.outbox = s.outbox
  | .fresh => t.fresh = s.fresh
  | .localUs => t.localUs = s.localUs
  | .boot => t.boot = s.boot
  | .flash => t.flash = s.flash
  | .pins => t.pins = s.pins
  | .panels => t.panels = s.panels
  | .pwr => t.pwr = s.pwr
  | .health => t.health = s.health
  | .obs => t.obs = s.obs
  | .bist => t.bist = s.bist
  | .bob => t.bob = s.bob
  | .mem => t.mem = s.mem
  | .time => t.time = s.time
  | .thm => t.thm = s.thm
  | .selv => t.selv = s.selv
  | .spw => t.spw = s.spw
  | .cco => t.cco = s.cco
  | .seam => t.seam = s.seam
  | .plt => t.plt = s.plt
  | .fab => t.fab = s.fab
  | .bast => t.bast = s.bast
  | .line => t.line = s.line
  | .opt => t.opt = s.opt

/-- Nothing of the state changed except the parts listed. -/
def OnlyChanges (ps : List Part) (s t : State) : Prop := ∀ p : Part, p ∈ ps ∨ p.same s t

/-- A session has entered FAULT with a cause, what it held discarded, and nothing of another session has changed (R302). -/
def SessFaulted (s t : State) (k cause : Nat) : Prop :=
  (selvGet t k).state = .fault ∧ (selvGet t k).fcause = BitVec.ofNat 8 cause ∧ sessSegs (selvGet t k) = [] ∧ (selvGet t k).store = [] ∧
  (∀ m, m ≠ k → selvGet t m = selvGet s m) ∧ Happened s t .SELV_SESS_EVENT k 0 ∧ Happened s t .SELV_EVENT 0 0 ∧
  OnlyChanges [.events, .counters, .irq, .outbox, .selv] s t

/-- A segment of the given kind, header fields and payload has left on a session (R283, R290). -/
def SegmentLeft (t : State) (k typ : Nat) (rtx : Bool) (seq : Word) (payload : List Byte) : Prop :=
  ∃ hdr key salt, .segment k hdr payload key salt ∈ t.outbox ∧ hdr.typ = typ ∧ hdr.rtx = rtx ∧ hdr.seq = seq ∧ hdr.src = k ∧
    hdr.plen = payload.length ∧ hdr.gen = (selvGet t k).gen

/-- The state that a message leaves: `P` holds of what it does itself, and what it has not kept of its frame in the VOQ is released (R223). -/
abbrev Taken (s : State) (d : Datagram) (P : State → Prop) (t : State) : Prop := ∃ u, P u ∧ t = scpTaken s d u

/-- A datagram as one fragment of its message (R125). -/
abbrev fragOf (d : Datagram) : Frag := ⟨(dgHdr d).fragOff, (dgHdr d).nelem, (dgHdr d).fmt, dgPayload d⟩

/-- The fragments held of the RESULT that a datagram belongs to (R130). -/
abbrev heldOf (c : Coll) (d : Datagram) : List Frag :=
  match c.results.find? (fun r => r.epoch == (dgHdr d).epoch && r.chunk == (dgHdr d).chunk) with
  | some r => r.frags
  | none => []

/-- What every message from the parent does first: its credit limit and its rank map generation are noted (R121, R143). -/
abbrev fromAbove (s : State) (d : Datagram) (c : Coll) : State :=
  parentGen (parentRaise s (portPanel s d.port) c.id (dgHdr d).epoch (dgHdr d).creditLim) (portPanel s d.port) c.id (dgHdr d).rgen

/-- A datagram for the SCP port, within the limits and readable, has come on a port that carries (R119, R128). -/
abbrev Comes (s : State) (d : Datagram) (op : Nat) : Prop :=
  portCarries s d.port = true ∧ domOn s 11 = true ∧ d.off + 64 ≤ 256 ∧ d.hdrs ≤ 8 ∧ d.dstPort = scpPort s ∧ (dgHdr d).opc = op ∧ hdrReadable d = true

/-- A datagram of an opcode has come on a port that carries, and has passed checks 1 to 8 for an open collective whose rank map reads (R128,
R129, R277). -/
abbrev HeadOk (s : State) (d : Datagram) (op : Nat) (c : Coll) : Prop :=
  Comes s d op ∧
  headCheck s d (portPanel s d.port) = none ∧ ueIn s c.rmapAddr (32 * c.nrmap) = none ∧ collFind s (portPanel s d.port) (dgHdr d).coll = some c

/-- Such a message without a payload that comes from the parent and passes the rest (R130). -/
abbrev FromParent (s : State) (d : Datagram) (op : Nat) (c : Coll) : Prop :=
  HeadOk s d op c ∧ epochCheck c (dgHdr d).epoch = none ∧ fromParent c d.srcIp d.srcPort = true ∧
  ((dgHdr d).rank = rankNone ∨ (op = opcNack ∧ (dgHdr d).rank = c.upRank))

/-- A CONTRIB that has passed checks 1 to 14 for contributor `i` of stage `st`, within the credit, to the bolt `k` of its chunk (R129). -/
abbrev ContribOk (s : State) (d : Datagram) (c : Coll) (i st k : Nat) (b : Bolt) : Prop :=
  HeadOk s d 1 c ∧ epochCheck c (dgHdr d).epoch = none ∧ (epochFind c (dgHdr d).epoch).isSome = true ∧
  (rankCheck s c (dgHdr d).epoch (dgHdr d).rank d.srcIp d.srcPort).toOption = some (i, st) ∧ bodyCheck s c st i (dgHdr d) (dgPayload d) = none ∧
  (dgHdr d).chunk < creditLimit c (dgHdr d).epoch ∧ chunkBolt s (portPanel s d.port) c.id st (dgHdr d).epoch (dgHdr d).chunk = some (k, b) ∧ boltGet s k = some b

/-- Such a message from contributor `i` of stage `st`. -/
abbrev FromRank (s : State) (d : Datagram) (op : Nat) (c : Coll) (i st : Nat) : Prop :=
  HeadOk s d op c ∧ epochCheck c (dgHdr d).epoch = none ∧ fromParent c d.srcIp d.srcPort = false ∧
  (rankCheck s c (dgHdr d).epoch (dgHdr d).rank d.srcIp d.srcPort).toOption = some (i, st)

/-- The invocation of a slot is at a stitch of the opcode, is not waiting, and may issue (R81, R105, R112). -/
abbrev Issues (s : State) (eng slot op : Nat) (v : Env) : Prop :=
  envOf s (8 * eng + slot) = some v ∧ v.t.op = op ∧ v.x.stall = false ∧ v.x.held = false ∧ engRuns s eng = true ∧ mayIssue s (8 * eng + slot) = true ∧ slot < 8

/-- A stitch has issued: its invocation is as given and at the next stitch, no other slot has changed, and the issue cycles are in the panel's
tally and the engine's count (R80, R112). -/
def Stitched (s t : State) (v : Env) (x : Inv) (next cost : Nat) : Prop :=
  runOf t v.i = some { x with pc := next, stall := false } ∧ (∀ j, j ≠ v.i → slotGet t j = slotGet s j) ∧
  (0 < cost → tabGet 0 (engGet t (v.i / 8)).used v.b.panel = tabGet 0 (engGet s (v.i / 8)).used v.b.panel + cost) ∧
  ctrGet t .SEAM_CNT_ISSUE (v.i / 8) = ctrGet s .SEAM_CNT_ISSUE (v.i / 8) + BitVec.ofNat 64 cost

/-- Chunks, scratch areas, Remnant accesses and ring transfers are as before, and so is all but the counters and the engines' slots. -/
def SeamKept (s t : State) : Prop :=
  t.seam.bolts = s.seam.bolts ∧ t.seam.ctxs = s.seam.ctxs ∧ t.seam.remq = s.seam.remq ∧ t.seam.ring = s.seam.ring ∧ OnlyChanges [.counters, .seam] s t

/-- A program fault: the invocation is gone, and its context is faulted with the cause and the stitch's index (R108). -/
def ProgFaulted (t : State) (v : Env) (cause : Byte) : Prop :=
  runOf t v.i = none ∧ (ctxGet t v.x.ctx).faulted = true ∧ (ctxGet t v.x.ctx).cause = cause ∧ (ctxGet t v.x.ctx).index = BitVec.ofNat 8 v.x.pc ∧
  (evGet t .SEAM_CTX_EVENT v.x.ctx).bits.getLsbD 0 = true

/-- The canonical form of a table of tables: keys rising, no empty table listed, every table listed canonical. -/
def tabsWf {α : Type} [DecidableEq α] (d : Nat → α) (t : Tab (Tab α)) : Bool := tabWf [] t && t.all (fun e => tabWf (d e.1) e.2)

/-- Every sparse table of the state is in canonical form: keys strictly rising, nothing listed that equals what an unlisted key reads as. -/
structure Canon (s : State) : Prop where
  regs : tabsWf (fun k => regReset (Rid.ofNat k)) s.regs
  held : tabsWf (fun _ => none) s.held
  events : tabsWf (fun _ => ⟨0, 0⟩) s.events
  counters : tabsWf (fun _ => 0) s.counters
  latches : tabWf none s.latches
  irq : tabWf ⟨false, false, false⟩ s.irq
  pnlBusErr : tabWf ⟨0, false, 0⟩ s.pnlBusErr
  panels : tabWf ⟨.disabled, 0⟩ s.panels
  pwr : tabWf ⟨.off, 0, false, none⟩ s.pwr
  spw : tabWf ⟨false, false, false, 0, 0⟩ s.spw
  flash : tabWf flashBlank s.flash.cells
  temps : tabWf 0 s.pins.temps
  vmon : tabWf 0 s.pins.vmon
  fifos : tabWf ⟨[], 0⟩ s.obs.fifos
  areas : tabWf ⟨0, 0, 0, 0⟩ s.obs.areas
  sat : tabWf ⟨0, false⟩ s.obs.sat
  units : tabWf ⟨0, 0, 0⟩ s.bist.units
  spools : tabWf ⟨0, 0, [], [], 0, 0⟩ s.bob.spools
  hbm : tabWf hbmBlank s.mem.cells
  ptp : tabWf ⟨3, none, none, none, none, 0, 0, 0⟩ s.time.ports
  lineTime : tabWf ⟨0, 0, 0, 0, 0⟩ s.time.line
  keySlots : tabWf keySlotReset s.thm.slots
  keyGroups : tabWf ⟨false, none, none, 0, [], false, 0⟩ s.thm.groups
  thmSess : tabWf ⟨false, 0, false⟩ s.thm.sess
  lanes : tabWf none s.thm.lanes
  selv : tabWf SelvSess.reset s.selv.sess
  cmds : tabWf ⟨false, none, 0, 0⟩ s.cco.cmds
  qps : tabWf none s.cco.qps
  resCells : tabWf none s.cco.cells
  ringPos : tabWf 0 s.cco.ringPos
  slg : tabWf [] s.cco.slg
  discarded : tabWf 0 s.cco.discarded
  engines : tabWf engReset s.seam.engines
  ctxs : tabWf ctxReset s.seam.ctxs
  slots : tabWf slotReset s.seam.slots
  bolts : tabWf none s.seam.bolts
  cbs : tabWf cbReset s.plt.cbs
  ports : tabWf FabPort.reset s.fab.ports
  fdb : tabWf none s.fab.fdb
  groups : tabWf [] s.fab.groups
  sessLast : tabWf 0 s.fab.sessLast
  circs : tabWf ⟨.off, 0⟩ s.bast.circs
  rxs : tabWf ⟨false, false, []⟩ s.bast.rxs
  chs : tabWf LineCh.reset s.line.chs
  grps : tabWf LineGrp.reset s.line.grps
  tx : tabWf ⟨0, 0, []⟩ s.line.tx
  rx : tabWf ⟨false, 0, 0, false⟩ s.line.rx
  dies : tabWf OptDie.reset s.opt.dies
  optChs : tabWf OptCh.reset s.opt.chs

end Sys2Proof.Machine
end

