-- ==== Sys2Proof/Certificates/Slice0/Obligations.lean ====
section
/-! DEFINITION. The statements for the provers. -/

open Sys2Proof Sys2Proof.Machine

/-- What the machine holds right after reset. At reset PORST_N is asserted, BOOT_STAGE reads 0, every register reads its reset value, no write
is held, every event register and counter reads zero, every session is CLOSED, every key slot EMPTY, no port has a link, no power domain is
on, no command waits, and every table is in canonical form. (R411, R425, R478, R298, R364, R218) -/
def Obligations.ResetState : Prop :=
  State.reset.pending = [] ∧ State.reset.boot.porst = true ∧ State.reset.boot.stage = 0 ∧ Canon State.reset ∧
  (∀ r i, regGet State.reset r i = regReset r ∧ heldGet State.reset r i = none ∧ evGet State.reset r i = ⟨0, 0⟩ ∧ ctrGet State.reset r i = 0) ∧
  (∀ k, (selvGet State.reset k).state = .closed ∧ (keySlot State.reset k).state = .empty ∧ (fabPort State.reset k).link = false ∧
    (domGet State.reset k).state = .off)

/-- A step takes the command at the front of the queue. With a command at the front, a step is that command on the state with the rest of the
queue. With no command waiting, a step is one microsecond of the time base: the model's choice (log 62), which no rule states. (00_scope.md) -/
def Obligations.StepTakesTheFront : Prop :=
  (∀ (s : State) (c : Instr) (q : List Instr), s.pending = c :: q → step s = exec c { s with pending := q }) ∧
  (∀ s : State, s.pending = [] → step s = .next (tick s))

/-- No command changes the queue of waiting commands. Whatever a command does, a device recovery and a reset included, the commands that wait
behind it wait as before. The queue is the model's own; that a command has its effect on everything but the queue is how the model is cut. (00_scope.md, R439) -/
def Obligations.CommandsLeaveTheQueue : Prop :=
  ∀ (c : Instr) (s t : State), exec c s = .next t → t.pending = s.pending

/-- Every step keeps every table, the HBM and flash contents among them, in canonical form. From every state whose tables list their keys
strictly rising and no entry equal to what an unlisted key reads as, every step, whatever command is at the front and on an empty queue,
answers a state of which the same holds. The canonical form is the model's own; the memories and registers it is about are the rules'. (R18, R271, R423) -/
def Obligations.StepKeepsCanonical : Prop :=
  ∀ s t : State, Canon s → step s = .next t → Canon t

/-- PORST_N release and assertion, PERST_N assertion and release. PORST_N_RELEASE ends the reset, starts the time base at 0 s, locks ROOTCLK and
powers PD0 and PD2, and changes nothing else. PORST_N_ASSERT brings every register, held write, event and counter, every key, every optical
store and the safe state back to reset while SEC_PAT_MINVER and the flash contents stay. PERST_N_ASSERT and PERST_N_RELEASE change the PCIe
pin and interrupts alone. (R425, R478, R415, R411, R347, R352) -/
def Obligations.StartUpReset : Prop :=
  (∀ (s : State),
      s.boot.porst = true →
      Completes .porstNRelease s (fun t => t.boot = { s.boot with porst := false } ∧ t.localUs = 0 ∧ t.pins = { s.pins with rootLock := true } ∧
        (∀ d, d ≠ 0 → d ≠ 2 → domGet t d = domGet s d) ∧ (domGet t 0).state = .on ∧ (domGet t 2).state = .on ∧
        OnlyChanges [.localUs, .boot, .pins, .pwr] s t)) ∧
  (∀ (s : State),
      Completes .porstNAssert s (fun t => t.boot.porst = true ∧ t.boot.stage = 0 ∧ t.boot.safeCause = 0 ∧ t.boot.minver = s.boot.minver ∧
        t.flash.cells = s.flash.cells ∧ (∀ r i, regGet t r i = regReset r) ∧ (∀ r i, heldGet t r i = none) ∧
        (∀ r i, evGet t r i = ⟨0, 0⟩) ∧ (∀ r i, ctrGet t r i = 0) ∧ t.thm = State.reset.thm ∧ t.opt = State.reset.opt ∧
        t.time = State.reset.time ∧ t.cco = State.reset.cco ∧ t.seam = State.reset.seam ∧ t.selv = State.reset.selv ∧ t.pending = s.pending)) ∧
  (∀ (s : State),
      Completes .perstNAssert s (fun t => t.boot = { s.boot with perst := true } ∧ OnlyChanges [.boot, .irq] s t)) ∧
  (∀ (s : State),
      Completes .perstNRelease s (fun t => t.boot = { s.boot with perst := false } ∧ OnlyChanges [.boot, .irq, .outbox] s t))

/-- Strap sampling and the lifecycle read decide how start-up goes on. A strap sample before the third only joins the samples. With the third,
when every input reads the same level three times and no tied-low input reads HIGH, each strap reads its level, no FAULT bit is set and
BOOT_STAGE becomes 1. With the third sample and any bad input each FAULT bit says whether its input is bad, and the device enters safe state
with SAFE_CAUSE 1: keys empty, nothing held, basting down, the time base free-running without PTP. LIFECYCLE_READ at stage 1 goes to stage 2
for MANUFACTURE, PRODUCTION and FIELD_RETURN and to safe state with cause 2 otherwise. (R413, R414, R415, R411) -/
def Obligations.StrapsAndLifecycle : Prop :=
  (∀ (s : State) (l : List StrapLevel),
      s.boot.porst = false →
      s.boot.samples.length < 2 →
      Completes (.strapSample l) s (fun t => t = { s with boot := { s.boot with samples := s.boot.samples ++ [l] } })) ∧
  (∀ (s : State) (l : List StrapLevel),
      s.boot.porst = false →
      s.boot.samples.length = 2 →
      (∀ i < 8, strapBad (s.boot.samples ++ [l]) i = false) →
      Completes (.strapSample l) s (fun t => t.boot.stage = 1 ∧ t.boot.strapFault = 0 ∧ t.boot.samples = s.boot.samples ++ [l] ∧
        (∀ i < 8, t.boot.strap.getLsbD i = (s.boot.samples ++ [l]).all (fun x => strapLevel x i == .high)) ∧
        (evGet t .GLB_EVENT 0).bits.getLsbD 2 ∧ OnlyChanges [.boot, .events, .irq, .outbox] s t)) ∧
  (∀ (s : State) (l : List StrapLevel) (i : Nat),
      s.boot.porst = false →
      s.boot.samples.length = 2 →
      i < 8 →
      strapBad (s.boot.samples ++ [l]) i = true →
      Completes (.strapSample l) s (fun t => t.boot.stage = 15 ∧ t.boot.safeCause = 1 ∧
        (∀ j < 8, t.boot.strapFault.getLsbD j = strapBad (s.boot.samples ++ [l]) j) ∧ t.thm.slots = [] ∧ t.held = [] ∧ t.bast = ⟨[], []⟩ ∧
        t.time.mode = .freerun ∧ t.time.noServe = true)) ∧
  (∀ (s : State) (c : BitVec 4),
      s.boot.porst = false →
      s.boot.stage = 1 →
      c = 1 ∨ c = 2 ∨ c = 3 →
      Completes (.lifecycleRead c) s (fun t => t.boot = { s.boot with lifecycle := c, stage := 2 } ∧ Happened s t .GLB_EVENT 0 2 ∧
        OnlyChanges [.boot, .events, .irq, .outbox] s t)) ∧
  (∀ (s : State) (c : BitVec 4),
      s.boot.porst = false →
      s.boot.stage = 1 →
      c ≠ 1 ∧ c ≠ 2 ∧ c ≠ 3 →
      Completes (.lifecycleRead c) s (fun t => t.boot.stage = 15 ∧ t.boot.safeCause = 2 ∧ t.boot.lifecycle = c ∧ t.thm.slots = [] ∧ t.held = [] ∧
        t.bast = ⟨[], []⟩ ∧ t.time.mode = .freerun ∧ t.time.noServe = true))

/-- Self-test, image check, HBM training, fabric and long haul advance the start-up. POST_DONE without a FAIL goes to stage 3, with a FAIL to
safe state with cause 3. PATTERN_CHECK_DONE takes the slot the strap names when it passes: PD1 comes on, BOOT_STAGE becomes 4 and the APPLY
0x00 sections are applied; with no readable slot the device enters safe state with cause 4. HBM_TRAINING_DONE goes to stage 5, or to safe
state with cause 5 on a failure. FABRIC_READY and LONGHAUL_READY apply their sections, keep the time in milliseconds (at most 65535: the
model reads that limit, log 58) and go to stages 6 and 7. SLOT B and a fallback are covered by the model but not by this statement. (R421, R422, R425, R465, R415, R411) -/
def Obligations.StartUpStages : Prop :=
  (∀ (s : State) (l : List BistReport),
      s.boot.porst = false →
      s.boot.stage = 2 →
      bistFailed l = false →
      s.boot.lifecycle ≠ 3 →
      s.boot.strap.getLsbD 5 = false →
      Completes (.postDone l) s (fun t => t.boot = { s.boot with stage := 3 } ∧ (evGet t .GLB_EVENT 0).bits.getLsbD 2 ∧
        OnlyChanges [.boot, .bist, .events, .irq, .outbox] s t)) ∧
  (∀ (s : State) (l : List BistReport),
      s.boot.porst = false →
      s.boot.stage = 2 →
      bistFailed l = true →
      Completes (.postDone l) s (fun t => t.boot.stage = 15 ∧ t.boot.safeCause = 3 ∧ t.thm.slots = [] ∧ t.held = [] ∧ t.bast = ⟨[], []⟩ ∧
        t.time.mode = .freerun)) ∧
  (∀ (s : State) (slow : Bool) (a b : SlotCheck),
      s.boot.porst = false →
      s.boot.stage = 3 →
      s.boot.strap.getLsbD 0 = false →
      checkSlot { s with flash := { s.flash with slow := slow } } false a = (0, 0) →
      Completes (.patternCheckDone slow a b) s (fun t => ∃ u, t = applyStage u 0 ∧ u.boot.stage = 4 ∧ u.boot.patSlotB = false ∧ u.boot.errA = 0 ∧
        u.boot.patVersion = patVersionOf (patHdr s false) ∧ u.boot.sections = patSections s false ∧ (domGet u 1).state = .on ∧
        u.flash = { s.flash with slow := slow } ∧ Happened s u .GLB_EVENT 0 2 ∧ OnlyChanges [.boot, .flash, .pwr, .events, .irq, .outbox] s u)) ∧
  (∀ (s : State) (slow : Bool) (a b : SlotCheck),
      s.boot.porst = false →
      s.boot.stage = 3 →
      a.sfdp = false →
      b.sfdp = false →
      Completes (.patternCheckDone slow a b) s (fun t => t.boot.stage = 15 ∧ t.boot.safeCause = 4 ∧ t.thm.slots = [] ∧ t.held = [] ∧
        t.bast = ⟨[], []⟩ ∧ t.time.mode = .freerun)) ∧
  (∀ (s : State),
      s.boot.porst = false →
      s.boot.stage = 4 →
      Completes (.hbmTrainingDone true) s (fun t => t.boot.stage = 5 ∧ (evGet t .GLB_EVENT 0).bits.getLsbD 2 ∧
        OnlyChanges [.boot, .events, .irq, .outbox] (diesFit (applyStage (diesPower s) 1)) t)) ∧
  (∀ (s : State),
      s.boot.porst = false →
      s.boot.stage = 4 →
      Completes (.hbmTrainingDone false) s (fun t => t.boot.stage = 15 ∧ t.boot.safeCause = 5 ∧ t.thm.slots = [] ∧ t.held = [] ∧
        t.bast = ⟨[], []⟩ ∧ t.time.mode = .freerun)) ∧
  (∀ (s : State),
      s.boot.porst = false →
      s.boot.stage = 5 →
      Completes .fabricReady s (fun t => t.boot.stage = 6 ∧ t.boot.readyFabric = BitVec.ofNat 16 (min 65535 (t.localUs / 1000)) ∧
        (evGet t .GLB_EVENT 0).bits.getLsbD 2 ∧ OnlyChanges [.boot, .events, .irq, .outbox] (applyStage s 2) t)) ∧
  (∀ (s : State),
      s.boot.porst = false →
      s.boot.stage = 6 →
      Completes .longhaulReady s (fun t => t.boot.stage = 7 ∧ t.boot.readyLong = BitVec.ofNat 16 (min 65535 (t.localUs / 1000)) ∧
        (evGet t .GLB_EVENT 0).bits.getLsbD 2 ∧ OnlyChanges [.boot, .events, .irq, .outbox] (applyStage s 3) t))

/-- An accepted flash command sets BUSY and keeps its operands; its end does what it asked. ERASE, PROGRAM and READ that arrive at SEC_FLASH_CMD
while BUSY is clear, with an aligned address inside the device and, for ERASE and PROGRAM, outside the protected regions, set BUSY and note
the sector, the page or the word, and change nothing else; into a protected region they are noted as refused with ERR 0x01. FLASH_DONE
clears BUSY: an erase leaves its 64 KiB reading 0xFF and every other byte as before; a program ANDs its 256 bytes into the cells and leaves
every other byte; a read puts the word in SEC_FLASH_RDATA; FLASH_DONE is set, FLASH_ERR is not. A failed erase and a refused command leave
every byte, set ERR and both events (what a failed erase leaves is the model's choice, log 52). (R423, R424) -/
def Obligations.FlashCommands : Prop :=
  (∀ (s : State) (req : Requester),
      Arrives s req .SEC_FLASH_CMD 0 = true →
      s.flash.busy = false →
      (regGet s .SEC_FLASH_ADDR 0).toNat % 65536 = 0 →
      (regGet s .SEC_FLASH_ADDR 0).toNat < flashSize s →
      flashProtected s (regGet s .SEC_FLASH_ADDR 0).toNat = false →
      Completes (.flashErase req) s (fun t => t = { s with flash := { s.flash with busy := true, op := .erase (regGet s .SEC_FLASH_ADDR 0).toNat } })) ∧
  (∀ (s : State) (req : Requester),
      Arrives s req .SEC_FLASH_CMD 0 = true →
      s.flash.busy = false →
      (regGet s .SEC_FLASH_ADDR 0).toNat % 256 = 0 →
      (regGet s .SEC_FLASH_ADDR 0).toNat < flashSize s →
      flashProtected s (regGet s .SEC_FLASH_ADDR 0).toNat = false →
      Completes (.flashProgram req) s (fun t => t = { s with flash := { s.flash with busy := true, op := .program (regGet s .SEC_FLASH_ADDR 0).toNat ((List.range 64).map (fun i => regGet s .SEC_FLASH_DATA i)) } })) ∧
  (∀ (s : State) (req : Requester),
      Arrives s req .SEC_FLASH_CMD 0 = true →
      s.flash.busy = false →
      (regGet s .SEC_FLASH_ADDR 0).toNat % 4 = 0 →
      (regGet s .SEC_FLASH_ADDR 0).toNat < flashSize s →
      Completes (.flashRead req) s (fun t => t = { s with flash := { s.flash with busy := true, op := .read (regGet s .SEC_FLASH_ADDR 0).toNat } })) ∧
  (∀ (s : State) (req : Requester),
      Arrives s req .SEC_FLASH_CMD 0 = true →
      s.flash.busy = false →
      (regGet s .SEC_FLASH_ADDR 0).toNat % 65536 = 0 →
      (regGet s .SEC_FLASH_ADDR 0).toNat < flashSize s →
      flashProtected s (regGet s .SEC_FLASH_ADDR 0).toNat = true →
      Completes (.flashErase req) s (fun t => t = { s with flash := { s.flash with busy := true, op := .refused 1 } })) ∧
  (∀ (s : State) (a : Nat),
      s.flash.busy = true →
      s.flash.op = .erase a →
      Completes (.flashDone false) s (fun t => t.flash = { s.flash with busy := false, op := .idle, err := 0, cells := t.flash.cells } ∧
        (∀ i, tabGet flashBlank t.flash.cells i = if a ≤ i ∧ i < a + 65536 then 0xFF else tabGet flashBlank s.flash.cells i) ∧
        Happened s t .SEC_EVENT 0 0 ∧ OnlyChanges [.flash, .events, .irq, .outbox] s t)) ∧
  (∀ (s : State) (a : Nat) (l : List Word),
      s.flash.busy = true →
      s.flash.op = .program a l →
      Completes (.flashDone false) s (fun t => t.flash = { s.flash with busy := false, op := .idle, err := 0, cells := t.flash.cells } ∧
        t.flash.cells = tabSetList flashBlank s.flash.cells a
            (((flashBytes s a (l.flatMap wordBytes).length).zip (l.flatMap wordBytes)).map (fun p => p.1 &&& p.2)) ∧
        (∀ i, i < a ∨ a + (l.flatMap wordBytes).length ≤ i → tabGet flashBlank t.flash.cells i = tabGet flashBlank s.flash.cells i) ∧
        Happened s t .SEC_EVENT 0 0 ∧ OnlyChanges [.flash, .events, .irq, .outbox] s t)) ∧
  (∀ (s : State) (a : Nat),
      s.flash.busy = true →
      s.flash.op = .read a →
      Completes (.flashDone false) s (fun t => t.flash = { s.flash with busy := false, op := .idle, err := 0, rdata := leWord (flashBytes s a 4) 0 } ∧ Happened s t .SEC_EVENT 0 0 ∧ OnlyChanges [.flash, .events, .irq, .outbox] s t)) ∧
  (∀ (s : State) (a : Nat),
      s.flash.busy = true →
      s.flash.op = .erase a →
      Completes (.flashDone true) s (fun t => t.flash = { s.flash with busy := false, op := .idle, err := 6 } ∧
        (evGet t .SEC_EVENT 0).bits = (evGet s .SEC_EVENT 0).bits ||| 3 ∧ OnlyChanges [.flash, .events, .irq, .outbox] s t)) ∧
  (∀ (s : State) (e : Byte),
      s.flash.busy = true →
      s.flash.op = .refused e →
      e ≠ 0 →
      Completes (.flashDone false) s (fun t => t.flash = { s.flash with busy := false, op := .idle, err := e } ∧
        (evGet t .SEC_EVENT 0).bits = (evGet s .SEC_EVENT 0).bits ||| 3 ∧ OnlyChanges [.flash, .events, .irq, .outbox] s t))

/-- RAISE_MINVER never lowers the minimum version and raises it only through the fuses. A RAISE_MINVER that arrives while none is in progress,
with a value from the current minimum to the running image's version, is noted; a lower value is refused with result 0x01, a value above the
image's version with 0x02, each with CMD_REFUSED; none of them changes the minimum. RAISE_MINVER_DONE without a failure makes the noted
value the minimum, with MINVER_RAISED; with a failure the minimum stays and the result reads 0x03. (R423, R424) -/
def Obligations.MinimumVersion : Prop :=
  (∀ (s : State) (req : Requester),
      Arrives s req .SEC_CMD 0 = true →
      s.boot.secBusy = false →
      s.boot.minver.toNat ≤ (regGet s .SEC_CMD_ARG 0).toNat →
      (regGet s .SEC_CMD_ARG 0).toNat ≤ s.boot.patVersion.toNat →
      Completes (.raiseMinver req) s (fun t => t = { s with boot := { s.boot with secBusy := true, secValue := regGet s .SEC_CMD_ARG 0 } })) ∧
  (∀ (s : State) (req : Requester),
      Arrives s req .SEC_CMD 0 = true →
      s.boot.secBusy = false →
      (regGet s .SEC_CMD_ARG 0).toNat < s.boot.minver.toNat →
      Completes (.raiseMinver req) s (fun t => t.boot = { s.boot with secResult := 1 } ∧ Happened s t .SEC_EVENT 0 3 ∧
        OnlyChanges [.boot, .events, .irq, .outbox] s t)) ∧
  (∀ (s : State) (req : Requester),
      Arrives s req .SEC_CMD 0 = true →
      s.boot.secBusy = false →
      s.boot.minver.toNat ≤ (regGet s .SEC_CMD_ARG 0).toNat →
      s.boot.patVersion.toNat < (regGet s .SEC_CMD_ARG 0).toNat →
      Completes (.raiseMinver req) s (fun t => t.boot = { s.boot with secResult := 2 } ∧ Happened s t .SEC_EVENT 0 3 ∧
        OnlyChanges [.boot, .events, .irq, .outbox] s t)) ∧
  (∀ (s : State),
      s.boot.secBusy = true →
      Completes (.raiseMinverDone false) s (fun t => t.boot = { s.boot with secBusy := false, secResult := 0, minver := s.boot.secValue } ∧
        Happened s t .SEC_EVENT 0 2 ∧ OnlyChanges [.boot, .events, .irq, .outbox] s t)) ∧
  (∀ (s : State),
      s.boot.secBusy = true →
      Completes (.raiseMinverDone true) s (fun t => t = { s with boot := { s.boot with secBusy := false, secResult := 3 } }))

/-- At the end of a vector's hold-off a pending interrupt leaves as one message, and without one nothing is sent. For a vector of an enabled
function that is within its hold-off: when it is pending, not masked and the link is up, exactly one MSI-X message of that vector leaves and the
vector starts the hold-off of GLB_IRQ_HOLDOFF with its pending bit clear; when it is pending and masked, or the link is down, nothing is sent
and it stays pending outside its hold-off; when it is not pending nothing is sent and the vector leaves its hold-off. Every other vector and
everything else stays. A vector that is in no hold-off has none that ends, and nothing changes. (R401, R408, R409) -/
def Obligations.InterruptHoldoff : Prop :=
  (∀ (s : State) (fn vec : Nat),
      Canon s →
      (vecGet s fn vec).fired = true →
      (vecGet s fn vec).pend = true →
      (vecGet s fn vec).masked = false →
      pcieUp s = true →
      fn ≤ s.boot.numVfs →
      vec < 64 →
      Completes (.irqHoldoffExpiry fn vec) s (fun t => t.outbox = s.outbox ++ [.msix fn vec] ∧
        vecGet t fn vec = ⟨decide (regBf s .GLB_IRQ_HOLDOFF 0 15 0 ≠ 0), false, false⟩ ∧
        (∀ fn' vec', vec' < 64 → ¬ (fn' = fn ∧ vec' = vec) → vecGet t fn' vec' = vecGet s fn' vec') ∧ OnlyChanges [.irq, .outbox] s t)) ∧
  (∀ (s : State) (fn vec : Nat),
      Canon s →
      (vecGet s fn vec).fired = true →
      (vecGet s fn vec).pend = false →
      Completes (.irqHoldoffExpiry fn vec) s (fun t => t.outbox = s.outbox ∧ vecGet t fn vec = { vecGet s fn vec with fired := false } ∧
        (∀ fn' vec', vec < 64 → vec' < 64 → ¬ (fn' = fn ∧ vec' = vec) → vecGet t fn' vec' = vecGet s fn' vec') ∧ OnlyChanges [.irq] s t)) ∧
  (∀ (s : State) (fn vec : Nat),
      Canon s →
      (vecGet s fn vec).fired = true →
      (vecGet s fn vec).pend = true →
      (vecGet s fn vec).masked = true ∨ pcieUp s = false →
      fn ≤ s.boot.numVfs →
      vec < 64 →
      Completes (.irqHoldoffExpiry fn vec) s (fun t => t.outbox = s.outbox ∧ vecGet t fn vec = { vecGet s fn vec with fired := false } ∧
        (∀ fn' vec', vec' < 64 → ¬ (fn' = fn ∧ vec' = vec) → vecGet t fn' vec' = vecGet s fn' vec') ∧ OnlyChanges [.irq] s t)) ∧
  (∀ (s : State) (fn vec : Nat),
      (vecGet s fn vec).fired = false →
      Completes (.irqHoldoffExpiry fn vec) s (fun t => t = s))

/-- Temperatures, rails and the thermal alert pin. A sensor of a die above 105 °C asserts THERM_ALERT_N, sets CLK_EVENT.THERM_ALERT once, and
its reading and the highest reading are kept. Six readings below 100 °C release the pin. A rail outside 5 % of its nominal voltage sets
CLK_EVENT.VMON_WARN, one within it only updates its reading. Nothing else changes. (R475, R485, R486, R492) -/
def Obligations.BoardSensors : Prop :=
  (∀ (s : State) (die : Nat) (temp : BitVec 16),
      die < 6 →
      1050 < temp.toInt →
      s.pins.thermAlert = false →
      Completes (.thermAlertAssert die temp) s (fun t => t.pins.thermAlert = true ∧ t.pins.temps = tabSet 0 s.pins.temps die temp ∧
        t.pins.tempMax = (if s.pins.tempMax.toInt < temp.toInt then temp else s.pins.tempMax) ∧ t.pins.vmon = s.pins.vmon ∧
        Happened s t .CLK_EVENT 0 0 ∧ OnlyChanges [.pins, .events, .irq, .outbox] s t)) ∧
  (∀ (s : State) (a b c d e f : BitVec 16),
      Canon s →
      (∀ x ∈ [a, b, c, d, e, f], x.toInt < 1000) →
      Completes (.thermAlertRelease [a, b, c, d, e, f]) s (fun t => t.pins.thermAlert = false ∧ t.pins.vmon = s.pins.vmon ∧
        OnlyChanges [.pins] s t)) ∧
  (∀ (s : State) (rail mv : Nat),
      rail < 4 →
      20 * mv < 19 * railMv rail ∨ 21 * railMv rail < 20 * mv →
      Completes (.vmonWarn rail mv) s (fun t => t.pins = { s.pins with vmon := tabSet 0 s.pins.vmon rail (BitVec.ofNat 16 mv) } ∧
        Happened s t .CLK_EVENT 0 1 ∧ OnlyChanges [.pins, .events, .irq, .outbox] s t)) ∧
  (∀ (s : State) (rail mv : Nat),
      rail < 4 →
      19 * railMv rail ≤ 20 * mv →
      20 * mv ≤ 21 * railMv rail →
      Completes (.vmonWarn rail mv) s (fun t => t = { s with pins := { s.pins with vmon := tabSet 0 s.pins.vmon rail (BitVec.ofNat 16 mv) } }))

/-- The loss of a SerDes reference clock takes the die's links down; its return lets them train. SERDES_REF_LOSS of an IO die that had its clock
marks the die, takes the link of each of its 64 ports down and sets CLK_EVENT bit 2; the other ports keep their state. SERDES_REF_RETURN
clears the mark and lets every implemented, powered port of the die train. Only pins, ports, Basting lanes and events change. (R479, R218) -/
def Obligations.ReferenceClocks : Prop :=
  (∀ (s : State) (die : Nat),
      Canon s →
      die < 4 →
      s.pins.refLost.getLsbD die = false →
      Completes (.serdesRefLoss die) s (fun t => t.pins = { s.pins with refLost := s.pins.refLost ||| BitVec.ofNat 4 (pow2 die) } ∧
        (∀ p, 64 * die ≤ p → p < 64 * die + 64 → (fabPort t p).link = false) ∧
        (∀ p, p < 64 * die ∨ 64 * die + 64 ≤ p → fabPort t p = fabPort s p) ∧
        (evGet t .CLK_EVENT 0).bits.getLsbD 2 ∧ OnlyChanges [.pins, .fab, .bast, .events, .irq, .outbox] s t)) ∧
  (∀ (s : State) (die : Nat),
      Canon s →
      die < 4 →
      s.pins.refLost.getLsbD die = true →
      Completes (.serdesRefReturn die) s (fun t => t.pins = { s.pins with refLost := s.pins.refLost &&& ~~~ BitVec.ofNat 4 (pow2 die) } ∧
        (∀ p, 64 * die ≤ p → p < 64 * die + 64 → portImpl s p = true → domOn s (portDom p) = true → (fabPort t p).training = true) ∧
        OnlyChanges [.pins, .fab] s t))

/-- SMBus reads GLB registers and clears GLB_EVENT by its sequence number. While the SMBus port answers, SMBUS_BLOCK_READ sends the value of the
GLB register whose word offset the command code names, and changes nothing else; SMBUS_SQC_CLEAR clears the bits of GLB_EVENT when bits
[31:24] equal SEQ and changes nothing otherwise. (R413, R18) -/
def Obligations.BoardPort : Prop :=
  (∀ (s : State) (code : Nat) (r : Rid) (i : Nat),
      smbusUp s = true →
      regAt .GLB (4 * code) = some (r, i, false) →
      Completes (.smbusBlockRead code) s (fun t => t.outbox = s.outbox ++ [.smbus (regValue s r i)] ∧ OnlyChanges [.outbox] s t)) ∧
  (∀ (s : State) (v : Word),
      Canon s →
      smbusUp s = true →
      bf v 31 24 = (evGet s .GLB_EVENT 0).seq.toNat →
      Completes (.smbusSqcClear v) s (fun t => evGet t .GLB_EVENT 0 = ⟨(evGet s .GLB_EVENT 0).seq, 0⟩ ∧
        (∀ r i, r ≠ .GLB_EVENT ∨ i ≠ 0 → evGet t r i = evGet s r i) ∧ OnlyChanges [.events] s t)) ∧
  (∀ (s : State) (v : Word),
      smbusUp s = true →
      bf v 31 24 ≠ (evGet s .GLB_EVENT 0).seq.toNat →
      Completes (.smbusSqcClear v) s (fun t => t = s))

/-- An alarm erases every key slot, KEK and ciphertext, latches its cause and stops every session that is not closed. With PORST_N released,
ALARM of a cause of THM_ALARM leaves every key slot EMPTY and every group without KEK and ciphertext, sets the bit of its cause and LATCHED and
no other bit of THM_ALARM, sets THM_EVENT.ALARM, and every session that was not CLOSED is in KEY_STOP while a CLOSED one stays CLOSED; nothing
outside Thimble, the sessions, events and interrupts changes. An unlock attempt on the debug port is an alarm in the PRODUCTION state alone: in
any other it changes nothing. (R375, R377, R466, R491) -/
def Obligations.AlarmErasesKeys : Prop :=
  (∀ (s : State) (cause : Nat),
      Canon s →
      s.boot.porst = false →
      cause < 6 →
      (cause = 4 → s.boot.lifecycle = 2) →
      Completes (.alarm cause) s (fun t => (∀ i, keySlot t i = keySlotReset) ∧ (∀ g, (keyGroup t g).kek = none ∧ (keyGroup t g).ct = none) ∧
        t.thm.alarm = s.thm.alarm ||| BitVec.ofNat 32 (pow2 cause + pow2 31) ∧ Happened s t .THM_EVENT 0 0 ∧
        (∀ k, (selvGet s k).state ≠ .closed → (selvGet t k).state = .keyStop) ∧ (∀ k, (selvGet s k).state = .closed → selvGet t k = selvGet s k) ∧
        OnlyChanges [.thm, .selv, .events, .irq, .outbox] s t)) ∧
  (∀ (s : State),
      s.boot.lifecycle ≠ 2 →
      Completes (.alarm 4) s (fun t => t = s))

/-- A register write takes effect by its access code, or is a bus error. REGISTER_WRITE to an RW register without a row of its own puts each
writable field of the value in effect and leaves every other register and everything else. A write to a read-only register or to a counter
changes nothing. A write by the physical function or the control complex outside every panel window to an address that is not a word
address, or that names nothing, and a MALFORMED_ACCESS write, are recorded in GLB_BUSERR with GLB_EVENT.BUS_ERROR and change no register; a
MALFORMED_ACCESS read is answered by a bus error. (R18, R19, R396, R397, R398) -/
def Obligations.RegisterWrites : Prop :=
  (∀ (s : State) (req : Requester) (addr : Nat) (v : Word) (r : Rid) (i : Nat),
      Canon s →
      WritesAt s req addr r i = true →
      (ridRow r).acc = .rw →
      r ∉ ownRowRw →
      Completes (.registerWrite req addr v) s (fun t => regGet t r i = acceptWord r (regGet s r i) v ∧
        (∀ r' i', r' ≠ r ∨ i' ≠ i → regGet t r' i' = regGet s r' i') ∧ OnlyChanges [.regs] s t)) ∧
  (∀ (s : State) (req : Requester) (addr : Nat) (v : Word) (r : Rid) (i : Nat),
      WritesAt s req addr r i = true →
      (ridRow r).acc = .ro ∨ (ridRow r).acc = .cnt ∨ (ridRow r).acc = .cntv →
      Completes (.registerWrite req addr v) s (fun t => t = s)) ∧
  (∀ (s : State) (req : Requester) (addr : Nat) (v : Word),
      reqLink s req = true →
      req = .pf ∨ req = .ctl →
      windowPanel addr = none →
      addr % 4 ≠ 0 ∨ target req addr = .none →
      Completes (.registerWrite req addr v) s (fun t => t.glbBusErr = ⟨BitVec.ofNat 32 addr, true, BitVec.ofNat 16 (reqCode req)⟩ ∧
        Happened s t .GLB_EVENT 0 0 ∧ OnlyChanges [.glbBusErr, .events, .irq, .outbox] s t)) ∧
  (∀ (s : State) (req : Requester) (addr : Nat),
      reqLink s req = true →
      req = .pf →
      windowPanel addr = none →
      Completes (.malformedAccess req addr true) s (fun t => t.glbBusErr = ⟨BitVec.ofNat 32 addr, true, BitVec.ofNat 16 (reqCode req)⟩ ∧
        Happened s t .GLB_EVENT 0 0 ∧ OnlyChanges [.glbBusErr, .events, .irq, .outbox] s t)) ∧
  (∀ (s : State) (req : Requester) (addr : Nat),
      reqLink s req = true →
      req = .pf ∨ req = .ctl →
      windowPanel addr = none →
      Completes (.malformedAccess req addr false) s (fun t => t.response = .busError ∧
        t.glbBusErr = ⟨BitVec.ofNat 32 addr, false, BitVec.ofNat 16 (reqCode req)⟩ ∧
        Happened s t .GLB_EVENT 0 0 ∧ OnlyChanges [.glbBusErr, .events, .irq, .outbox, .response] s t))

/-- An RWS write is held until the boundary, replaces an earlier one, is seen at the alias, and then takes effect. RWS_WRITE to a shadowed
register of a unit that is busy holds the whole register as written, over any earlier held value, and leaves the value in effect; with the
unit idle the value is in effect at once and nothing is held. RWS_APPLY puts the held value in effect and forgets it. ALIAS_READ answers the
held value, or the value in effect with none held. Each changes nothing else. (The registers are those without a row of their own; which
units are idle is log 59.) (R18, R395, R399, R400) -/
def Obligations.ShadowedWrites : Prop :=
  (∀ (s : State) (req : Requester) (addr : Nat) (v : Word) (r : Rid) (i : Nat),
      Canon s →
      WritesAt s req addr r i = true →
      r ∈ plainRws →
      rwsIdle s r i = false →
      Completes (.rwsWrite req addr v) s (fun t => heldGet t r i = some (acceptWord r (rwsBase s r i) v) ∧
        (∀ r' i', r' ≠ r ∨ i' ≠ i → heldGet t r' i' = heldGet s r' i') ∧ OnlyChanges [.held] s t)) ∧
  (∀ (s : State) (req : Requester) (addr : Nat) (v : Word) (r : Rid) (i : Nat),
      Canon s →
      WritesAt s req addr r i = true →
      r ∈ plainRws →
      rwsIdle s r i = true →
      Completes (.rwsWrite req addr v) s (fun t => regGet t r i = acceptWord r (rwsBase s r i) v ∧ heldGet t r i = none ∧
        (∀ r' i', r' ≠ r ∨ i' ≠ i → heldGet t r' i' = heldGet s r' i' ∧ regGet t r' i' = regGet s r' i') ∧ OnlyChanges [.held, .regs] s t)) ∧
  (∀ (s : State) (addr : Nat) (v : Word) (r : Rid) (i : Nat),
      Canon s →
      target .pf addr = .reg r i false →
      r ∈ plainRws →
      heldGet s r i = some v →
      Completes (.rwsApply addr) s (fun t => regGet t r i = v ∧ heldGet t r i = none ∧
        (∀ r' i', r' ≠ r ∨ i' ≠ i → heldGet t r' i' = heldGet s r' i' ∧ regGet t r' i' = regGet s r' i') ∧ OnlyChanges [.held, .regs] s t)) ∧
  (∀ (s : State) (req : Requester) (addr : Nat) (r : Rid) (i : Nat),
      reqLink s req = true →
      addr % 4 = 0 →
      target req addr = .shadow r i →
      addrHas s req addr r i = true →
      Completes (.aliasRead req addr) s (fun t => t.response = .word ((heldGet s r i).getD (regGet s r i)) ∧ OnlyChanges [.response] s t))

/-- An SQC write clears the event bits of its sequence number, and nothing with any other. SQC_WRITE to an event register whose current SEQ
equals bits [31:24] of the value clears its event bits and keeps SEQ and every other event register; with any other value nothing changes. (R18) -/
def Obligations.EventClears : Prop :=
  (∀ (s : State) (req : Requester) (addr : Nat) (v : Word) (r : Rid) (i : Nat),
      Canon s →
      WritesAt s req addr r i = true →
      (ridRow r).acc = .sqc →
      bf v 31 24 = (evGet s r i).seq.toNat →
      Completes (.sqcWrite req addr v) s (fun t => evGet t r i = ⟨(evGet s r i).seq, 0⟩ ∧
        (∀ r' i', r' ≠ r ∨ i' ≠ i → evGet t r' i' = evGet s r' i') ∧ OnlyChanges [.events] s t)) ∧
  (∀ (s : State) (req : Requester) (addr : Nat) (v : Word) (r : Rid) (i : Nat),
      WritesAt s req addr r i = true →
      (ridRow r).acc = .sqc →
      bf v 31 24 ≠ (evGet s r i).seq.toNat →
      Completes (.sqcWrite req addr v) s (fun t => t = s))

/-- Counter pairs and the time read as one value through the requester's latch. COUNTER_LOW_READ answers bits [31:0] of the pair and latches
bits [63:32] for that requester alone. COUNTER_HIGH_READ answers the latch when that requester's last low read was of the same counter, and
the current bits [63:32] otherwise. TIME_NOW_READ answers the fraction and latches nanoseconds and seconds. Each changes nothing else. (R398, R393, R379) -/
def Obligations.CounterReads : Prop :=
  (∀ (s : State) (req : Requester) (addr : Nat) (r : Rid) (i : Nat),
      ReadsAt s req addr r i false = true →
      ridWide r = true →
      Completes (.counterLowRead req addr) s (fun t => t.response = .word ((pairValue s r i).setWidth 32) ∧
        tabGet none t.latches (latchOf req) = some ⟨ridNum r, i, (pairValue s r i >>> 32).setWidth 32⟩ ∧
        (∀ q, latchOf q ≠ latchOf req → tabGet none t.latches (latchOf q) = tabGet none s.latches (latchOf q)) ∧
        OnlyChanges [.response, .latches] s t)) ∧
  (∀ (s : State) (req : Requester) (addr : Nat) (r : Rid) (i : Nat) (w : Word),
      ReadsAt s req addr r i true = true →
      ridWide r = true →
      tabGet none s.latches (latchOf req) = some ⟨ridNum r, i, w⟩ →
      Completes (.counterHighRead req addr) s (fun t => t.response = .word w ∧ OnlyChanges [.response] s t)) ∧
  (∀ (s : State) (req : Requester) (addr : Nat) (r : Rid) (i : Nat),
      ReadsAt s req addr r i true = true →
      ridWide r = true →
      (∀ l, tabGet none s.latches (latchOf req) = some l → ¬ (l.rid = ridNum r ∧ l.idx = i)) →
      Completes (.counterHighRead req addr) s (fun t => t.response = .word ((pairValue s r i >>> 32).setWidth 32) ∧ OnlyChanges [.response] s t)) ∧
  (∀ (s : State) (req : Requester) (addr : Nat),
      ReadsAt s req addr .TIME_NOW_FRAC 0 false = true →
      Completes (.timeNowRead req addr) s (fun t => t.response = .word (BitVec.ofNat 32 (nowFrac s)) ∧
        t.timeLatch = (BitVec.ofNat 64 (nowStampSec s % pow2 48), BitVec.ofNat 32 (nowStampNs s)) ∧ OnlyChanges [.response, .timeLatch] s t))

/-- The HBM aperture reads and stores words, and faults outside what its window may name. APERTURE_READ of a good block answers the
little-endian word at the device address the window names, counts the bytes (and a word corrected again before its scrub write-back), and
changes nothing else. APERTURE_WRITE to a good block stores
the word there and leaves every other byte of HBM and everything but memory and counters. An access that names no device address leaves
memory, is a bus error and sets MEM_EVENT.APT_FAULT of its window. (R271, R277, R280) -/
def Obligations.HbmAperture : Prop :=
  (∀ (s : State) (req : Requester) (addr view off a : Nat),
      reqLink s req = true →
      addr % 4 = 0 →
      target req addr = .aperture view off →
      aptOpen s view = true →
      off % 4 = 0 →
      aptTarget s view off = some a →
      ueIn s a 4 = none →
      Completes (.apertureRead req addr) s (fun t => t.response = .word (leWord (hbmBytes s a 4) 0) ∧ OnlyChanges [.response, .counters, .events, .irq, .outbox] s t ∧
        (s.mem.scrubWb = none → OnlyChanges [.response, .counters] s t))) ∧
  (∀ (s : State) (req : Requester) (addr view off a : Nat) (v : Word),
      Canon s →
      reqLink s req = true →
      addr % 4 = 0 →
      target req addr = .aperture view off →
      aptOpen s view = true →
      off % 4 = 0 →
      aptTarget s view off = some a →
      a % 4 = 0 →
      ueIn s a 4 = none →
      Completes (.apertureWrite req addr v) s (fun t => hbmBytes t a 4 = wordBytes v ∧
        (∀ j, j < a ∨ a + 4 ≤ j → hbmByte t j = hbmByte s j) ∧ OnlyChanges [.mem, .counters] s t)) ∧
  (∀ (s : State) (req : Requester) (addr view off : Nat) (v : Word),
      reqLink s req = true →
      addr % 4 = 0 →
      target req addr = .aperture view off →
      aptOpen s view = true →
      off % 4 = 0 →
      aptTarget s view off = none →
      Completes (.apertureWrite req addr v) s (fun t => Happened s t .MEM_EVENT view 3 ∧ t.mem = s.mem ∧
        OnlyChanges [.glbBusErr, .pnlBusErr, .events, .irq, .outbox] s t))

/-- Patrol scrub moves on by one 64 B unit, notes what it finds, and its period starts or hurries a pass. SCRUB_READ with no write-back waiting
and the pass unfinished moves to the next 64 B unit. With both blocks good it leaves every byte, changing only the position and the byte
counters; a corrected first block is noted for write-back with MEM_EVENT bit 1, the bytes read as before. SCRUB_PERIOD_EXPIRY starts the
next pass when the pass is finished, and otherwise sets MEM_EVENT.SCRUB_BEHIND and makes the pass urgent. (R276, R277, R280) -/
def Obligations.PatrolScrub : Prop :=
  (∀ (s : State),
      s.mem.scrubWb = none →
      s.mem.scrubPass = false →
      s.mem.scrubBlock + 1 < scrubBlocks s →
      s.mem.ue.contains (2 * s.mem.scrubBlock) = false →
      s.mem.ue.contains (2 * s.mem.scrubBlock + 1) = false →
      Completes (.scrubRead .clean .clean) s (fun t => t.mem = { s.mem with scrubBlock := s.mem.scrubBlock + 1 } ∧
        OnlyChanges [.mem, .counters] s t)) ∧
  (∀ (s : State),
      s.mem.scrubWb = none →
      s.mem.scrubPass = false →
      s.mem.scrubBlock + 1 < scrubBlocks s →
      s.mem.ue.contains (2 * s.mem.scrubBlock) = false →
      s.mem.ue.contains (2 * s.mem.scrubBlock + 1) = false →
      Completes (.scrubRead .corrected .clean) s (fun t => t.mem.cells = s.mem.cells ∧ t.mem.scrubBlock = s.mem.scrubBlock + 1 ∧
        t.mem.scrubWb = some ⟨s.mem.scrubBlock, [2 * s.mem.scrubBlock]⟩ ∧ Happened s t .MEM_EVENT pfView 1 ∧
        OnlyChanges [.mem, .counters, .events, .irq, .outbox] s t)) ∧
  (∀ (s : State),
      s.mem.scrubPass = true →
      Completes .scrubPeriodExpiry s (fun t => t = { s with mem := { s.mem with scrubBlock := 0, scrubPass := false } })) ∧
  (∀ (s : State),
      s.mem.scrubPass = false →
      Completes .scrubPeriodExpiry s (fun t => t.mem = { s.mem with scrubUrgent := true } ∧ Happened s t .MEM_EVENT pfView 2 ∧
        OnlyChanges [.mem, .events, .irq, .outbox] s t))

/-- A bobbin goes to the unit that has waited longest, and a ring read refills the cache. BOBBIN_GRANT with a Seam invocation first among the
waiting units and a bobbin of its spool to be had gives it one bobbin: the invocation holds a handle and no longer waits, and the wait has
left the queue; which free handle it is stays free (R261). RING_REFILL_DONE of a read with no lost block ends one outstanding read, adds up to 128
handles to the cache, starts the next read where the cache is still short, and writes 128 handles back where it then holds more than 448; with
no frame waiting to be bound nothing else changes but the bytes counted. (R261, R262, R279) -/
def Obligations.FreeStores : Prop :=
  (∀ (s : State) (w : BobWait) (l : List BobWait) (x : Inv),
      s.bob.waits = w :: l →
      (bobTake s w.spool w.priv).1.isSome = true →
      w.unit < 32 →
      runOf s w.sub = some x →
      x.bobWait = true →
      x.bobbin = none →
      Completes .bobbinGrant s (fun t => ∃ h, runOf t w.sub = some { x with bobbin := some h, bobWait := false } ∧ t.bob.waits = l ∧
        OnlyChanges [.bob, .seam, .fresh, .counters, .events, .irq, .outbox] s t)) ∧
  (∀ (s : State) (k : Nat),
      Canon s →
      (spoolGet s k).reads ≠ 0 →
      (∀ f ∈ s.fab.frames, f.handle.isSome = true ∨ f.cells = 0) →
      Completes (.ringRefillDone k []) s (fun t => (∃ p : Spool, p = refillStart { spoolGet s k with reads := (spoolGet s k).reads - 1, cache := (spoolGet s k).cache + min 128 (spoolOrdFree (spoolGet s k) - (spoolGet s k).cache) } ∧
          spoolGet t k = (if 448 < p.cache then { p with cache := p.cache - 128 } else p)) ∧
        (∀ j, j ≠ k → spoolGet t j = spoolGet s j) ∧ OnlyChanges [.bob, .counters, .fresh] s t))

/-- Panel enable and quotas are taken when every quota fits, and refused otherwise with the register as it was. GLB_PANEL_CFG_WRITE of an
acceptable value puts EN and the two quotas in effect, brings the panel from DISABLED to ACTIVE or back (a RESETTING panel stays so), leaves
every other register and panel, extends credit where there is room now, and reports a changed quota in PNL_EVENT; an unacceptable value changes
no register and sets GLB_EVENT.QUOTA_REFUSED.
MEM_PANEL_QUOTA_WRITE by the physical function or the control complex does the same for an HBM quota, with MEM_EVENT.QUOTA_REFUSED; a
virtual function's write of its read-only copy changes nothing. (R402, R270, R404, R280) -/
def Obligations.PanelSettings : Prop :=
  (∀ (s : State) (req : Requester) (n : Nat) (v : Word),
      Canon s →
      Arrives s req .GLB_PANEL_CFG n = true →
      panelCfgOk s n (putBf (putBf (putBf 0 31 31 (bf v 31 31)) 25 16 (bf v 25 16)) 14 0 (bf v 14 0)) = true →
      (panelGet s n).state ≠ .resetting →
      Completes (.glbPanelCfgWrite req n v) s (fun t => regGet t .GLB_PANEL_CFG n = putBf (putBf (putBf 0 31 31 (bf v 31 31)) 25 16 (bf v 25 16)) 14 0 (bf v 14 0) ∧
        (∀ r i, r ≠ .GLB_PANEL_CFG ∨ i ≠ n → regGet t r i = regGet s r i) ∧
        ((panelGet t n).state = .disabled ↔ bit (putBf (putBf (putBf 0 31 31 (bf v 31 31)) 25 16 (bf v 25 16)) 14 0 (bf v 14 0)) 31 = false) ∧ (∀ m, m ≠ n → panelGet t m = panelGet s m) ∧
        (∃ u, OnlyChanges [.regs, .panels] s u ∧ t = (if bf (putBf (putBf (putBf 0 31 31 (bf v 31 31)) 25 16 (bf v 25 16)) 14 0 (bf v 14 0)) 25 0 = bf (regGet s .GLB_PANEL_CFG n) 25 0 then creditAll u else raiseEv (creditAll u) .PNL_EVENT n 3)) ∧
        OnlyChanges [.regs, .panels, .counters, .events, .irq, .outbox, .obs, .cco, .seam, .bast, .fab] s t)) ∧
  (∀ (s : State) (req : Requester) (n : Nat) (v : Word),
      Canon s →
      Arrives s req .GLB_PANEL_CFG n = true →
      panelCfgOk s n (putBf (putBf (putBf 0 31 31 (bf v 31 31)) 25 16 (bf v 25 16)) 14 0 (bf v 14 0)) = true →
      (panelGet s n).state = .resetting →
      Completes (.glbPanelCfgWrite req n v) s (fun t => regGet t .GLB_PANEL_CFG n = putBf (putBf (putBf 0 31 31 (bf v 31 31)) 25 16 (bf v 25 16)) 14 0 (bf v 14 0) ∧
        (∀ r i, r ≠ .GLB_PANEL_CFG ∨ i ≠ n → regGet t r i = regGet s r i) ∧ (∀ m, panelGet t m = panelGet s m))) ∧
  (∀ (s : State) (req : Requester) (n : Nat) (v : Word),
      Arrives s req .GLB_PANEL_CFG n = true →
      panelCfgOk s n (putBf (putBf (putBf 0 31 31 (bf v 31 31)) 25 16 (bf v 25 16)) 14 0 (bf v 14 0)) = false →
      Completes (.glbPanelCfgWrite req n v) s (fun t => Happened s t .GLB_EVENT 0 1 ∧ OnlyChanges [.events, .irq, .outbox] s t)) ∧
  (∀ (s : State) (req : Requester) (p : Nat) (v : Word),
      Canon s →
      Arrives s req .MEM_PANEL_QUOTA p = true →
      req = .pf ∨ req = .ctl →
      quotaAccepts s p v (panelInUse s p) = true →
      Completes (.memPanelQuotaWrite req p v) s (fun t => regGet t .MEM_PANEL_QUOTA p = v ∧
        (∀ r i, r ≠ .MEM_PANEL_QUOTA ∨ i ≠ p → regGet t r i = regGet s r i) ∧ OnlyChanges [.regs, .events, .irq, .outbox] s t)) ∧
  (∀ (s : State) (req : Requester) (p : Nat) (v : Word),
      Arrives s req .MEM_PANEL_QUOTA p = true →
      req = .pf ∨ req = .ctl →
      quotaAccepts s p v (panelInUse s p) = false →
      Completes (.memPanelQuotaWrite req p v) s (fun t => Happened s t .MEM_EVENT pfView 4 ∧ OnlyChanges [.events, .irq, .outbox] s t)) ∧
  (∀ (s : State) (k p : Nat) (v : Word),
      Arrives s (.vf k) .MEM_PANEL_QUOTA p = true →
      Completes (.memPanelQuotaWrite (.vf k) p v) s (fun t => t = s))

/-- A panel reset leaves the panel RESETTING without a KEK, and its end makes it ACTIVE or DISABLED; other panels keep their state. PANEL_RESET
of a panel not already RESETTING leaves it RESETTING, every other panel in the state it had, and the panel's group without KEK and
ciphertext; while RESETTING a further reset changes nothing. PANEL_RESET_DONE of a RESETTING panel makes it ACTIVE when EN is set and
DISABLED otherwise, and leaves every other panel. (R405, R369, R375, R303) -/
def Obligations.PanelReset : Prop :=
  (∀ (s : State) (req : Requester) (n : Nat),
      Canon s →
      Arrives s req .PNL_CTRL n = true →
      (panelGet s n).state ≠ .resetting →
      Completes (.panelReset req n) s (fun t => (panelGet t n).state = .resetting ∧ (∀ m, m ≠ n → panelGet t m = panelGet s m) ∧
        (keyGroup t n).kek = none ∧ (keyGroup t n).ct = none ∧ t.boot = s.boot ∧ t.flash = s.flash ∧ t.time = s.time ∧ t.fab.fdb = s.fab.fdb ∧ t.opt = s.opt)) ∧
  (∀ (s : State) (req : Requester) (n : Nat),
      Arrives s req .PNL_CTRL n = true →
      (panelGet s n).state = .resetting →
      Completes (.panelReset req n) s (fun t => t = s)) ∧
  (∀ (s : State) (n : Nat),
      Canon s →
      (panelGet s n).state = .resetting →
      Completes (.panelResetDone n) s (fun t => panelGet t n = ⟨if panelEn s n then .active else .disabled, 0⟩ ∧ (∀ m, m ≠ n → panelGet t m = panelGet s m) ∧
        OnlyChanges [.events, .counters, .irq, .outbox, .fresh, .panels, .obs, .thm, .selv, .cco, .seam, .bast, .fab] s t))

/-- Observation areas are placed and refreshed, and saturation is written out each period. DBG_PNL_OBS_WRITE of size zero takes the area away:
the register holds the value and no byte of HBM changes; a value the panel's quota does not cover is refused with DBG_EVENT bit 2 and
nothing else changes. OBS_REFRESH writes only inside HBM: registers, collectives, keys and sessions stay. SAT_PERIOD_EXPIRY starts the next
period with no intervals counted; with tracing disabled it writes no record and changes nothing else. (R457, R461, R453) -/
def Obligations.ObservationAreas : Prop :=
  (∀ (s : State) (req : Requester) (p : Nat) (v : Word),
      Canon s →
      Arrives s req .DBG_PNL_OBS p = true →
      bf v 15 0 = 0 →
      Completes (.dbgPnlObsWrite req p v) s (fun t => regGet t .DBG_PNL_OBS p = v ∧ areaGet t p = ⟨0, 0, 0, 0⟩ ∧
        (∀ r i, r ≠ .DBG_PNL_OBS ∨ i ≠ p → regGet t r i = regGet s r i) ∧ OnlyChanges [.regs, .obs] s t)) ∧
  (∀ (s : State) (req : Requester) (p : Nat) (v : Word),
      Arrives s req .DBG_PNL_OBS p = true →
      bf v 15 0 ≠ 0 →
      obsArea (areaSet (regSet s .DBG_PNL_OBS p v) p ⟨0, 0, 0, 0⟩) p = none →
      Completes (.dbgPnlObsWrite req p v) s (fun t => Happened s t .DBG_EVENT 0 2 ∧ OnlyChanges [.events, .irq, .outbox] s t)) ∧
  (∀ (s : State),
      Completes .obsRefresh s (fun t => OnlyChanges [.mem, .obs, .counters, .events, .irq, .outbox] s t ∧
        ((∀ p < 16, obsArea s p = none) → t = s))) ∧
  (∀ (s : State),
      regBit s .DBG_TRACE_CFG 0 0 = false →
      Completes .satPeriodExpiry s (fun t => t = { s with obs := { s.obs with sat := [], satIntervals := 0 } })) ∧
  (∀ (s : State),
      regBit s .DBG_TRACE_CFG 0 0 = true →
      Completes .satPeriodExpiry s (fun t => t.obs.sat = [] ∧ t.obs.satIntervals = 0 ∧ (evGet t .DBG_EVENT 0).bits.getLsbD 1 ∧
        t.regs = s.regs ∧ t.held = s.held ∧ t.cco = s.cco ∧ t.thm = s.thm ∧ t.selv = s.selv))

/-- A frame is classified, charged, queued for its destinations, sent in the scheduler's order, and discarded when too old. FRAME_RECEIVE of a
good frame on a port that carries frames, of a class with a limit that it fits and that its policer passes, appends it whole to the frames
held, charged for its cells, for exactly the destinations its forwarding entry gives (the Coordinator and the control complex take theirs at
once); one with an SCP message for the gateway waits so for the Seam array; a class without a limit loses it and counts it; a port that does
not carry frames drops and counts it. FRAME_TRANSMIT sends the frame the scheduler picks and takes its destination off, unless the check of its
handle fails, which leaves it; for a FRAME session it enters the session. FRAME_AGE_OUT of a head older than its class's limit takes it off and
counts it. (R218, R220, R221, R223, R224, R225, R227, R232, R234, R263, R282) -/
def Obligations.FramesThroughTheSwitch : Prop :=
  (∀ (s : State) (f : RxFrame) (ds : List Nat),
      portImpl s f.port = true →
      s.boot.porst = false →
      portCarries s f.port = true →
      isGlobalPause f.data = false →
      (police s f.port (classOf s f.port f.data) f.data.length).1 = true →
      limitOf s f.port (classOf s f.port f.data) ≠ 0 →
      f.data.length ≤ 9216 →
      occOf s f.port (classOf s f.port f.data) + cellsOf f.data.length ≤ limitOf s f.port (classOf s f.port f.data) →
      f.toGateway = false →
      f.fcsOk = true →
      f.fecUncorr = 0 →
      lookup s (inputPanel s f.port) f.data = some ds →
      ds.filter (fun d => d != ccoDest && d != ctlDest) ≠ [] →
      Completes (.frameReceive f) s (fun t => (∃ h, t.fab.frames = s.fab.frames ++ [{ inp := f.port, cls := classOf s f.port f.data, dests := ds.filter (fun d => d != ccoDest && d != ctlDest), data := f.data, bad := false, arrUs := s.localUs, handle := h, cells := cellsOf f.data.length, own := none, res := none }]) ∧
        t.fab.fdb = s.fab.fdb ∧ t.fab.groups = s.fab.groups ∧ OnlyChanges [.events, .counters, .irq, .outbox, .fresh, .obs, .bob, .fab] s t)) ∧
  (∀ (s : State) (f : RxFrame),
      portImpl s f.port = true →
      s.boot.porst = false →
      portCarries s f.port = true →
      isGlobalPause f.data = false →
      (police s f.port (classOf s f.port f.data) f.data.length).1 = true →
      limitOf s f.port (classOf s f.port f.data) ≠ 0 →
      f.data.length ≤ 9216 →
      occOf s f.port (classOf s f.port f.data) + cellsOf f.data.length ≤ limitOf s f.port (classOf s f.port f.data) →
      f.toGateway = true →
      f.fcsOk = true →
      f.fecUncorr = 0 →
      udpPort f.data = regBf s .CCO_UDP_PORT 0 15 0 →
      Completes (.frameReceive f) s (fun t => (∃ h, t.fab.frames = s.fab.frames ++ [{ inp := f.port, cls := classOf s f.port f.data, dests := [seamDest], data := f.data, bad := false, arrUs := s.localUs, handle := h, cells := cellsOf f.data.length, own := none, res := none }]) ∧
        t.fab.fdb = s.fab.fdb ∧ t.fab.groups = s.fab.groups ∧ OnlyChanges [.events, .counters, .irq, .outbox, .fresh, .obs, .bob, .fab] s t)) ∧
  (∀ (s : State) (f : RxFrame),
      Canon s →
      portImpl s f.port = true →
      s.boot.porst = false →
      portCarries s f.port = true →
      isGlobalPause f.data = false →
      (police s f.port (classOf s f.port f.data) f.data.length).1 = true →
      limitOf s f.port (classOf s f.port f.data) = 0 →
      Completes (.frameReceive f) s (fun t => ctrGet t .SW_CNT_CLASS_OFF 0 = ctrGet s .SW_CNT_CLASS_OFF 0 + 1 ∧ t.fab.frames = s.fab.frames ∧
        t.fab.fdb = s.fab.fdb ∧ t.fab.groups = s.fab.groups ∧ OnlyChanges [.counters, .fab] s t)) ∧
  (∀ (s : State) (f : RxFrame),
      Canon s →
      portImpl s f.port = true →
      s.boot.porst = false →
      portCarries s f.port = false →
      Completes (.frameReceive f) s (fun t => ctrGet t .FPORT_PRE_READY_DROP 0 = ctrGet s .FPORT_PRE_READY_DROP 0 + 1 ∧ OnlyChanges [.counters] s t)) ∧
  (∀ (s : State) (p panel phase k : Nat) (f : Frame) (x : FabPort),
      Canon s →
      p < 256 →
      portCarries s p = true →
      nextFrame s p phase = (some (k, f), x) →
      s.fab.frames[k]? = some f →
      (bobUse s 0x20 f.handle 0).1 = true →
      Completes (.frameTransmit p panel phase) s (fun t => (∃ o, t.outbox = s.outbox ++ frameOut p f :: o) ∧
        t.fab.frames = (if (f.dests.filter (· ≠ p)).isEmpty then s.fab.frames.eraseIdx k else s.fab.frames.set k { f with dests := f.dests.filter (· ≠ p) }) ∧
        ctrGet t .FPORT_CNT_TX_FRAMES p = ctrGet s .FPORT_CNT_TX_FRAMES p + 1 ∧
        ctrGet t .FPORT_CNT_TX_BYTES p = ctrGet s .FPORT_CNT_TX_BYTES p + BitVec.ofNat 64 f.data.length ∧
        (f.bad = true → ctrGet t .FPORT_CNT_STOMP p = ctrGet s .FPORT_CNT_STOMP p + 1) ∧
        OnlyChanges [.regs, .held, .events, .counters, .irq, .outbox, .fresh, .obs, .bob, .cco, .fab] s t)) ∧
  (∀ (s : State) (p panel phase k : Nat) (f : Frame) (x : FabPort),
      p < 256 →
      portCarries s p = true →
      nextFrame s p phase = (some (k, f), x) →
      (bobUse s 0x20 f.handle 0).1 = false →
      Completes (.frameTransmit p panel phase) s (fun t => t = (bobUse s 0x20 f.handle 0).2)) ∧
  (∀ (s : State) (p panel phase : Nat),
      p < 256 →
      (nextFrame s p phase).1 = none ∨ portCarries s p = false →
      Completes (.frameTransmit p panel phase) s (fun t => t = s)) ∧
  (∀ (s u : State) (panel v phase k i : Nat) (f : Frame),
      vdestSess s panel v = some k →
      sessNext s panel v k = some (i, f) →
      frameEnter s k f.cls f.data = (true, u) →
      Completes (.frameTransmit (256 + v) panel phase) s (fun t => t = leaveOne { u with fab := { u.fab with sessLast := tabSet 0 u.fab.sessLast (pc k f.cls) (f.inp + 1) } } i (256 + v))) ∧
  (∀ (s : State) (inp c d k : Nat) (f : Frame),
      Canon s →
      (voqHeads s.fab.frames d c).find? (fun h => h.2.inp == inp) = some (k, f) →
      s.fab.frames[k]? = some f →
      ageLimit c < s.localUs - f.arrUs →
      Completes (.frameAgeOut inp c d) s (fun t => ctrGet t .SW_CNT_AGED c = ctrGet s .SW_CNT_AGED c + 1 ∧
        t.fab.frames = (if (f.dests.filter (· ≠ d)).isEmpty then s.fab.frames.eraseIdx k else s.fab.frames.set k { f with dests := f.dests.filter (· ≠ d) }) ∧
        (ageLimit c = 2000000 → (evGet t .SW_EVENT 0).bits.getLsbD 1 = true) ∧ OnlyChanges [.events, .counters, .irq, .outbox, .fresh, .obs, .bob, .cco, .fab] s t)) ∧
  (∀ (s : State) (inp c d k : Nat) (f : Frame),
      (voqHeads s.fab.frames d c).find? (fun h => h.2.inp == inp) = some (k, f) →
      s.localUs - f.arrUs ≤ ageLimit c →
      Completes (.frameAgeOut inp c d) s (fun t => t = s))

/-- Links come up and go down as R218 and R249 say, and priority flow control pauses and releases classes. LINK_UP of an implemented port whose
domain takes work and whose die has its reference clock leaves the link up with the FEC locked, nothing paused in either direction, no
credit, and FPORT_EVENT.LINK_CHANGE; LINK_DOWN of a port that is up takes link, FEC lock and pauses away and sets the event; frames held for
the port stay. PFC_RECEIVE pauses exactly the classes with quanta other than 0, releases those with 0, and leaves the rest. PFC_REFRESH
sends XOFF again while occupancy is at XON or above. PFC_PAUSE_EXPIRY ends pause and discarding of the class. PORT_STALL of a class paused
too long is counted and sets HLT_EVENT. TX_HANG of a port that does not hang changes nothing, and of one that has had a frame to send for 1 ms
without starting one recovers its domain. (R218, R228, R231, R249, R430, R441) -/
def Obligations.PortLinks : Prop :=
  (∀ (s : State) (p : Nat),
      Canon s →
      portImpl s p = true →
      domReady s (portDom p) = true →
      s.pins.refLost.getLsbD (p / 64) = false →
      s.boot.stage ≠ 15 →
      s.boot.porst = false →
      Completes (.linkUp p) s (fun t => (fabPort t p).link = true ∧ (fabPort t p).fecLock = true ∧ (fabPort t p).paused = 0 ∧ (fabPort t p).pausing = 0 ∧
        (fabPort t p).discard = 0 ∧ (fabPort t p).credit = [] ∧ (fabPort t p).gates = (fabPort s p).gates ∧ (fabPort t p).pol = (fabPort s p).pol ∧
        (∀ q, q ≠ p → fabPort t q = fabPort s q) ∧ t.fab.frames = s.fab.frames ∧ t.fab.fdb = s.fab.fdb ∧ Happened s t .FPORT_EVENT 0 0 ∧
        OnlyChanges [.events, .irq, .outbox, .fab] s t)) ∧
  (∀ (s : State) (p : Nat),
      Canon s →
      (fabPort s p).link = true →
      Completes (.linkDown p) s (fun t => fabPort t p = { fabPort s p with link := false, fecLock := false, paused := 0, pausedUs := [], pausing := 0, discard := 0 } ∧
        (∀ q, q ≠ p → fabPort t q = fabPort s q) ∧ t.fab.frames = s.fab.frames ∧ Happened s t .FPORT_EVENT 0 0 ∧
        OnlyChanges [.events, .irq, .outbox, .fab] s t)) ∧
  (∀ (s : State) (p : Nat) (quanta : List (Option Nat)),
      Canon s →
      portCarries s p = true →
      Completes (.pfcReceive p quanta) s (fun t => ctrGet t .FPORT_CNT_PFC_RX p = ctrGet s .FPORT_CNT_PFC_RX p + 1 ∧
        (∀ c q, c < 8 → quanta[c]? = some (some q) → ((fabPort t p).paused.getLsbD c = decide (q ≠ 0))) ∧
        (∀ c, c < 8 → (quanta[c]? = none ∨ quanta[c]? = some none) → (fabPort t p).paused.getLsbD c = (fabPort s p).paused.getLsbD c) ∧
        (∀ q, q ≠ p → fabPort t q = fabPort s q) ∧ t.fab.frames = s.fab.frames ∧ t.fab.fdb = s.fab.fdb ∧ OnlyChanges [.counters, .fab] s t)) ∧
  (∀ (s : State) (p c : Nat),
      Canon s →
      portCarries s p = true →
      c < 8 →
      (fabPort s p).pausing.getLsbD c = true →
      xonOf s p c ≤ occOf s p c →
      Completes (.pfcRefresh p c) s (fun t => t.outbox = s.outbox ++ [.pfc p c 0xFFFF] ∧ ctrGet t .FPORT_CNT_PFC_TX p = ctrGet s .FPORT_CNT_PFC_TX p + 1 ∧
        OnlyChanges [.counters, .outbox, .obs] s t)) ∧
  (∀ (s : State) (p c : Nat),
      (fabPort s p).pausing.getLsbD c = false ∨ occOf s p c < xonOf s p c →
      Completes (.pfcRefresh p c) s (fun t => t = s)) ∧
  (∀ (s : State) (p c : Nat),
      Canon s →
      c < 8 →
      Completes (.pfcPauseExpiry p c) s (fun t => (fabPort t p).paused = (fabPort s p).paused &&& ~~~(BitVec.ofNat 8 (pow2 c)) ∧
        (fabPort t p).discard = (fabPort s p).discard &&& ~~~(BitVec.ofNat 8 (pow2 c)) ∧ (∀ q, q ≠ p → fabPort t q = fabPort s q) ∧
        t.fab.frames = s.fab.frames ∧ OnlyChanges [.fab] s t)) ∧
  (∀ (s : State) (p c : Nat),
      Canon s →
      c < 8 →
      (fabPort s p).paused.getLsbD c = true →
      (fabPort s p).discard.getLsbD c = false →
      tabGet 0 (fabPort s p).pausedUs c + 1000 * regBf s .HLT_PORT_STALL 0 10 0 ≤ s.localUs →
      Completes (.portStall p c) s (fun t => ctrGet t .HLT_CNT_PORT_STALL 0 = ctrGet s .HLT_CNT_PORT_STALL 0 + 1 ∧ Happened s t .HLT_EVENT 0 3 ∧
        (regBit s .HLT_CFG 0 24 = false → t.fab = s.fab ∧ OnlyChanges [.events, .counters, .irq, .outbox] s t) ∧
        (regBit s .HLT_CFG 0 24 = true → (fabPort t p).discard.getLsbD c = true) ∧ OnlyChanges [.events, .counters, .irq, .outbox, .fresh, .obs, .bob, .cco, .fab] s t)) ∧
  (∀ (s : State) (p c : Nat),
      (fabPort s p).paused.getLsbD c = false →
      Completes (.portStall p c) s (fun t => t = s)) ∧
  (∀ (s : State) (p : Nat),
      portCarries s p = true →
      (fabPort s p).lastTxUs + 1000 ≤ s.localUs →
      (List.range 8).any (fun c => (classHead s p c 0).any (fun h => decide (h.2.arrUs + 1000 ≤ s.localUs))) = true →
      Completes (.txHang p) s (fun t => t = domainRecover (raiseEv s .HLT_EVENT 0 4) (portDom p))) ∧
  (∀ (s : State) (p : Nat),
      portCarries s p = false ∨ s.localUs < (fabPort s p).lastTxUs + 1000 ∨
        (List.range 8).any (fun c => (classHead s p c 0).any (fun h => decide (h.2.arrUs + 1000 ≤ s.localUs))) = false →
      Completes (.txHang p) s (fun t => t = s))

/-- Writes of port mode, port control, limits, forwarding entries, policers and shapers take effect or are refused as their rules say.
FPORT_QD_MODE_WRITE is refused with FPORT_EVENT bit 2 while the quadrant is in use, and otherwise sets the mode and takes every link of the
quadrant down. FPORT_CTRL_WRITE keeps PANEL while EN is set, is refused with SW_EVENT.LIMIT_REFUSED where a new panel's limits do not fit, keeps
EN clear on a lane conflict with FPORT_EVENT bit 3, starts training, and on EN cleared flushes every frame bound for the port. SW_LIMIT_WRITE takes a pair of values that fits, and refuses any other with
SW_EVENT.LIMIT_REFUSED. FDB_WRITE and FDB_DELETE install and remove one entry. TM_POL_WRITE refills the bucket; TM_SHP_WRITE is held while
the queue holds a frame and refills the bucket otherwise. (R217, R218, R219, R221, R224, R229, R233, R236, R250, R252) -/
def Obligations.PortAndSwitchSettings : Prop :=
  (∀ (s : State) (req : Requester) (q : Nat) (v : Word),
      Arrives s req .FPORT_QD_MODE q = true →
      quadBusy s q = true →
      Completes (.fportQdModeWrite req q v) s (fun t => Happened s t .FPORT_EVENT 0 2 ∧ OnlyChanges [.events, .irq, .outbox] s t)) ∧
  (∀ (s : State) (req : Requester) (q : Nat) (v : Word),
      Canon s →
      Arrives s req .FPORT_QD_MODE q = true →
      quadBusy s q = false →
      bf v 1 0 ≠ 3 →
      Completes (.fportQdModeWrite req q v) s (fun t => regGet t .FPORT_QD_MODE q = BitVec.ofNat 32 (bf v 1 0) ∧
        (∀ r i, r ≠ .FPORT_QD_MODE ∨ i ≠ q → regGet t r i = regGet s r i) ∧ (∀ k, k < 32 → (fabPort t (32 * q + k)).link = false) ∧
        (∀ p, p / 32 ≠ q → fabPort t p = fabPort s p) ∧ t.fab.frames = s.fab.frames ∧ OnlyChanges [.regs, .events, .irq, .outbox, .fab] s t)) ∧
  (∀ (s : State) (req : Requester) (p : Nat) (v : Word),
      Canon s →
      Arrives s req .FPORT_CTRL p = true →
      portEn s p = false →
      bit (acceptWord .FPORT_CTRL (regGet s .FPORT_CTRL p) v) 31 = true →
      bf (acceptWord .FPORT_CTRL (regGet s .FPORT_CTRL p) v) 27 24 = bf (regGet s .FPORT_CTRL p) 27 24 ∨ panelTakesPort s p (bf (acceptWord .FPORT_CTRL (regGet s .FPORT_CTRL p) v) 27 24) = true →
      (portLanes s p).any (laneBasting s) = false →
      (fabPort s p).link = false →
      Completes (.fportCtrlWrite req p v) s (fun t => regGet t .FPORT_CTRL p = (acceptWord .FPORT_CTRL (regGet s .FPORT_CTRL p) v) ∧ (∀ r i, r ≠ .FPORT_CTRL ∨ i ≠ p → regGet t r i = regGet s r i) ∧
        fabPort t p = { portFresh s p with training := true } ∧ (∀ q, q ≠ p → fabPort t q = fabPort s q) ∧ t.fab.frames = s.fab.frames ∧ OnlyChanges [.regs, .fab] s t)) ∧
  (∀ (s : State) (req : Requester) (p : Nat) (v : Word),
      Arrives s req .FPORT_CTRL p = true →
      portEn s p = false →
      bit (acceptWord .FPORT_CTRL (regGet s .FPORT_CTRL p) v) 31 = false ∨ (portLanes s p).any (laneBasting s) = false →
      bf (acceptWord .FPORT_CTRL (regGet s .FPORT_CTRL p) v) 27 24 ≠ bf (regGet s .FPORT_CTRL p) 27 24 →
      panelTakesPort s p (bf (acceptWord .FPORT_CTRL (regGet s .FPORT_CTRL p) v) 27 24) = false →
      Completes (.fportCtrlWrite req p v) s (fun t => Happened s t .SW_EVENT 0 0 ∧ OnlyChanges [.events, .irq, .outbox] s t)) ∧
  (∀ (s : State) (req : Requester) (p : Nat) (v : Word),
      Canon s →
      Arrives s req .FPORT_CTRL p = true →
      portEn s p = false →
      bit (acceptWord .FPORT_CTRL (regGet s .FPORT_CTRL p) v) 31 = true →
      bf (acceptWord .FPORT_CTRL (regGet s .FPORT_CTRL p) v) 27 24 = bf (regGet s .FPORT_CTRL p) 27 24 ∨ panelTakesPort s p (bf (acceptWord .FPORT_CTRL (regGet s .FPORT_CTRL p) v) 27 24) = true →
      (portLanes s p).any (laneBasting s) = true →
      Completes (.fportCtrlWrite req p v) s (fun t => regGet t .FPORT_CTRL p = putBf (acceptWord .FPORT_CTRL (regGet s .FPORT_CTRL p) v) 31 31 0 ∧ (∀ r i, r ≠ .FPORT_CTRL ∨ i ≠ p → regGet t r i = regGet s r i) ∧
        Happened s t .FPORT_EVENT 0 3 ∧ OnlyChanges [.regs, .events, .irq, .outbox] s t)) ∧
  (∀ (s : State) (req : Requester) (p : Nat) (v : Word),
      Canon s →
      Arrives s req .FPORT_CTRL p = true →
      portEn s p = true →
      bit (acceptWord .FPORT_CTRL (regGet s .FPORT_CTRL p) v) 31 = true →
      Completes (.fportCtrlWrite req p v) s (fun t => regGet t .FPORT_CTRL p = putBf (acceptWord .FPORT_CTRL (regGet s .FPORT_CTRL p) v) 27 24 (bf (regGet s .FPORT_CTRL p) 27 24) ∧
        (∀ r i, r ≠ .FPORT_CTRL ∨ i ≠ p → regGet t r i = regGet s r i) ∧ OnlyChanges [.regs] s t)) ∧
  (∀ (s : State) (req : Requester) (p : Nat) (v : Word),
      Canon s →
      Arrives s req .FPORT_CTRL p = true →
      portEn s p = true →
      bit (acceptWord .FPORT_CTRL (regGet s .FPORT_CTRL p) v) 31 = false →
      Completes (.fportCtrlWrite req p v) s (fun t => regGet t .FPORT_CTRL p = putBf (acceptWord .FPORT_CTRL (regGet s .FPORT_CTRL p) v) 27 24 (bf (regGet s .FPORT_CTRL p) 27 24) ∧
        (∀ r i, r ≠ .FPORT_CTRL ∨ i ≠ p → regGet t r i = regGet s r i) ∧ (∀ f ∈ t.fab.frames, p ∉ f.dests) ∧ OnlyChanges [.regs, .events, .counters, .irq, .outbox, .fresh, .obs, .bob, .cco, .fab] s t)) ∧
  (∀ (s : State) (req : Requester) (p c : Nat) (v : Word),
      Canon s →
      Arrives s req .SW_LIMIT (pc p c) = true →
      limitsOk s p c (acceptWord .SW_LIMIT (regGet s .SW_LIMIT (pc p c)) v) (regGet s .SW_PFC (pc p c)) = true →
      Completes (.swLimitWrite req false p c v) s (fun t => regGet t .SW_LIMIT (pc p c) = acceptWord .SW_LIMIT (regGet s .SW_LIMIT (pc p c)) v ∧
        (∀ r i, r ≠ .SW_LIMIT ∨ i ≠ pc p c → regGet t r i = regGet s r i) ∧ t.fab.frames = s.fab.frames ∧ t.fab.fdb = s.fab.fdb ∧ OnlyChanges [.regs, .counters, .outbox, .obs, .fab] s t)) ∧
  (∀ (s : State) (req : Requester) (p c : Nat) (v : Word),
      Canon s →
      Arrives s req .SW_PFC (pc p c) = true →
      limitsOk s p c (regGet s .SW_LIMIT (pc p c)) (acceptWord .SW_PFC (regGet s .SW_PFC (pc p c)) v) = true →
      Completes (.swLimitWrite req true p c v) s (fun t => regGet t .SW_PFC (pc p c) = acceptWord .SW_PFC (regGet s .SW_PFC (pc p c)) v ∧
        (∀ r i, r ≠ .SW_PFC ∨ i ≠ pc p c → regGet t r i = regGet s r i) ∧ t.fab.frames = s.fab.frames ∧ t.fab.fdb = s.fab.fdb ∧ OnlyChanges [.regs, .counters, .outbox, .obs, .fab] s t)) ∧
  (∀ (s : State) (req : Requester) (p c : Nat) (v : Word),
      Arrives s req .SW_LIMIT (pc p c) = true →
      limitsOk s p c (acceptWord .SW_LIMIT (regGet s .SW_LIMIT (pc p c)) v) (regGet s .SW_PFC (pc p c)) = false →
      Completes (.swLimitWrite req false p c v) s (fun t => Happened s t .SW_EVENT 0 0 ∧ OnlyChanges [.events, .irq, .outbox] s t)) ∧
  (∀ (s : State) (req : Requester),
      Canon s →
      Arrives s req .SW_FDB_CMD 0 = true →
      s.fab.fdb.length < 131072 →
      Completes (.fdbWrite req) s (fun t => tabGet none t.fab.fdb (fdbKey s) = some (regGet s .SW_FDB_DEST 0) ∧
        (∀ k, k ≠ fdbKey s → tabGet none t.fab.fdb k = tabGet none s.fab.fdb k) ∧ t.fab.fdbFull = false ∧ t.fab.ports = s.fab.ports ∧
        t.fab.frames = s.fab.frames ∧ OnlyChanges [.fab] s t)) ∧
  (∀ (s : State) (req : Requester),
      Arrives s req .SW_FDB_CMD 0 = true →
      tabGet none s.fab.fdb (fdbKey s) = none →
      131072 ≤ s.fab.fdb.length →
      Completes (.fdbWrite req) s (fun t => t = { s with fab := { s.fab with fdbFull := true } })) ∧
  (∀ (s : State) (req : Requester) (w : Word),
      Canon s →
      Arrives s req .SW_FDB_CMD 0 = true →
      tabGet none s.fab.fdb (fdbKey s) = some w →
      Completes (.fdbDelete req) s (fun t => tabGet none t.fab.fdb (fdbKey s) = none ∧ t.fab.fdbMissing = false ∧
        (∀ k, k ≠ fdbKey s → tabGet none t.fab.fdb k = tabGet none s.fab.fdb k) ∧ t.fab.ports = s.fab.ports ∧
        t.fab.frames = s.fab.frames ∧ OnlyChanges [.fab] s t)) ∧
  (∀ (s : State) (req : Requester),
      Arrives s req .SW_FDB_CMD 0 = true →
      tabGet none s.fab.fdb (fdbKey s) = none →
      Completes (.fdbDelete req) s (fun t => t = { s with fab := { s.fab with fdbMissing := true } })) ∧
  (∀ (s : State) (req : Requester) (reg p c : Nat) (v : Word),
      Canon s →
      Arrives s req (polRid reg) (pc p c) = true →
      Completes (.tmPolWrite req reg p c v) s (fun t => regGet t (polRid reg) (pc p c) = acceptWord (polRid reg) (regGet s (polRid reg) (pc p c)) v ∧
        (∀ r i, r ≠ polRid reg ∨ i ≠ pc p c → regGet t r i = regGet s r i) ∧
        fabPort t p = { fabPort s p with pol := tabSet ⟨0, 0⟩ (fabPort s p).pol c ⟨burstHalf (regGet t .TM_POL_BURST (pc p c)), s.localUs⟩ } ∧
        (∀ q, q ≠ p → fabPort t q = fabPort s q) ∧ t.fab.frames = s.fab.frames ∧ OnlyChanges [.regs, .fab] s t)) ∧
  (∀ (s : State) (req : Requester) (reg p c : Nat) (v : Word),
      Canon s →
      c < 8 →
      Arrives s req (shpRid reg) (pc p c) = true →
      queueBusy s p c = false →
      Completes (.tmShpWrite req reg p c v) s (fun t => regGet t (shpRid reg) (pc p c) = acceptWord (shpRid reg) (rwsBase s (shpRid reg) (pc p c)) v ∧
        heldGet t (shpRid reg) (pc p c) = none ∧ (∀ r i, r ≠ shpRid reg ∨ i ≠ pc p c → regGet t r i = regGet s r i ∧ heldGet t r i = heldGet s r i) ∧
        fabPort t p = { fabPort s p with shp := tabSet ⟨0, 0⟩ (fabPort s p).shp c (shpFresh t p c) } ∧
        (∀ q, q ≠ p → fabPort t q = fabPort s q) ∧ t.fab.frames = s.fab.frames ∧ OnlyChanges [.regs, .held, .fab] s t)) ∧
  (∀ (s : State) (req : Requester) (reg p c : Nat) (v : Word),
      Canon s →
      Arrives s req (shpRid reg) (pc p c) = true →
      queueBusy s p c = true →
      Completes (.tmShpWrite req reg p c v) s (fun t => heldGet t (shpRid reg) (pc p c) = some (acceptWord (shpRid reg) (rwsBase s (shpRid reg) (pc p c)) v) ∧
        (∀ r i, r ≠ shpRid reg ∨ i ≠ pc p c → heldGet t r i = heldGet s r i) ∧ OnlyChanges [.held] s t))

/-- A gate list is checked, waits for its cycle start, runs entry by entry, and stops at a cycle's end. GCL_COMMIT of a standby list with an
error records the first failing check in ERR and sets TM_EVENT bit 1; an acceptable one waits for the next cycle start of the running list,
or for its base time where none runs. GCL_STOP marks a running list to end at its cycle's end. GCL_SWAP puts the accepted list in effect
from its first entry once the time base has locked. GCL_ENTRY_EXPIRY goes to the next entry, and after the last to the accepted list, to no
list where a stop waits, or to the first entry. (R237, R238, R240, R253) -/
def Obligations.GateLists : Prop :=
  (∀ (s : State) (req : Requester) (p : Nat),
      Canon s →
      Arrives s req .TM_GCL_CMD p = true →
      gclErr s p ≠ 0 →
      Completes (.gclCommit req p) s (fun t => (fabPort t p = { fabPort s p with gates := { (fabPort s p).gates with err := BitVec.ofNat 8 (gclErr s p) } } ∧
        (∀ q, q ≠ p → fabPort t q = fabPort s q) ∧ t.fab.frames = s.fab.frames ∧ t.fab.fdb = s.fab.fdb) ∧
        Happened s t .TM_EVENT 0 1 ∧ OnlyChanges [.events, .irq, .outbox, .fab] s t)) ∧
  (∀ (s : State) (req : Requester) (p : Nat),
      Canon s →
      Arrives s req .TM_GCL_CMD p = true →
      gclErr s p = 0 →
      Completes (.gclCommit req p) s (fun t => (fabPort t p = { fabPort s p with gates := { (fabPort s p).gates with err := 0, next := some (gclStandby s p, 8 * regBf s .TM_GCL_SB_CYCLE p 26 0,
          if (fabPort s p).gates.running then cycleStart (fabPort s p).gates + (fabPort s p).gates.cycle
          else if s.time.everLocked then firstAfter (gclBase s p) (8 * regBf s .TM_GCL_SB_CYCLE p 26 0) (nowNs s) else gclBase s p) } } ∧
        (∀ q, q ≠ p → fabPort t q = fabPort s q) ∧ t.fab.frames = s.fab.frames ∧ t.fab.fdb = s.fab.fdb) ∧
        OnlyChanges [.fab] s t)) ∧
  (∀ (s : State) (req : Requester) (p : Nat),
      Canon s →
      Arrives s req .TM_GCL_CMD p = true →
      (fabPort s p).gates.running = true →
      Completes (.gclStop req p) s (fun t => (fabPort t p = { fabPort s p with gates := { (fabPort s p).gates with stop := true } } ∧
        (∀ q, q ≠ p → fabPort t q = fabPort s q) ∧ t.fab.frames = s.fab.frames ∧ t.fab.fdb = s.fab.fdb) ∧ OnlyChanges [.fab] s t)) ∧
  (∀ (s : State) (p : Nat) (l : List Word) (cyc start : Nat),
      Canon s →
      (fabPort s p).gates.next = some (l, cyc, start) →
      s.time.everLocked = true →
      Completes (.gclSwap p) s (fun t => (fabPort t p = { fabPort s p with gates := { (fabPort s p).gates with entries := l, cycle := cyc, idx := 0, running := true, next := none, stop := false, since := if (fabPort s p).gates.running then start else instantAt start cyc (nowNs s) } } ∧
        (∀ q, q ≠ p → fabPort t q = fabPort s q) ∧ t.fab.frames = s.fab.frames ∧ t.fab.fdb = s.fab.fdb) ∧
        Happened s t .TM_EVENT 0 0 ∧ OnlyChanges [.events, .irq, .outbox, .fab] s t)) ∧
  (∀ (s : State) (p : Nat),
      (fabPort s p).gates.next = none ∨ s.time.everLocked = false →
      Completes (.gclSwap p) s (fun t => t = s)) ∧
  (∀ (s : State) (p : Nat),
      Canon s →
      (fabPort s p).gates.running = true →
      (fabPort s p).gates.idx + 1 < (fabPort s p).gates.entries.length →
      Completes (.gclEntryExpiry p) s (fun t => (fabPort t p = { fabPort s p with gates := { (fabPort s p).gates with idx := (fabPort s p).gates.idx + 1, since := (fabPort s p).gates.since + entryNs ((fabPort s p).gates.entries.getD (fabPort s p).gates.idx 0) } } ∧
        (∀ q, q ≠ p → fabPort t q = fabPort s q) ∧ t.fab.frames = s.fab.frames ∧ t.fab.fdb = s.fab.fdb) ∧ OnlyChanges [.fab] s t)) ∧
  (∀ (s : State) (p : Nat) (l : List Word) (cyc start : Nat),
      Canon s →
      (fabPort s p).gates.running = true →
      (fabPort s p).gates.entries.length ≤ (fabPort s p).gates.idx + 1 →
      (fabPort s p).gates.next = some (l, cyc, start) →
      Completes (.gclEntryExpiry p) s (fun t => (fabPort t p = { fabPort s p with gates := { (fabPort s p).gates with entries := l, cycle := cyc, idx := 0, running := true, next := none, stop := false, since := (fabPort s p).gates.since + entryNs ((fabPort s p).gates.entries.getD (fabPort s p).gates.idx 0) } } ∧
        (∀ q, q ≠ p → fabPort t q = fabPort s q) ∧ t.fab.frames = s.fab.frames ∧ t.fab.fdb = s.fab.fdb) ∧
        Happened s t .TM_EVENT 0 0 ∧ OnlyChanges [.events, .irq, .outbox, .fab] s t)) ∧
  (∀ (s : State) (p : Nat),
      Canon s →
      (fabPort s p).gates.running = true →
      (fabPort s p).gates.entries.length ≤ (fabPort s p).gates.idx + 1 →
      (fabPort s p).gates.next = none →
      (fabPort s p).gates.stop = false →
      Completes (.gclEntryExpiry p) s (fun t => (fabPort t p = { fabPort s p with gates := { (fabPort s p).gates with idx := 0, since := (fabPort s p).gates.since + entryNs ((fabPort s p).gates.entries.getD (fabPort s p).gates.idx 0) } } ∧
        (∀ q, q ≠ p → fabPort t q = fabPort s q) ∧ t.fab.frames = s.fab.frames ∧ t.fab.fdb = s.fab.fdb) ∧ OnlyChanges [.fab] s t)) ∧
  (∀ (s : State) (p : Nat),
      Canon s →
      (fabPort s p).gates.running = true →
      (fabPort s p).gates.entries.length ≤ (fabPort s p).gates.idx + 1 →
      (fabPort s p).gates.next = none →
      (fabPort s p).gates.stop = true →
      Completes (.gclEntryExpiry p) s (fun t => (fabPort t p = { fabPort s p with gates := { (fabPort s p).gates with entries := [], cycle := 0, idx := 0, since := 0, running := false, stop := false } } ∧
        (∀ q, q ≠ p → fabPort t q = fabPort s q) ∧ t.fab.frames = s.fab.frames ∧ t.fab.fdb = s.fab.fdb) ∧ OnlyChanges [.fab] s t))

/-- Circuits and tack receivers are configured, lock, lose lock and return as R243, R244 and R246 say. BAST_CIRC_CFG_WRITE that breaks R243
changes no register and sets BAST_EVENT bit 2; a changed enabled circuit is put in RELOCK with its register at the value. RELOCK_DONE makes
it UP, or OFF where disabled, with BAST_EVENT bit 0; an ORIG circuit that comes UP sends IDLE words with the SEQ of its last tack. LOSS_OF_LOCK
of a PASS circuit that is UP enters LOSS_OF_LOCK with bit 3, and LOCK_RETURN brings it UP. BAST_RX_CFG_WRITE without a lane conflict leaves the
receiver unaligned; with one it is refused. TACK_RX_ALIGN aligns an enabled receiver, TACK_RX_ALIGN_LOSS ends it. Every other circuit and receiver stays. (R243, R244, R246) -/
def Obligations.BastingCircuits : Prop :=
  (∀ (s : State) (req : Requester) (n : Nat) (v : Word),
      Arrives s req .BAST_CIRC_CFG n = true →
      bf v 30 29 ≤ 1 →
      circClash s n (acceptWord .BAST_CIRC_CFG (regGet s .BAST_CIRC_CFG n) v) = true →
      Completes (.bastCircCfgWrite req n v) s (fun t => Happened s t .BAST_EVENT 0 2 ∧ OnlyChanges [.events, .irq, .outbox] s t)) ∧
  (∀ (s : State) (req : Requester) (n : Nat) (v : Word),
      Canon s →
      Arrives s req .BAST_CIRC_CFG n = true →
      bf v 30 29 ≤ 1 →
      circClash s n (acceptWord .BAST_CIRC_CFG (regGet s .BAST_CIRC_CFG n) v) = false →
      (acceptWord .BAST_CIRC_CFG (regGet s .BAST_CIRC_CFG n) v) ≠ regGet s .BAST_CIRC_CFG n →
      bit (acceptWord .BAST_CIRC_CFG (regGet s .BAST_CIRC_CFG n) v) 31 = true ∨ circEn s n = true →
      Completes (.bastCircCfgWrite req n v) s (fun t => regGet t .BAST_CIRC_CFG n = (acceptWord .BAST_CIRC_CFG (regGet s .BAST_CIRC_CFG n) v) ∧ (∀ r i, r ≠ .BAST_CIRC_CFG ∨ i ≠ n → regGet t r i = regGet s r i) ∧
        circ t n = { circ s n with state := .relock } ∧ (∀ m, m ≠ n → circ t m = circ s m) ∧ t.bast.rxs = s.bast.rxs ∧ OnlyChanges [.regs, .bast] s t)) ∧
  (∀ (s : State) (n : Nat),
      Canon s →
      (circ s n).state = .relock →
      Completes (.relockDone n) s (fun t => circ t n = { circ s n with state := if circEn s n then .up else .off } ∧ (∀ m, m ≠ n → circ t m = circ s m) ∧ t.bast.rxs = s.bast.rxs ∧
        (circEn s n = true → circOrig s n = true → .tackIdle n (idleWord (circ s n).seq) ∈ t.outbox) ∧
        Happened s t .BAST_EVENT 0 0 ∧ OnlyChanges [.events, .irq, .outbox, .bast] s t)) ∧
  (∀ (s : State) (n : Nat),
      Canon s →
      circEn s n = true →
      circOrig s n = false →
      (circ s n).state = .up →
      Completes (.lossOfLock n) s (fun t => circ t n = { circ s n with state := .lossOfLock } ∧ (∀ m, m ≠ n → circ t m = circ s m) ∧ t.bast.rxs = s.bast.rxs ∧
        Happened s t .BAST_EVENT 0 3 ∧ OnlyChanges [.events, .irq, .outbox, .bast] s t)) ∧
  (∀ (s : State) (n : Nat),
      Canon s →
      (circ s n).state = .lossOfLock →
      Completes (.lockReturn n) s (fun t => circ t n = { circ s n with state := .up } ∧ (∀ m, m ≠ n → circ t m = circ s m) ∧ t.bast.rxs = s.bast.rxs ∧
        t.outbox = (if circOrig s n then s.outbox ++ [.tackIdle n (idleWord (circ s n).seq)] else s.outbox) ∧ OnlyChanges [.outbox, .bast] s t)) ∧
  (∀ (s : State) (req : Requester) (n : Nat) (v : Word),
      Canon s →
      Arrives s req .BAST_RX_CFG n = true →
      (bit (acceptWord .BAST_RX_CFG (regGet s .BAST_RX_CFG n) v) 31 && (laneOfPort s (bf (acceptWord .BAST_RX_CFG (regGet s .BAST_RX_CFG n) v) 8 0) || rxOn s n (bf (acceptWord .BAST_RX_CFG (regGet s .BAST_RX_CFG n) v) 8 0) true || rxOn s n (bf (acceptWord .BAST_RX_CFG (regGet s .BAST_RX_CFG n) v) 8 0) false || (passFrom s 32 (bf (acceptWord .BAST_RX_CFG (regGet s .BAST_RX_CFG n) v) 8 0) && !bit (acceptWord .BAST_RX_CFG (regGet s .BAST_RX_CFG n) v) 30))) = false →
      Completes (.bastRxCfgWrite req n v) s (fun t => regGet t .BAST_RX_CFG n = (acceptWord .BAST_RX_CFG (regGet s .BAST_RX_CFG n) v) ∧ (∀ r i, r ≠ .BAST_RX_CFG ∨ i ≠ n → regGet t r i = regGet s r i) ∧
        tackRx t n = ⟨false, false, (tackRx s n).acted⟩ ∧ (∀ m, m ≠ n → tackRx t m = tackRx s m) ∧ t.bast.circs = s.bast.circs ∧ OnlyChanges [.regs, .bast] s t)) ∧
  (∀ (s : State) (req : Requester) (n : Nat) (v : Word),
      Arrives s req .BAST_RX_CFG n = true →
      (bit (acceptWord .BAST_RX_CFG (regGet s .BAST_RX_CFG n) v) 31 && (laneOfPort s (bf (acceptWord .BAST_RX_CFG (regGet s .BAST_RX_CFG n) v) 8 0) || rxOn s n (bf (acceptWord .BAST_RX_CFG (regGet s .BAST_RX_CFG n) v) 8 0) true || rxOn s n (bf (acceptWord .BAST_RX_CFG (regGet s .BAST_RX_CFG n) v) 8 0) false || (passFrom s 32 (bf (acceptWord .BAST_RX_CFG (regGet s .BAST_RX_CFG n) v) 8 0) && !bit (acceptWord .BAST_RX_CFG (regGet s .BAST_RX_CFG n) v) 30))) = true →
      Completes (.bastRxCfgWrite req n v) s (fun t => Happened s t .BAST_EVENT 0 2 ∧ OnlyChanges [.events, .irq, .outbox] s t)) ∧
  (∀ (s : State) (n : Nat),
      Canon s →
      rxEn s n = true →
      domOn s 12 = true →
      Completes (.tackRxAlign n) s (fun t => tackRx t n = { tackRx s n with aligned := true, signal := true } ∧ (∀ m, m ≠ n → tackRx t m = tackRx s m) ∧ t.bast.circs = s.bast.circs ∧ OnlyChanges [.bast] s t)) ∧
  (∀ (s : State) (n : Nat),
      Canon s →
      Completes (.tackRxAlignLoss n) s (fun t => tackRx t n = { tackRx s n with aligned := false } ∧ (∀ m, m ≠ n → tackRx t m = tackRx s m) ∧ t.bast.circs = s.bast.circs ∧ OnlyChanges [.bast] s t))

/-- A tack word is checked by its CRC, acted on once per source and SEQ, and acts as its message does. TACK_WORD_RECEIVE on an aligned, enabled
receiver: a word whose CRC does not match is counted and nothing else; a SRC and SEQ already acted on changes nothing; any other is noted,
and one that passes the checks does what its type says (tackAct), while one that fails is counted with BAST_EVENT bit 1.
CONTROL_CELL_RECEIVE on WORK or PROT without a defect: the same, once over both channels, with the effect of a tack between site roots (siteTack). (R173, R245, R246, R247, R330, R331) -/
def Obligations.TackWords : Prop :=
  (∀ (s : State) (n : Nat) (w : BitVec 256),
      Canon s →
      n < 32 →
      (tackRx s n).aligned = true →
      rxEn s n = true →
      domOn s 12 = true →
      tackCrc w ≠ (tackParse w).crc →
      Completes (.tackWordReceive n w) s (fun t => ctrGet t .BAST_CNT_RX_CRC n = ctrGet s .BAST_CNT_RX_CRC n + 1 ∧ OnlyChanges [.counters] s t)) ∧
  (∀ (s : State) (n : Nat) (w : BitVec 256),
      n < 32 →
      (tackRx s n).aligned = true →
      rxEn s n = true →
      domOn s 12 = true →
      tackCrc w = (tackParse w).crc →
      (tackRx s n).acted.contains ((tackParse w).src.toNat, (tackParse w).seq.toNat) = true →
      Completes (.tackWordReceive n w) s (fun t => t = s)) ∧
  (∀ (s : State) (n : Nat) (w : BitVec 256) (c : Coll),
      n < 32 →
      (tackRx s n).aligned = true →
      rxEn s n = true →
      domOn s 12 = true →
      tackCrc w = (tackParse w).crc →
      (tackParse w).typ ≠ 0 →
      (tackRx s n).acted.contains ((tackParse w).src.toNat, (tackParse w).seq.toNat) = false →
      (tackColl s (tackParse w) false).toOption = some c →
      Completes (.tackWordReceive n w) s (fun t => t = tackAct (ctrInc (tackRxSet s n
        { tackRx s n with acted := actedNote (tackRx s n).acted (tackParse w).src.toNat (tackParse w).seq.toNat }) .BAST_CNT_RX n) c (tackParse w) (rxPeer s n))) ∧
  (∀ (s : State) (n : Nat) (w : BitVec 256),
      n < 32 →
      (tackRx s n).aligned = true →
      rxEn s n = true →
      domOn s 12 = true →
      tackCrc w = (tackParse w).crc →
      (tackParse w).typ ≠ 0 →
      (tackRx s n).acted.contains ((tackParse w).src.toNat, (tackParse w).seq.toNat) = false →
      (tackColl s (tackParse w) false).toOption = none →
      Completes (.tackWordReceive n w) s (fun t => (tackRx t n).acted = actedNote (tackRx s n).acted (tackParse w).src.toNat (tackParse w).seq.toNat ∧
        Happened s t .BAST_EVENT 0 1 ∧ OnlyChanges [.events, .irq, .outbox, .bast, .cco] s t)) ∧
  (∀ (s : State) (ch : Nat) (w : BitVec 256) (c : Coll) (j : Nat),
      ch < 64 →
      chEn s ch = true →
      workCh s (chGroup s ch) = ch ∨ (protEn s (chGroup s ch) = true ∧ protCh s (chGroup s ch) = ch) →
      (lineCh s ch).defects = 0 →
      tackCrc w = (tackParse w).crc →
      (tackParse w).typ ≠ 0 →
      (lineGrp s (chGroup s ch)).acted.contains ((tackParse w).src.toNat, (tackParse w).seq.toNat) = false →
      (tackColl s (tackParse w) true).toOption = some c →
      groupSite s c (chGroup s ch) = some j →
      Completes (.controlCellReceive ch 1 w) s (fun t => t = siteTack (lineGrpSet s (chGroup s ch)
        { lineGrp s (chGroup s ch) with acted := actedNote (lineGrp s (chGroup s ch)).acted (tackParse w).src.toNat (tackParse w).seq.toNat }) c (tackParse w) j)) ∧
  (∀ (s : State) (ch : Nat) (w : BitVec 256),
      (lineGrp s (chGroup s ch)).acted.contains ((tackParse w).src.toNat, (tackParse w).seq.toNat) = true →
      Completes (.controlCellReceive ch 1 w) s (fun t => t = s))

/-- New segments leave under the next SEQ, held ones again, and acknowledgements, seals, stalls and faults follow their timers. SEGMENT_TRANSMIT
first applies what is held for the session, seals an open segment whose window is about to close, and changes over to a key asked for; with
nothing due it then sends the head of the queue, read from its slot, as DATA under SNDNXT and holds it; with a held segment due it sends that one
again with RTX; where a segment may not start nothing leaves. RTX_TIMER_EXPIRY sends the held segment again from its slot, or past RTX_MAX puts
the session in FAULT with cause 2. PACK_HOLD_EXPIRY seals the open segment into its slot and the queue. ACK_TIMER_EXPIRY sends an ACK where DATA
has been accepted, and keeps it due where none may leave. STALL_TIMEOUT faults an open session with segments outstanding, and ends a drain.
(R277, R285, R287, R288, R289, R290, R292, R293, R302, R303) -/
def Obligations.SegmentsSent : Prop :=
  (∀ (s u : State) (k : Nat) (g : DataSeg) (r : List DataSeg) (bs : List Byte),
      u = keyForSegment (if nearClose (sessBoundary s k) k then sealOpen (sessBoundary s k) k else sessBoundary s k) k →
      (selvGet u k).state = .open →
      mayStart u k = true →
      (selvGet u k).held.find? (fun h => h.due && winAllows u k h.seg) = none →
      (selvGet u k).queue = g :: r →
      precedes (selvGet u k).sndNxt ((selvGet u k).sndUna + BitVec.ofNat 32 (regBf u .SELV_SESS_WIN k 24 0)) = true →
      precedes (selvGet u k).sndNxt (selvGet u k).peerRwnd = true →
      winAllows u k g = true →
      (slotRead u g).1 = some bs →
      Completes (.segmentTransmit k) s (fun t => SegmentLeft t k 1 false (selvGet u k).sndNxt bs ∧ (selvGet t k).queue = r ∧
        (selvGet t k).sndNxt = (selvGet u k).sndNxt + 1 ∧ (selvGet t k).held = (selvGet u k).held ++ [⟨(selvGet u k).sndNxt, g, s.localUs, 1, false⟩] ∧
        (∀ m, m ≠ k → selvGet t m = selvGet s m) ∧ OnlyChanges [.regs, .held, .events, .counters, .irq, .outbox, .mem, .thm, .selv, .line] s t)) ∧
  (∀ (s u : State) (k : Nat),
      u = keyForSegment (if nearClose (sessBoundary s k) k then sealOpen (sessBoundary s k) k else sessBoundary s k) k →
      sessSends (selvGet u k) = false →
      Completes (.segmentTransmit k) s (fun t => t = u)) ∧
  (∀ (s u : State) (k : Nat),
      u = keyForSegment (if nearClose (sessBoundary s k) k then sealOpen (sessBoundary s k) k else sessBoundary s k) k →
      sessSends (selvGet u k) = true →
      mayStart u k = false →
      Completes (.segmentTransmit k) s (fun t => t = if keyReady u k && lineReady u k && !resvOk u k then raiseEv u .SELV_EVENT 0 1 else u)) ∧
  (∀ (s u : State) (k : Nat) (h : HeldSeg) (bs : List Byte),
      u = keyForSegment (if nearClose (sessBoundary s k) k then sealOpen (sessBoundary s k) k else sessBoundary s k) k →
      sessSends (selvGet u k) = true →
      mayStart u k = true →
      mayStart (keyForSegment u k) k = true →
      (selvGet u k).held.find? (fun h => h.due && winAllows u k h.seg) = some h →
      winAllows (keyForSegment u k) k h.seg = true →
      (selvGet u k).held.find? (fun g => g.seq == h.seq) = some h →
      h.sent ≤ rtxMax u k →
      (slotRead (keyForSegment u k) h.seg).1 = some bs →
      Completes (.segmentTransmit k) s (fun t => SegmentLeft t k 1 true h.seq bs ∧ (selvGet t k).queue = (selvGet u k).queue ∧
        (selvGet t k).sndNxt = (selvGet u k).sndNxt ∧ (∀ m, m ≠ k → selvGet t m = selvGet s m) ∧
        OnlyChanges [.regs, .held, .events, .counters, .irq, .outbox, .mem, .thm, .selv, .line] s t)) ∧
  (∀ (s : State) (k : Nat) (q : Word) (h : HeldSeg) (bs : List Byte),
      sessSends (selvGet s k) = true →
      mayStart (keyForSegment s k) k = true →
      (selvGet s k).held.find? (fun g => g.seq == q) = some h →
      h.sent ≤ rtxMax s k →
      winAllows (keyForSegment s k) k h.seg = true →
      (slotRead (keyForSegment s k) h.seg).1 = some bs →
      Completes (.rtxTimerExpiry k q) s (fun t => SegmentLeft t k 1 true q bs ∧ (selvGet t k).queue = (selvGet s k).queue ∧
        (selvGet t k).sndNxt = (selvGet s k).sndNxt ∧ (∀ m, m ≠ k → selvGet t m = selvGet s m) ∧
        OnlyChanges [.events, .counters, .irq, .outbox, .mem, .thm, .selv, .line] s t)) ∧
  (∀ (s : State) (k : Nat) (q : Word) (h : HeldSeg),
      Canon s →
      sessSends (selvGet s k) = true →
      (selvGet s k).held.find? (fun g => g.seq == q) = some h →
      rtxMax s k < h.sent →
      Completes (.rtxTimerExpiry k q) s (fun t => SessFaulted s t k 2)) ∧
  (∀ (s : State) (k : Nat) (g : DataSeg),
      Canon s →
      (selvGet s k).openSeg = some g →
      Completes (.packHoldExpiry k) s (fun t => t = slotStore (selvSet s k { selvGet s k with openSeg := none, queue := (selvGet s k).queue ++ [g] }) k g ∧
        (selvGet t k).openSeg = none ∧ (selvGet t k).queue = (selvGet s k).queue ++ [g] ∧ (∀ m, m ≠ k → selvGet t m = selvGet s m) ∧
        (∀ a, a < rtxSlot g.slot ∨ rtxSlot g.slot + 64 * segCells g.payload.length ≤ a → hbmByte t a = hbmByte s a) ∧
        OnlyChanges [.events, .counters, .irq, .outbox, .mem, .selv] s t)) ∧
  (∀ (s : State) (k : Nat),
      (selvGet s k).openSeg = none →
      Completes (.packHoldExpiry k) s (fun t => t = s)) ∧
  (∀ (s : State) (k : Nat),
      Canon s →
      0 < (selvGet s k).accepted →
      ctlGoes s k = true →
      Completes (.ackTimerExpiry k) s (fun t => (∃ q, SegmentLeft t k 2 false q (ackPayload (selvGet s k))) ∧ (selvGet t k).accepted = 0 ∧
        (selvGet t k).queue = (selvGet s k).queue ∧ (selvGet t k).held = (selvGet s k).held ∧ (selvGet t k).store = (selvGet s k).store ∧
        (∀ m, m ≠ k → selvGet t m = selvGet s m) ∧ OnlyChanges [.events, .counters, .irq, .outbox, .thm, .selv, .line] s t)) ∧
  (∀ (s : State) (k : Nat),
      Canon s →
      0 < (selvGet s k).accepted →
      ctlGoes s k = false →
      Completes (.ackTimerExpiry k) s (fun t => (selvGet t k).accepted = (selvGet s k).accepted ∧ (selvGet t k).held = (selvGet s k).held ∧ OnlyChanges [.events, .counters, .irq, .outbox, .thm, .selv] s t)) ∧
  (∀ (s : State) (k : Nat),
      (selvGet s k).accepted = 0 →
      Completes (.ackTimerExpiry k) s (fun t => t = s)) ∧
  (∀ (s : State) (k : Nat),
      Canon s →
      (selvGet s k).state = .open →
      (selvGet s k).held ≠ [] →
      Completes (.stallTimeout k) s (fun t => SessFaulted s t k 1)) ∧
  (∀ (s : State) (k : Nat),
      Canon s →
      (selvGet s k).state = .closing →
      Completes (.stallTimeout k) s (fun t => (selvGet t k).state = .closing ∧ sessSegs (selvGet t k) = [] ∧
        (∀ m, m ≠ k → selvGet t m = selvGet s m) ∧ OnlyChanges [.selv] s t)) ∧
  (∀ (s : State) (k : Nat),
      (selvGet s k).state ≠ .closing →
      (selvGet s k).state ≠ .open ∨ (selvGet s k).held = [] →
      Completes (.stallTimeout k) s (fun t => t = s))

/-- A received segment that fails one of the first checks is counted under that check and changes no session. The checks run in order: a segment
that is not well formed is counted in SELV_CNT_RX_BAD; one for a session in no receiving state, from another peer or not configured in
SELV_CNT_RX_NOSESS, an OPEN before the session is ready in SELV_CNT_EARLY; under a latched alarm or with PD19 off in THM_CNT_NOKEY. Each is
counted in SELV_CNT_RX_SEG, and nothing else of the state changes. A command whose segment fails a check has exactly the checks' effect. (R291, R374, R376) -/
def Obligations.SegmentChecks : Prop :=
  (∀ (s : State) (g : RxSegment),
      segWf g = false →
      recvChecks s g = (none, ctrInc (ctrInc s .SELV_CNT_RX_SEG 0) .SELV_CNT_RX_BAD 0)) ∧
  (∀ (s : State) (g : RxSegment),
      segWf g = true →
      g.hdr.typ = 3 →
      recvState (selvGet s g.hdr.dst) = .closed ∨ recvState (selvGet s g.hdr.dst) = .keywait ∨ recvState (selvGet s g.hdr.dst) = .admission →
      recvChecks s g = (none, ctrInc (ctrInc s .SELV_CNT_RX_SEG 0) .SELV_CNT_EARLY 0)) ∧
  (∀ (s : State) (g : RxSegment),
      segWf g = true →
      g.hdr.typ ≠ 3 →
      regBf s .SELV_SESS_PEER g.hdr.dst 11 0 ≠ g.hdr.src →
      recvChecks s g = (none, ctrInc (ctrInc s .SELV_CNT_RX_SEG 0) .SELV_CNT_RX_NOSESS 0)) ∧
  (∀ (s : State) (g : RxSegment),
      segWf g = true →
      (recvState (selvGet s g.hdr.dst) = .opening ∨ recvState (selvGet s g.hdr.dst) = .open ∨ recvState (selvGet s g.hdr.dst) = .closing) →
      regBf s .SELV_SESS_PEER g.hdr.dst 11 0 = g.hdr.src →
      sessValid s g.hdr.dst = true →
      alarmLatched s = true ∨ domOn s 19 = false →
      recvChecks s g = (none, ctrInc (ctrInc s .SELV_CNT_RX_SEG 0) .THM_CNT_NOKEY 0)) ∧
  (∀ (s : State) (g : RxSegment),
      g.hdr.typ = 1 →
      (recvChecks s g).1 = none →
      Completes (.dataSegment g) s (fun t => t = (recvChecks s g).2)) ∧
  (∀ (s : State) (g : RxSegment),
      g.hdr.typ = 2 →
      (recvChecks s g).1 = none →
      Completes (.ackSegment g) s (fun t => t = (recvChecks s g).2)) ∧
  (∀ (s : State) (g : RxSegment),
      g.hdr.typ = 3 →
      (recvChecks s g).1 = none →
      Completes (.openSegment g) s (fun t => t = (recvChecks s g).2)) ∧
  (∀ (s : State) (g : RxSegment),
      g.hdr.typ = 4 →
      (recvChecks s g).1 = none →
      Completes (.openAck g) s (fun t => t = (recvChecks s g).2)) ∧
  (∀ (s : State) (g : RxSegment),
      g.hdr.typ = 5 →
      (recvChecks s g).1 = none →
      Completes (.closeSegment g) s (fun t => t = (recvChecks s g).2))

/-- DATA is held once for delivery in order, ACK frees what it covers, OPEN, OPEN_ACK and CLOSE move the session. Each for a segment that passes
the checks, on the state the checks leave. DATA with a new SEQ within the window joins the receive store of a SPAN session and is accepted;
one held already is counted in SELV_CNT_DUP; one beyond the window is counted and discarded. ACK takes the segments its blocks cover out of
the held ones. OPEN of another KIND faults the session with cause 5; otherwise OPEN_ACK is sent, and counts as sent once it has left, and the session is OPEN
once it has also received one. CLOSE leaves the session CLOSED with nothing held. (R291, R292, R293, R294, R299, R301, R302, R303) -/
def Obligations.SegmentsReceived : Prop :=
  (∀ (s : State) (g : RxSegment) (k : Nat),
      g.hdr.typ = 1 →
      (recvChecks s g).1 = some k →
      sessKind (recvChecks s g).2 k = 0 →
      precedes g.hdr.seq (selvGet (recvChecks s g).2 k).rcvExp = false →
      (selvGet (recvChecks s g).2 k).store.any (fun h => h.seq == g.hdr.seq) = false →
      precedes g.hdr.seq (selvGet (recvChecks s g).2 k).rwndEnd = true →
      Completes (.dataSegment g) s (fun t => (selvGet t k).store = (selvGet (recvChecks s g).2 k).store ++ [⟨g.hdr.seq, g.hdr, g.payload⟩] ∧
        (selvGet t k).rcvExp = expAfter ((selvGet (recvChecks s g).2 k).store ++ [⟨g.hdr.seq, g.hdr, g.payload⟩]) ((selvGet (recvChecks s g).2 k).store.length + 1) (selvGet (recvChecks s g).2 k).rcvExp ∧
        (selvGet t k).rcvNxt = (selvGet (recvChecks s g).2 k).rcvNxt ∧ (selvGet t k).held = (selvGet (recvChecks s g).2 k).held ∧ (selvGet t k).queue = (selvGet (recvChecks s g).2 k).queue ∧
        (∀ m, m ≠ k → selvGet t m = selvGet (recvChecks s g).2 m) ∧ OnlyChanges [.events, .counters, .irq, .outbox, .thm, .selv, .line] s t)) ∧
  (∀ (s : State) (g : RxSegment) (k : Nat),
      g.hdr.typ = 1 →
      (recvChecks s g).1 = some k →
      precedes g.hdr.seq (selvGet (recvChecks s g).2 k).rcvExp = true ∨ (selvGet (recvChecks s g).2 k).store.any (fun h => h.seq == g.hdr.seq) = true →
      Completes (.dataSegment g) s (fun t => t = sendAck (ctrInc (recvChecks s g).2 .SELV_CNT_DUP 0) k)) ∧
  (∀ (s : State) (g : RxSegment) (k : Nat),
      g.hdr.typ = 1 →
      (recvChecks s g).1 = some k →
      precedes g.hdr.seq (selvGet (recvChecks s g).2 k).rcvExp = false →
      (selvGet (recvChecks s g).2 k).store.any (fun h => h.seq == g.hdr.seq) = false →
      precedes g.hdr.seq (selvGet (recvChecks s g).2 k).rwndEnd = false →
      Completes (.dataSegment g) s (fun t => t = ctrInc (recvChecks s g).2 .SELV_CNT_RX_DISCARD 0)) ∧
  (∀ (s : State) (g : RxSegment) (k : Nat),
      Canon s →
      g.hdr.typ = 2 →
      (recvChecks s g).1 = some k →
      (((selvGet (recvChecks s g).2 k).held.filter (fun q => !(ackBlocks g.payload).any (fun b => inBlock b q.seq))).filter (fun q => decide (3 ≤ above (ackBlocks g.payload) q.seq ∧ q.lastUs + regBf (recvChecks s g).2 .SELV_SESS_RTT k 15 0 ≤ s.localUs))) = [] →
      Completes (.ackSegment g) s (fun t => (selvGet t k).held = (selvGet (recvChecks s g).2 k).held.filter (fun q => !(ackBlocks g.payload).any (fun b => inBlock b q.seq)) ∧
        (selvGet t k).queue = (selvGet (recvChecks s g).2 k).queue ∧ (selvGet t k).state = (selvGet (recvChecks s g).2 k).state ∧ (∀ m, m ≠ k → selvGet t m = selvGet (recvChecks s g).2 m) ∧
        OnlyChanges [.events, .counters, .irq, .outbox, .thm, .selv, .line] s t)) ∧
  (∀ (s : State) (g : RxSegment) (k : Nat),
      Canon (recvChecks s g).2 →
      g.hdr.typ = 3 →
      (recvChecks s g).1 = some k →
      g.hdr.kind ≠ sessKind (recvChecks s g).2 k →
      Completes (.openSegment g) s (fun t => SessFaulted (recvChecks s g).2 t k 5)) ∧
  (∀ (s : State) (g : RxSegment) (k : Nat),
      Canon s →
      g.hdr.typ = 3 →
      (recvChecks s g).1 = some k →
      g.hdr.kind = sessKind (recvChecks s g).2 k →
      mayStart (keyForSegment (recvChecks s g).2 k) k = true →
      (selvGet (recvChecks s g).2 k).state = .opening →
      (selvGet (recvChecks s g).2 k).oackRecv = true →
      Completes (.openSegment g) s (fun t => (∃ q, SegmentLeft t k 4 false q []) ∧ (selvGet t k).oackSent = true ∧
        ((selvGet t k).state = .open ∨ (selvGet t k).state = .keyStop ∧ (selvGet t k).prev = .open) ∧
        (∀ m, m ≠ k → selvGet t m = selvGet (recvChecks s g).2 m) ∧ OnlyChanges [.events, .counters, .irq, .outbox, .thm, .selv, .line] s t)) ∧
  (∀ (s : State) (g : RxSegment) (k : Nat),
      Canon s →
      g.hdr.typ = 3 →
      (recvChecks s g).1 = some k →
      g.hdr.kind = sessKind (recvChecks s g).2 k →
      (selvGet (recvChecks s g).2 k).oackRecv = false →
      Completes (.openSegment g) s (fun t => t = sendOpenAck (recvChecks s g).2 k)) ∧
  (∀ (s : State) (g : RxSegment) (k : Nat),
      Canon s →
      g.hdr.typ = 4 →
      (recvChecks s g).1 = some k →
      (selvGet (recvChecks s g).2 k).state = .opening →
      (selvGet (recvChecks s g).2 k).oackSent = true →
      Completes (.openAck g) s (fun t => selvGet t k = { selvGet (recvChecks s g).2 k with oackRecv := true, state := .open } ∧ (∀ m, m ≠ k → selvGet t m = selvGet (recvChecks s g).2 m) ∧
        Happened (recvChecks s g).2 t .SELV_SESS_EVENT k 1 ∧ OnlyChanges [.events, .irq, .outbox, .selv] (recvChecks s g).2 t)) ∧
  (∀ (s : State) (g : RxSegment) (k : Nat),
      Canon s →
      g.hdr.typ = 5 →
      (recvChecks s g).1 = some k →
      Completes (.closeSegment g) s (fun t => (selvGet t k).state = .closed ∧ sessSegs (selvGet t k) = [] ∧ (selvGet t k).store = [] ∧ k ∉ t.selv.admission ∧
        (mayStart (keyForSegment (recvChecks s g).2 k) k = true → ∃ q hdr key salt, .segment k hdr [] key salt ∈ t.outbox ∧ hdr.typ = 5 ∧ hdr.seq = q) ∧
        (∀ m, m ≠ k → selvGet t m = selvGet (recvChecks s g).2 m) ∧ OnlyChanges [.events, .counters, .irq, .outbox, .thm, .selv, .line] s t))

/-- Sessions open under a new generation, are admitted in order, repeat OPEN, drain, and close after three CLOSEs. SESS_OPEN of a configured
session in CLOSED or FAULT restarts SEQ, raises GEN except at the first open, and leaves it in KEYWAIT, or in ADMIT behind those waiting
where its active key is VALID; in any other state nothing changes. SESSION_ADMIT takes the first 256 out of the admission queue. OPEN_REPEAT
sends OPEN again in OPENING. SESS_CLOSE of an open session leaves it CLOSING with three CLOSEs to send. CLOSE_REPEAT sends CLOSE once
nothing is unacknowledged, and the last one leaves it CLOSED. SELV_SESS_CFG_WRITE is refused whole when it changes KIND, PANEL or LGRP of a
session that is not CLOSED. (R298, R299, R300, R303, R309, R311) -/
def Obligations.SessionLife : Prop :=
  (∀ (s : State) (req : Requester) (k : Nat),
      Canon s →
      Arrives s req .SELV_SESS_CTRL k = true →
      sessValid s k = true →
      (selvGet s k).state = .closed ∨ (selvGet s k).state = .fault →
      (keySlot s (activeSlot s k)).state ≠ .valid →
      Completes (.sessOpen req k) s (fun t => selvGet t k = seqRestart { selvGet s k with gen := if (selvGet s k).started then (selvGet s k).gen + 1 else (selvGet s k).gen, started := true, prev := .keywait, oackSent := false, oackRecv := false, closesLeft := 0, fcause := 0, state := .keywait } ∧
        (∀ m, m ≠ k → selvGet t m = selvGet s m) ∧ t.selv.admission = s.selv.admission ∧ OnlyChanges [.selv] s t)) ∧
  (∀ (s : State) (req : Requester) (k : Nat),
      Canon s →
      Arrives s req .SELV_SESS_CTRL k = true →
      sessValid s k = true →
      (selvGet s k).state = .closed ∨ (selvGet s k).state = .fault →
      (keySlot s (activeSlot s k)).state = .valid →
      Completes (.sessOpen req k) s (fun t => selvGet t k = seqRestart { selvGet s k with gen := if (selvGet s k).started then (selvGet s k).gen + 1 else (selvGet s k).gen, started := true, prev := .keywait, oackSent := false, oackRecv := false, closesLeft := 0, fcause := 0, state := .admission } ∧
        (∀ m, m ≠ k → selvGet t m = selvGet s m) ∧ t.selv.admission = s.selv.admission ++ [k] ∧ OnlyChanges [.selv] s t)) ∧
  (∀ (s : State) (req : Requester) (k : Nat),
      Arrives s req .SELV_SESS_CTRL k = true →
      sessValid s k = false ∨ ((selvGet s k).state ≠ .closed ∧ (selvGet s k).state ≠ .fault) →
      Completes (.sessOpen req k) s (fun t => t = s)) ∧
  (∀ (s : State),
      Canon s →
      Completes .sessionAdmit s (fun t => t.selv.admission = s.selv.admission.drop 256 ∧ (∀ k, k ∉ s.selv.admission.take 256 → selvGet t k = selvGet s k) ∧
        (∀ k, k ∈ s.selv.admission.take 256 → (selvGet s k).state = .admission → (selvGet t k).state = .opening ∨ (selvGet t k).state = .keyStop) ∧
        OnlyChanges [.events, .counters, .irq, .outbox, .thm, .selv, .line] s t)) ∧
  (∀ (s : State) (k : Nat),
      (selvGet s k).state = .opening →
      mayStart (keyForSegment s k) k = true →
      Completes (.openRepeat k) s (fun t => SegmentLeft t k 3 false 0 [] ∧ (∀ m, m ≠ k → selvGet t m = selvGet s m) ∧
        OnlyChanges [.events, .counters, .irq, .outbox, .thm, .selv, .line] s t)) ∧
  (∀ (s : State) (k : Nat),
      (selvGet s k).state ≠ .opening →
      Completes (.openRepeat k) s (fun t => t = s)) ∧
  (∀ (s : State) (req : Requester) (k : Nat),
      Canon s →
      Arrives s req .SELV_SESS_CTRL k = true →
      (selvGet s k).state ≠ .closed →
      (selvGet s k).state ≠ .fault →
      (selvGet s k).state ≠ .closing →
      Completes (.sessClose req k) s (fun t => selvGet t k = { selvGet s k with state := .closing, prev := .closing, closesLeft := 3 } ∧
        (∀ m, m ≠ k → selvGet t m = selvGet s m) ∧ t.selv.admission = s.selv.admission.filter (· != k) ∧ OnlyChanges [.selv] s t)) ∧
  (∀ (s : State) (k : Nat),
      (selvGet s k).state ≠ .closing ∨ (selvGet s k).held ≠ [] →
      Completes (.closeRepeat k) s (fun t => t = s)) ∧
  (∀ (s : State) (k : Nat),
      Canon s →
      (selvGet s k).state = .closing →
      (selvGet s k).held = [] →
      1 < (selvGet s k).closesLeft →
      mayStart (keyForSegment (sessDiscard s k false) k) k = true →
      Completes (.closeRepeat k) s (fun t => (∃ q, SegmentLeft t k 5 false q []) ∧ (selvGet t k).closesLeft = (selvGet s k).closesLeft - 1 ∧ sessSegs (selvGet t k) = [] ∧
        (∀ m, m ≠ k → selvGet t m = selvGet s m) ∧ OnlyChanges [.events, .counters, .irq, .outbox, .thm, .selv, .line] s t)) ∧
  (∀ (s : State) (k : Nat),
      Canon s →
      (selvGet s k).state = .closing →
      (selvGet s k).held = [] →
      (selvGet s k).closesLeft ≤ 1 →
      Completes (.closeRepeat k) s (fun t => (selvGet t k).state = .closed ∧ sessSegs (selvGet t k) = [] ∧ (selvGet t k).store = [] ∧ Happened s t .SELV_SESS_EVENT k 2 ∧
        (∀ m, m ≠ k → selvGet t m = selvGet s m) ∧ OnlyChanges [.events, .counters, .irq, .outbox, .thm, .selv, .line] s t)) ∧
  (∀ (s : State) (req : Requester) (k : Nat) (v : Word),
      Arrives s req .SELV_SESS_CFG k = true →
      (selvGet s k).state ≠ .closed →
      bf (acceptWord .SELV_SESS_CFG (rwsBase s .SELV_SESS_CFG k) v) 30 25 ≠ bf (regGet s .SELV_SESS_CFG k) 30 25 ∨ bf (acceptWord .SELV_SESS_CFG (rwsBase s .SELV_SESS_CFG k) v) 21 16 ≠ bf (regGet s .SELV_SESS_CFG k) 21 16 →
      Completes (.selvSessCfgWrite req k v) s (fun t => t = s)) ∧
  (∀ (s : State) (req : Requester) (k : Nat) (v : Word),
      Canon s →
      Arrives s req .SELV_SESS_CFG k = true →
      (selvGet s k).state = .closed →
      Completes (.selvSessCfgWrite req k v) s (fun t => regGet t .SELV_SESS_CFG k = (acceptWord .SELV_SESS_CFG (rwsBase s .SELV_SESS_CFG k) v) ∧ (∀ r i, r ≠ .SELV_SESS_CFG ∨ i ≠ k → regGet t r i = regGet s r i) ∧ heldGet t .SELV_SESS_CFG k = none ∧
        (∀ r i, r ≠ .SELV_SESS_CFG ∨ i ≠ k → heldGet t r i = heldGet s r i) ∧ OnlyChanges [.regs, .held] s t)) ∧
  (∀ (s : State) (req : Requester) (k : Nat) (v : Word),
      Canon s →
      Arrives s req .SELV_SESS_CFG k = true →
      (selvGet s k).state ≠ .closed →
      bf (acceptWord .SELV_SESS_CFG (rwsBase s .SELV_SESS_CFG k) v) 30 25 = bf (regGet s .SELV_SESS_CFG k) 30 25 →
      bf (acceptWord .SELV_SESS_CFG (rwsBase s .SELV_SESS_CFG k) v) 21 16 = bf (regGet s .SELV_SESS_CFG k) 21 16 →
      Completes (.selvSessCfgWrite req k v) s (fun t => heldGet t .SELV_SESS_CFG k = some (acceptWord .SELV_SESS_CFG (rwsBase s .SELV_SESS_CFG k) v) ∧
        (∀ r i, r ≠ .SELV_SESS_CFG ∨ i ≠ k → heldGet t r i = heldGet s r i) ∧ OnlyChanges [.held] s t))

/-- The twin copies session records, the standby adopts a checked page, and a takeover opens them at the next generation. TWIN_COPY_START on the
active abandons an unacknowledged copy with TWIN_FAIL and sends the records of every configured session and then COMMIT under the next COPY_SEQ,
as datagrams of class 5 that join the queues of the switch core where the port to the twin takes them (which port is the model's open value,
log 85). RECORDS on the standby replace the records of the same sessions in the incoming page. TWIN_COMMIT with the right count and CRC makes
that page the complete one and answers COMMIT_ACK likewise; any other sets TWIN_FAIL. COMMIT_ACK of the copy sent moves every reservation. TAKEOVER, and
TWIN_AUTO_TAKEOVER with AUTO set, make a standby with a page the active; without a page they are refused with TWIN_FAIL. (R304, R305, R306) -/
def Obligations.TwinStandby : Prop :=
  (∀ (s : State),
      twinActive s = true →
      Completes .twinCopyStart s (fun t => t.selv.twin = { s.selv.twin with copySeq := s.selv.twin.copySeq + 1, busy := true, resv := ((List.range 4096).filter (sessValid s)).map (fun k => (k, (twinRecord s k).txcResv)) } ∧
        t.selv.sess = s.selv.sess ∧ (s.selv.twin.busy = true → Happened s t .SELV_EVENT 0 2) ∧
        (destOk s (portPanel s (Config.route (twinIp s) % 256)) (Config.route (twinIp s) % 256) = true →
          ∃ l f, t.fab.frames = s.fab.frames ++ l ++ [f] ∧ f.cls = 5 ∧ f.own = some (.twin (twinIp s) (regBf s .SELV_TWIN_CFG 0 15 0)
            (twinBody 2 ((List.range 4096).filter (sessValid s)).length (s.selv.twin.copySeq + 1)
              (crc32c ((((List.range 4096).filter (sessValid s)).map (twinRecord s)).flatMap twinBytes)) []))) ∧
        OnlyChanges [.events, .counters, .irq, .outbox, .selv, .fab] s t)) ∧
  (∀ (s : State) (q : Word) (recs : List TwinRec),
      twinStandby s = true →
      Completes (.twinRecords q recs) s (fun t => t.selv.twin = { s.selv.twin with incomingSeq := q, busy := true, incoming := (if s.selv.twin.busy ∧ s.selv.twin.incomingSeq = q then s.selv.twin.incoming else []).filter (fun r => !recs.any (fun x => x.sess == r.sess)) ++ recs } ∧
        t.selv.sess = s.selv.sess ∧ t.selv.admission = s.selv.admission ∧ t.selv.slots = s.selv.slots ∧ OnlyChanges [.selv] s t)) ∧
  (∀ (s : State) (q : Word) (n : Nat) (crc : Word) (page : List TwinRec),
      twinStandby s = true →
      page = sortBy (fun r => r.sess) (if s.selv.twin.busy ∧ s.selv.twin.incomingSeq = q then s.selv.twin.incoming else []) →
      page.length = n →
      crc32c (page.flatMap twinBytes) = crc →
      Completes (.twinCommit q n crc) s (fun t => t.selv.twin = { s.selv.twin with incoming := [], busy := false, page := some page, pageSeq := q } ∧
        t.selv.sess = s.selv.sess ∧ (destOk s (portPanel s (Config.route (twinIp s) % 256)) (Config.route (twinIp s) % 256) = true →
          ∃ f, t.fab.frames = s.fab.frames ++ [f] ∧ f.cls = 5 ∧ f.own = some (.twin (twinIp s) (regBf s .SELV_TWIN_CFG 0 15 0) (twinBody 3 0 q 0 []))) ∧
        OnlyChanges [.counters, .selv, .fab] s t)) ∧
  (∀ (s : State) (q : Word) (n : Nat) (crc : Word),
      twinStandby s = true →
      (let page := sortBy (fun r => r.sess) (if s.selv.twin.busy ∧ s.selv.twin.incomingSeq = q then s.selv.twin.incoming else []); ¬ (page.length = n ∧ crc32c (page.flatMap twinBytes) = crc)) →
      Completes (.twinCommit q n crc) s (fun t => t.selv.twin = { s.selv.twin with incoming := [], busy := false } ∧ t.selv.sess = s.selv.sess ∧
        Happened s t .SELV_EVENT 0 2 ∧ OnlyChanges [.events, .irq, .outbox, .selv] s t)) ∧
  (∀ (s : State) (q : Word),
      Canon s →
      twinActive s = true →
      s.selv.twin.busy = true →
      s.selv.twin.copySeq = q →
      Completes (.commitAck q) s (fun t => t.selv.twin = { s.selv.twin with busy := false, acked := q, resv := [], alone := false } ∧
        (∀ k, k ∉ s.selv.twin.resv.map Prod.fst → selvGet t k = selvGet s k) ∧
        (∀ k, ∃ r, selvGet t k = { selvGet s k with resv := r }) ∧ Happened s t .SELV_EVENT 0 3 ∧ OnlyChanges [.events, .irq, .outbox, .selv] s t)) ∧
  (∀ (s : State) (req : Requester) (page : List TwinRec),
      Canon s →
      Arrives s req .SELV_TWIN_CMD 0 = true →
      twinStandby s = true →
      s.selv.twin.page = some page →
      Completes (.takeover req) s (fun t => twinStandby t = false ∧ Happened s t .SELV_EVENT 0 4 ∧ t.selv.twin.page = some page ∧ t.selv.twin.alone = true ∧
        (∀ k, k ∉ page.map (fun r => r.sess) → selvGet t k = selvGet s k ∧ regGet t .SELV_SESS_CFG k = regGet s .SELV_SESS_CFG k) ∧
        OnlyChanges [.regs, .events, .counters, .irq, .outbox, .thm, .selv] s t)) ∧
  (∀ (s : State) (req : Requester),
      Arrives s req .SELV_TWIN_CMD 0 = true →
      twinStandby s = false ∨ s.selv.twin.page = none →
      Completes (.takeover req) s (fun t => Happened s t .SELV_EVENT 0 2 ∧ OnlyChanges [.events, .irq, .outbox] s t)) ∧
  (∀ (s : State) (page : List TwinRec),
      Canon s →
      twinStandby s = true →
      regBit s .SELV_TWIN_CFG 0 29 = true →
      s.selv.twin.page = some page →
      Completes .twinAutoTakeover s (fun t => twinStandby t = false ∧ Happened s t .SELV_EVENT 0 4 ∧ t.selv.twin.page = some page ∧ t.selv.twin.alone = true ∧
        (∀ k, k ∉ page.map (fun r => r.sess) → selvGet t k = selvGet s k ∧ regGet t .SELV_SESS_CFG k = regGet s .SELV_SESS_CFG k) ∧
        OnlyChanges [.regs, .events, .counters, .irq, .outbox, .thm, .selv] s t)) ∧
  (∀ (s : State),
      twinStandby s = false ∨ regBit s .SELV_TWIN_CFG 0 29 = false →
      Completes .twinAutoTakeover s (fun t => t = s))

/-- A connection memory check starts once, ends in SB_VALID or an error, and a clear empties both standby pages. CM_COMMIT starts a check, or
with a check running or a swap waiting records ERR 0x06 and LINE_GRP_EVENT.CM_REFUSED. CM_CHECK_DONE records the lowest error broken: with
none SB_VALID is set and both sides wait to swap; otherwise SB_VALID is clear and CM_REFUSED is set. CM_CLEAR zeroes the standby pages of
that group alone, clears SB_VALID and abandons a swap that waits. A word written to a standby page after COMMIT takes back SB_VALID and the swap
with it (the model's reading, log 84). WTR_EXPIRY with REVERT set and WORK free of defects returns the time
source to WORK. The active pages, the channels and the streams stay. (R322, R323, R331, R334) -/
def Obligations.ConnectionMemory : Prop :=
  (∀ (s : State) (req : Requester) (g : Nat),
      Canon s →
      Arrives s req .LINE_GRP_CM_CTRL g = true →
      (lineGrp s g).checking = false →
      (lineGrp s g).txWait = false →
      (lineGrp s g).rxWait = false →
      Completes (.cmCommit req g) s (fun t => lineGrp t g = { lineGrp s g with checking := true } ∧ (∀ m, m ≠ g → lineGrp t m = lineGrp s m) ∧ t.line.chs = s.line.chs ∧ t.line.tx = s.line.tx ∧ t.line.rx = s.line.rx ∧ OnlyChanges [.line] s t)) ∧
  (∀ (s : State) (req : Requester) (g : Nat),
      Canon s →
      Arrives s req .LINE_GRP_CM_CTRL g = true →
      (lineGrp s g).checking = true ∨ (lineGrp s g).txWait = true ∨ (lineGrp s g).rxWait = true →
      Completes (.cmCommit req g) s (fun t => lineGrp t g = { lineGrp s g with err := 6 } ∧ (∀ m, m ≠ g → lineGrp t m = lineGrp s m) ∧ t.line.chs = s.line.chs ∧ t.line.tx = s.line.tx ∧ t.line.rx = s.line.rx ∧ Happened s t .LINE_GRP_EVENT g 4 ∧
        OnlyChanges [.events, .irq, .outbox, .line] s t)) ∧
  (∀ (s : State) (g : Nat),
      Canon s →
      (lineGrp s g).checking = true →
      cmErr s g = 0 →
      Completes (.cmCheckDone g) s (fun t => lineGrp t g = { lineGrp s g with checking := false, err := 0, sbValid := true, txWait := true, rxWait := true } ∧ (∀ m, m ≠ g → lineGrp t m = lineGrp s m) ∧ t.line.chs = s.line.chs ∧ t.line.tx = s.line.tx ∧ t.line.rx = s.line.rx ∧ OnlyChanges [.line] s t)) ∧
  (∀ (s : State) (g : Nat),
      Canon s →
      (lineGrp s g).checking = true →
      cmErr s g ≠ 0 →
      Completes (.cmCheckDone g) s (fun t => lineGrp t g = { lineGrp s g with checking := false, err := BitVec.ofNat 8 (cmErr s g), sbValid := false } ∧ (∀ m, m ≠ g → lineGrp t m = lineGrp s m) ∧ t.line.chs = s.line.chs ∧ t.line.tx = s.line.tx ∧ t.line.rx = s.line.rx ∧
        Happened s t .LINE_GRP_EVENT g 4 ∧ OnlyChanges [.events, .irq, .outbox, .line] s t)) ∧
  (∀ (s : State) (g : Nat),
      (lineGrp s g).checking = false →
      Completes (.cmCheckDone g) s (fun t => t = s)) ∧
  (∀ (s : State) (req : Requester) (g : Nat),
      Canon s →
      Arrives s req .LINE_GRP_CM_CTRL g = true →
      Completes (.cmClear req g) s (fun t => lineGrp t g = { lineGrp s g with sbValid := false, txWait := false, rxWait := false, nextGen := 0 } ∧ (∀ m, m ≠ g → lineGrp t m = lineGrp s m) ∧ t.line.chs = s.line.chs ∧ t.line.tx = s.line.tx ∧ t.line.rx = s.line.rx ∧
        (∀ i, i / 640 = g → regGet t .LINE_CM_TX_SB i = 0 ∧ regGet t .LINE_CM_RX_SB i = 0) ∧
        (∀ r i, (r ≠ .LINE_CM_TX_SB ∧ r ≠ .LINE_CM_RX_SB) ∨ i / 640 ≠ g → regGet t r i = regGet s r i) ∧ OnlyChanges [.regs, .line] s t)) ∧
  (∀ (s : State) (req : Requester) (addr : Nat) (v : Word) (i : Nat),
      Canon s →
      WritesAt s req addr .LINE_CM_TX_SB i = true →
      (lineGrp s (i / 640)).sbValid = true →
      Completes (.registerWrite req addr v) s (fun t => regGet t .LINE_CM_TX_SB i = acceptWord .LINE_CM_TX_SB (regGet s .LINE_CM_TX_SB i) v ∧
        lineGrp t (i / 640) = { lineGrp s (i / 640) with sbValid := false, txWait := false, rxWait := false, nextGen := 0 } ∧
        (∀ m, m ≠ i / 640 → lineGrp t m = lineGrp s m) ∧ OnlyChanges [.regs, .line] s t)) ∧
  (∀ (s : State) (g : Nat),
      Canon s →
      regBit s .LINE_GRP_PROT g 30 = true →
      (lineGrp s g).sel = 2 →
      (lineCh s (workCh s g)).defects = 0 →
      Completes (.wtrExpiry g) s (fun t => lineGrp t g = { lineGrp s g with sel := 1, wtrUs := none } ∧ (∀ m, m ≠ g → lineGrp t m = lineGrp s m) ∧ t.line.chs = s.line.chs ∧ t.line.tx = s.line.tx ∧ t.line.rx = s.line.rx ∧ Happened s t .LINE_GRP_EVENT g 2 ∧
        OnlyChanges [.events, .irq, .outbox, .line] s t)) ∧
  (∀ (s : State) (g : Nat),
      (lineGrp s g).sel ≠ 2 ∨ regBit s .LINE_GRP_PROT g 30 = false ∨ (lineCh s (workCh s g)).defects ≠ 0 →
      Completes (.wtrExpiry g) s (fun t => t = s))

/-- Line channels join and leave groups by their rules, and frames are sent and received with their overhead. LINE_CH_CFG_WRITE that breaks R313
changes nothing, and otherwise takes effect at once on a channel that is not enabled and is held on one that is. LINE_GRP_CFG_WRITE that
changes MODE or GID with channels enabled changes nothing. ADD leaves the member in ADD, REMOVE in LEAVE. LINE_FRAME_TRANSMIT advances MFAS
and sends a frame with it on every member that carries light, its overhead as bytes and scrambled. LINE_FRAME_RECEIVE counts FEC; five frames
without FAS declare LOF, and each stream that a slot-mapped member carried hunts, while the streams of other members go on; a good frame of a
channel without defects gives its trace message, TX_ACTIVE and CM_RXRDY. (R313, R314, R315, R326, R327, R328, R334, R336) -/
def Obligations.LineFrames : Prop :=
  (∀ (s : State) (req : Requester) (k : Nat) (v : Word),
      Arrives s req .LINE_CH_CFG k = true →
      lineChBad s k (acceptWord .LINE_CH_CFG (rwsBase s .LINE_CH_CFG k) v) = true →
      Completes (.lineChCfgWrite req k v) s (fun t => t = s)) ∧
  (∀ (s : State) (req : Requester) (k : Nat) (v : Word),
      Canon s →
      Arrives s req .LINE_CH_CFG k = true →
      lineChBad s k (acceptWord .LINE_CH_CFG (rwsBase s .LINE_CH_CFG k) v) = false →
      chEn s k = true →
      Completes (.lineChCfgWrite req k v) s (fun t => heldGet t .LINE_CH_CFG k = some (acceptWord .LINE_CH_CFG (rwsBase s .LINE_CH_CFG k) v) ∧ (∀ r i, r ≠ .LINE_CH_CFG ∨ i ≠ k → heldGet t r i = heldGet s r i) ∧
        OnlyChanges [.held] s t)) ∧
  (∀ (s : State) (req : Requester) (k : Nat) (v : Word),
      Canon s →
      Arrives s req .LINE_CH_CFG k = true →
      lineChBad s k (acceptWord .LINE_CH_CFG (rwsBase s .LINE_CH_CFG k) v) = false →
      chEn s k = false →
      (optCh s k).los = false →
      Completes (.lineChCfgWrite req k v) s (fun t => regGet t .LINE_CH_CFG k = (acceptWord .LINE_CH_CFG (rwsBase s .LINE_CH_CFG k) v) ∧ (∀ r i, r ≠ .LINE_CH_CFG ∨ i ≠ k → regGet t r i = regGet s r i) ∧ heldGet t .LINE_CH_CFG k = none ∧
        (∀ r i, r ≠ .LINE_CH_CFG ∨ i ≠ k → heldGet t r i = heldGet s r i) ∧ OnlyChanges [.regs, .held] s t)) ∧
  (∀ (s : State) (req : Requester) (g : Nat) (v : Word),
      Arrives s req .LINE_GRP_CFG g = true →
      members s g ≠ [] →
      bf (regGet s .LINE_GRP_CFG g) 30 30 ≠ bf (acceptWord .LINE_GRP_CFG (rwsBase s .LINE_GRP_CFG g) v) 30 30 ∨ bf (regGet s .LINE_GRP_CFG g) 15 0 ≠ bf (acceptWord .LINE_GRP_CFG (rwsBase s .LINE_GRP_CFG g) v) 15 0 →
      Completes (.lineGrpCfgWrite req g v) s (fun t => t = s)) ∧
  (∀ (s : State) (req : Requester) (g : Nat) (v : Word),
      Canon s →
      Arrives s req .LINE_GRP_CFG g = true →
      members s g = [] →
      Completes (.lineGrpCfgWrite req g v) s (fun t => regGet t .LINE_GRP_CFG g = (acceptWord .LINE_GRP_CFG (rwsBase s .LINE_GRP_CFG g) v) ∧ (∀ r i, r ≠ .LINE_GRP_CFG ∨ i ≠ g → regGet t r i = regGet s r i) ∧ heldGet t .LINE_GRP_CFG g = none ∧
        (∀ r i, r ≠ .LINE_GRP_CFG ∨ i ≠ g → heldGet t r i = heldGet s r i) ∧ OnlyChanges [.regs, .held] s t)) ∧
  (∀ (s : State) (req : Requester) (k : Nat),
      Canon s →
      Arrives s req .LINE_CH_CMD k = true →
      chEn s k = true →
      (lineCh s k).mstate ≠ 2 →
      Completes (.memberAdd req k) s (fun t => lineCh t k = { lineCh s k with mstate := 1 } ∧ (∀ m, m ≠ k → lineCh t m = lineCh s m) ∧ t.line.grps = s.line.grps ∧ t.line.tx = s.line.tx ∧ t.line.rx = s.line.rx ∧ OnlyChanges [.line] s t)) ∧
  (∀ (s : State) (req : Requester) (k : Nat),
      Canon s →
      Arrives s req .LINE_CH_CMD k = true →
      chEn s k = true →
      Completes (.memberRemove req k) s (fun t => lineCh t k = { lineCh s k with mstate := 3 } ∧ (∀ m, m ≠ k → lineCh t m = lineCh s m) ∧ t.line.grps = s.line.grps ∧ t.line.tx = s.line.tx ∧ t.line.rx = s.line.rx ∧ OnlyChanges [.line] s t)) ∧
  (∀ (s : State) (req : Requester) (k : Nat),
      Arrives s req .LINE_CH_CMD k = true →
      chEn s k = false →
      Completes (.memberAdd req k) s (fun t => t = s) ∧ Completes (.memberRemove req k) s (fun t => t = s)) ∧
  (∀ (s : State) (g phase : Nat),
      Canon s →
      domOn s 18 = true →
      regBit s .LINE_GRP_CFG g 31 = true →
      Completes (.lineFrameTransmit g phase) s (fun t => (lineGrp t g).mfas = ((lineGrp s g).mfas + 1) % 256 ∧
        (∀ k, k ∈ members (nextMfas s g) g → carriesLight (nextMfas s g) k = true →
          ∃ oh, .lineFrame k (lineScramble (ohBytes oh)) ∈ t.outbox ∧ oh.mfas = ((lineGrp s g).mfas + 1) % 256 ∧ oh.mid = chMid (nextMfas s g) k) ∧
        OnlyChanges [.regs, .held, .events, .counters, .irq, .outbox, .line, .opt] s t)) ∧
  (∀ (s : State) (k : Nat) (f : RxLineFrame),
      Canon s →
      chEn s k = true →
      k < 64 →
      domOn s 18 = true →
      domOn s (dieDom (k / 16)) = true →
      f.fasOk = true →
      (lineCh (alignCount (frameCounts (ctrAdd (ctrAdd s .LINE_CH_CNT_FEC_CORR k f.fecCorr) .LINE_CH_CNT_FEC_UNCORR k f.fecUncorr) k f) k) k).defects = 0 →
      Completes (.lineFrameReceive k f) s (fun t => (lineCh t k).tti = f.oh.tti ∧ (lineGrp t (chGroup s k)).rxActive = f.oh.txActive ∧
        (lineGrp t (chGroup s k)).farReady = f.oh.cmRxRdy ∧ (lineCh t k).rdi = f.oh.rdi.getLsbD (chMid s k) ∧
        OnlyChanges [.events, .counters, .irq, .outbox, .mem, .time, .line] s t)) ∧
  (∀ (s : State) (k : Nat) (f : RxLineFrame),
      Canon s →
      chEn s k = true →
      k < 64 →
      domOn s 18 = true →
      domOn s (dieDom (k / 16)) = true →
      f.fasOk = false →
      4 ≤ (lineCh s k).fasBad →
      Completes (.lineFrameReceive k f) s (fun t => (lineCh t k).defects.getLsbD 1 = true ∧ t.line.tx = s.line.tx ∧
        (grpConcat s (chGroup s k) = true ∨ (lineCh s k).inStream = false → t.line.rx = s.line.rx) ∧
        (grpConcat s (chGroup s k) = false → (lineCh s k).inStream = true → ∀ i ∈ rxSessions s (chGroup s k) (chMid s k), (rxStream t i).hunt = true) ∧
        (∀ i, i ∉ rxSessions s (chGroup s k) (chMid s k) → rxStream t i = rxStream s i) ∧
        ctrGet t .LINE_CH_CNT_FEC_CORR k = ctrGet s .LINE_CH_CNT_FEC_CORR k + BitVec.ofNat 64 f.fecCorr ∧
        OnlyChanges [.events, .counters, .irq, .outbox, .line] s t)) ∧
  (∀ (s : State) (k : Nat) (f : RxLineFrame),
      chEn s k = false →
      Completes (.lineFrameReceive k f) s (fun t => t = s))

/-- Fitting of a line die goes through comb, sweep and lock, or fails, and a new band starts it cold. OPT_BAND_WRITE is refused with OPT_EVENT
bit 5 while a channel's EN is set or the band is out of range (that the latter sets the bit is the model's reading, log 80); with every
channel dark it is in effect and a cold fitting starts. REFIT starts a cold fitting, or is refused. A fitting that starts leaves the die in
COMB and its channels dark, unlocked and unfitted. FIT_COMB_LOCK goes on to the sweep, or warm to the verification. FIT_COMB_TIMEOUT fails
the die. FIT_SWEEP_DONE takes the rotations of R345. FIT_DONE leaves DONE with the retention store written; a warm one with a lost ring
starts a cold fitting. RX_LOCK locks the receive rings of a fitted channel. (R338, R339, R345, R346, R347, R348) -/
def Obligations.OpticalFitting : Prop :=
  (∀ (s : State) (req : Requester) (d : Nat) (v : Word),
      Arrives s req .OPT_BAND d = true →
      dieUnlit s d = false ∨ 768 < bf v 9 0 →
      Completes (.optBandWrite req d v) s (fun t => Happened s t .OPT_EVENT d 5 ∧ OnlyChanges [.events, .irq, .outbox] s t)) ∧
  (∀ (s : State) (req : Requester) (d : Nat) (v : Word),
      Canon s →
      Arrives s req .OPT_BAND d = true →
      dieUnlit s d = true →
      bf v 9 0 ≤ 768 →
      (dieChs d).all (fun k => (optCh s k).light == .dark) = true →
      Completes (.optBandWrite req d v) s (fun t => regGet t .OPT_BAND d = (acceptWord .OPT_BAND (rwsBase s .OPT_BAND d) v) ∧ (∀ r i, r ≠ .OPT_BAND ∨ i ≠ d → regGet t r i = regGet s r i) ∧ heldGet t .OPT_BAND d = none ∧
        optDie t d = { optDie s d with fit := .comb, warmRun := false, combLock := false } ∧ (∀ e, e ≠ d → optDie t e = optDie s e) ∧
        (∀ k, k / 16 = d → (optCh t k).light = .dark ∧ (optCh t k).txLock = false ∧ (optCh t k).rxLock = false ∧ (optCh t k).fitted = false ∧ (optCh t k).los = (optCh s k).los) ∧
        (∀ k, k / 16 ≠ d → optCh t k = optCh s k) ∧ OnlyChanges [.regs, .held, .opt] s t)) ∧
  (∀ (s : State) (req : Requester) (d : Nat) (v : Word),
      Canon s →
      Arrives s req .OPT_BAND d = true →
      dieUnlit s d = true →
      bf v 9 0 ≤ 768 →
      (dieChs d).all (fun k => (optCh s k).light == .dark) = false →
      Completes (.optBandWrite req d v) s (fun t => heldGet t .OPT_BAND d = some (acceptWord .OPT_BAND (rwsBase s .OPT_BAND d) v) ∧ (∀ r i, r ≠ .OPT_BAND ∨ i ≠ d → heldGet t r i = heldGet s r i) ∧ OnlyChanges [.held] s t)) ∧
  (∀ (s : State) (req : Requester) (d : Nat),
      Canon s →
      Arrives s req .OPT_FIT_CMD d = true →
      dieUnlit s d = true →
      Completes (.refit req d) s (fun t => optDie t d = { optDie s d with fit := .comb, warmRun := false, combLock := false } ∧ (∀ e, e ≠ d → optDie t e = optDie s e) ∧
        (∀ k, k / 16 = d → (optCh t k).light = .dark ∧ (optCh t k).txLock = false ∧ (optCh t k).rxLock = false ∧ (optCh t k).fitted = false ∧ (optCh t k).los = (optCh s k).los) ∧
        (∀ k, k / 16 ≠ d → optCh t k = optCh s k) ∧ OnlyChanges [.opt] s t)) ∧
  (∀ (s : State) (req : Requester) (d : Nat),
      Arrives s req .OPT_FIT_CMD d = true →
      dieUnlit s d = false →
      Completes (.refit req d) s (fun t => Happened s t .OPT_EVENT d 5 ∧ OnlyChanges [.events, .irq, .outbox] s t)) ∧
  (∀ (s : State) (d p : Nat),
      Canon s →
      (optDie s d).fit = .comb →
      dieUp s d = true →
      Completes (.fitCombLock d p) s (fun t => optDie t d = { optDie s d with fit := if (optDie s d).warmRun then .lock else .sweep, combLock := true, comb := if (optDie s d).warmRun then (optDie s d).comb else p } ∧ (∀ e, e ≠ d → optDie t e = optDie s e) ∧ t.opt.chs = s.opt.chs ∧ t.opt.need = s.opt.need ∧ t.opt.forced = s.opt.forced ∧ OnlyChanges [.opt] s t)) ∧
  (∀ (s : State) (d : Nat),
      Canon s →
      (optDie s d).fit = .comb →
      dieUp s d = true →
      Completes (.fitCombTimeout d) s (fun t => optDie t d = { optDie s d with fit := .fail } ∧ (∀ e, e ≠ d → optDie t e = optDie s e) ∧ t.opt.chs = s.opt.chs ∧ t.opt.need = s.opt.need ∧ t.opt.forced = s.opt.forced ∧ Happened s t .OPT_EVENT d 1 ∧ OnlyChanges [.events, .irq, .outbox, .opt] s t)) ∧
  (∀ (s : State) (d p : Nat),
      (optDie s d).fit ≠ .comb →
      Completes (.fitCombLock d p) s (fun t => t = s) ∧ Completes (.fitCombTimeout d) s (fun t => t = s)) ∧
  (∀ (s : State) (d : Nat) (w : List (List (Option Nat))),
      Canon s →
      (optDie s d).fit = .sweep →
      dieUp s d = true →
      Completes (.fitSweepDone d w) s (fun t => (optDie t d).fit = .lock ∧ (optDie t d).rots = [assign (w.take 16), assign ((w.drop 16).take 16), assign ((w.drop 32).take 16)] ∧
        (optDie t d).retain = (optDie s d).retain ∧ (optDie t d).comb = (optDie s d).comb ∧ (∀ e, e ≠ d → optDie t e = optDie s e) ∧ t.opt.chs = s.opt.chs ∧
        OnlyChanges [.opt] s t)) ∧
  (∀ (s : State) (d : Nat) (lost : List Nat),
      Canon s →
      (optDie s d).fit = .lock →
      dieUp s d = true →
      (optDie s d).warmRun = false ∨ lost = [] →
      Completes (.fitDone d lost) s (fun t => optDie t d = { optDie s d with fit := .done, warm := (optDie s d).warmRun, retain := some ⟨regGet s .OPT_BAND d, (optDie s d).comb, (optDie s d).rots, (optDie s d).heaters, (optDie s d).unfit, (optDie s d).temp⟩ } ∧
        (∀ e, e ≠ d → optDie t e = optDie s e) ∧ (∀ c, c < 16 → (optCh t (16 * d + c)).fitted = !(optDie s d).unfit.contains c ∧
          (optCh t (16 * d + c)).fitFail = (optDie s d).unfit.contains c) ∧ (∀ k, k / 16 ≠ d → optCh t k = optCh s k) ∧
        Happened s t .OPT_EVENT d 0 ∧ OnlyChanges [.events, .irq, .outbox, .opt] s t)) ∧
  (∀ (s : State) (d : Nat) (lost : List Nat),
      Canon s →
      (optDie s d).fit = .lock →
      dieUp s d = true →
      (optDie s d).warmRun = true →
      lost ≠ [] →
      Completes (.fitDone d lost) s (fun t => optDie t d = { optDie s d with fit := .comb, warmRun := false, combLock := false } ∧ (∀ e, e ≠ d → optDie t e = optDie s e) ∧
        (∀ k, k / 16 = d → (optCh t k).light = .dark ∧ (optCh t k).txLock = false ∧ (optCh t k).rxLock = false ∧ (optCh t k).fitted = false ∧ (optCh t k).los = (optCh s k).los) ∧
        (∀ k, k / 16 ≠ d → optCh t k = optCh s k) ∧ OnlyChanges [.opt] s t)) ∧
  (∀ (s : State) (k : Nat),
      Canon s →
      dieUp s (k / 16) = true →
      (optCh s k).fitted = true →
      Completes (.rxLock k) s (fun t => optCh t k = { optCh s k with rxLock := true, rxBad := 0 } ∧ (∀ j, j ≠ k → optCh t j = optCh s j) ∧ t.opt.dies = s.opt.dies ∧ t.opt.need = s.opt.need ∧ t.opt.forced = s.opt.forced ∧ OnlyChanges [.opt] s t))

/-- Channels light and darken by ramps, report loss of signal, and follow the tuning periods. OPT_CH_CTRL_WRITE on a channel that is not dark
holds the whole value, with MOD kept while EN is set; EN on a FIT_FAIL channel is refused with OPT_CH_EVENT bit 3 and stays clear. On a dark
channel the value is in effect at once: EN newly set declares LOS, and the ramp of a fitted and locked channel starts at the next tuning
period. LAUNCH_RAMP_DONE leaves the channel lit where EN is set, in its pattern where it calibrates, and dark otherwise. OPT_CH_LOS_THR_WRITE is refused unless LOS_CLR is 1.0 dB above
LOS_SET. LOS_SET with power below the threshold declares LOS, LOS_CLEARED with power at LOS_CLR and RX_LOCK clears it, each counted with its
event. RING_LOCK_LOSS after 5 periods darkens a transmit channel, or clears RX_LOCK and declares LOS. TUNING_PERIOD takes temperature and
bias, and latches EOL at 95.0 %. (R340, R346, R348, R349, R350, R352, R357, R399) -/
def Obligations.OpticalChannels : Prop :=
  (∀ (s : State) (req : Requester) (k : Nat) (v : Word),
      Canon s →
      Arrives s req .OPT_CH_CTRL k = true →
      (optCh s k).light ≠ .dark →
      bit (if optEn s k then putBf (acceptWord .OPT_CH_CTRL (rwsBase s .OPT_CH_CTRL k) v) 25 24 (bf (rwsBase s .OPT_CH_CTRL k) 25 24) else (acceptWord .OPT_CH_CTRL (rwsBase s .OPT_CH_CTRL k) v)) 31 = false ∨ optEn s k = true ∨ (optCh s k).fitFail = false →
      Completes (.optChCtrlWrite req k v) s (fun t => heldGet t .OPT_CH_CTRL k = some (if optEn s k then putBf (acceptWord .OPT_CH_CTRL (rwsBase s .OPT_CH_CTRL k) v) 25 24 (bf (rwsBase s .OPT_CH_CTRL k) 25 24) else (acceptWord .OPT_CH_CTRL (rwsBase s .OPT_CH_CTRL k) v)) ∧ (∀ r i, r ≠ .OPT_CH_CTRL ∨ i ≠ k → heldGet t r i = heldGet s r i) ∧ OnlyChanges [.held] s t)) ∧
  (∀ (s : State) (req : Requester) (k : Nat) (v : Word),
      Canon s →
      Arrives s req .OPT_CH_CTRL k = true →
      bit (acceptWord .OPT_CH_CTRL (rwsBase s .OPT_CH_CTRL k) v) 31 = true →
      optEn s k = false →
      (optCh s k).fitFail = true →
      (optCh s k).light = .dark →
      Completes (.optChCtrlWrite req k v) s (fun t => regGet t .OPT_CH_CTRL k = putBf (acceptWord .OPT_CH_CTRL (rwsBase s .OPT_CH_CTRL k) v) 31 31 0 ∧ (∀ r i, r ≠ .OPT_CH_CTRL ∨ i ≠ k → regGet t r i = regGet s r i) ∧
        optCh t k = optCh s k ∧ Happened s t .OPT_CH_EVENT k 3 ∧ OnlyChanges [.regs, .held, .events, .irq, .outbox] s t)) ∧
  (∀ (s : State) (req : Requester) (k : Nat) (v : Word),
      Canon s →
      Arrives s req .OPT_CH_CTRL k = true →
      bit (acceptWord .OPT_CH_CTRL (rwsBase s .OPT_CH_CTRL k) v) 31 = true →
      optEn s k = false →
      (optCh s k).fitFail = false →
      (optCh s k).light = .dark →
      Completes (.optChCtrlWrite req k v) s (fun t => regGet t .OPT_CH_CTRL k = (acceptWord .OPT_CH_CTRL (rwsBase s .OPT_CH_CTRL k) v) ∧ (∀ r i, r ≠ .OPT_CH_CTRL ∨ i ≠ k → regGet t r i = regGet s r i) ∧
        optCh t k = { optCh s k with los := true } ∧ (∀ j, j ≠ k → optCh t j = optCh s j) ∧ t.opt.dies = s.opt.dies ∧ t.opt.need = s.opt.need ∧ t.opt.forced = s.opt.forced ∧
        ((optCh s k).los = false → Happened s t .OPT_CH_EVENT k 0 ∧ ctrGet t .OPT_CH_CNT_LOS k = ctrGet s .OPT_CH_CNT_LOS k + 1) ∧
        ((optCh s k).los = true → OnlyChanges [.regs, .held] s t) ∧ OnlyChanges [.regs, .held, .events, .counters, .irq, .outbox, .line, .opt] s t)) ∧
  (∀ (s : State) (req : Requester) (k : Nat) (v : Word),
      Canon s →
      Arrives s req .OPT_CH_CTRL k = true →
      bit (acceptWord .OPT_CH_CTRL (rwsBase s .OPT_CH_CTRL k) v) 31 = false →
      optEn s k = false →
      (optCh s k).light = .dark →
      Completes (.optChCtrlWrite req k v) s (fun t => regGet t .OPT_CH_CTRL k = (acceptWord .OPT_CH_CTRL (rwsBase s .OPT_CH_CTRL k) v) ∧ (∀ r i, r ≠ .OPT_CH_CTRL ∨ i ≠ k → regGet t r i = regGet s r i) ∧
        OnlyChanges [.regs, .held] s t)) ∧
  (∀ (s : State) (req : Requester) (k : Nat) (v : Word),
      Canon s →
      Arrives s req .OPT_CH_CTRL k = true →
      bit (acceptWord .OPT_CH_CTRL (rwsBase s .OPT_CH_CTRL k) v) 31 = true →
      optEn s k = false →
      (optCh s k).fitFail = true →
      (optCh s k).light ≠ .dark →
      Completes (.optChCtrlWrite req k v) s (fun t => heldGet t .OPT_CH_CTRL k = some (putBf (acceptWord .OPT_CH_CTRL (rwsBase s .OPT_CH_CTRL k) v) 31 31 0) ∧
        (∀ r i, r ≠ .OPT_CH_CTRL ∨ i ≠ k → heldGet t r i = heldGet s r i) ∧ Happened s t .OPT_CH_EVENT k 3 ∧ OnlyChanges [.held, .events, .irq, .outbox] s t)) ∧
  (∀ (s : State) (k : Nat),
      Canon s →
      (optCh s k).light = .ramping →
      optEn s k = true →
      (optCh s k).cal = .pattern →
      Completes (.launchRampDone k) s (fun t => optCh t k = { optCh s k with light := .pattern, calTemp := some ((optCh s k).calTemp.getD (optDie s (k / 16)).temp) } ∧ (∀ j, j ≠ k → optCh t j = optCh s j) ∧ OnlyChanges [.opt] s t)) ∧
  (∀ (s : State) (k : Nat),
      (optCh s k).light ≠ .ramping →
      Completes (.launchRampDone k) s (fun t => t = s)) ∧
  (∀ (s : State) (k : Nat),
      Canon s →
      (optCh s k).light = .ramping →
      optEn s k = true →
      (optCh s k).cal ≠ .pattern →
      Completes (.launchRampDone k) s (fun t => optCh t k = { optCh s k with light := .lit, calTemp := some ((optCh s k).calTemp.getD (optDie s (k / 16)).temp) } ∧ (∀ j, j ≠ k → optCh t j = optCh s j) ∧ t.opt.dies = s.opt.dies ∧ t.opt.need = s.opt.need ∧ t.opt.forced = s.opt.forced ∧ OnlyChanges [.opt] s t)) ∧
  (∀ (s : State) (k : Nat),
      Canon s →
      (optCh s k).light = .ramping →
      optEn s k = false →
      Completes (.launchRampDone k) s (fun t => optCh t k = { optCh s k with light := .dark, launchLow := false } ∧ (∀ j, j ≠ k → optCh t j = optCh s j) ∧ t.opt.dies = s.opt.dies ∧ t.opt.need = s.opt.need ∧ t.opt.forced = s.opt.forced ∧ OnlyChanges [.opt] s t)) ∧
  (∀ (s : State) (req : Requester) (k : Nat) (v : Word),
      Arrives s req .OPT_CH_LOS_THR k = true →
      toSigned 16 (bf v 31 16) < toSigned 16 (bf v 15 0) + 10 →
      Completes (.optChLosThrWrite req k v) s (fun t => Happened s t .OPT_EVENT (k / 16) 5 ∧ OnlyChanges [.events, .irq, .outbox] s t)) ∧
  (∀ (s : State) (req : Requester) (k : Nat) (v : Word),
      Canon s →
      Arrives s req .OPT_CH_LOS_THR k = true →
      toSigned 16 (bf v 15 0) + 10 ≤ toSigned 16 (bf v 31 16) →
      (optCh s k).light = .dark →
      Completes (.optChLosThrWrite req k v) s (fun t => regGet t .OPT_CH_LOS_THR k = v ∧ (∀ r i, r ≠ .OPT_CH_LOS_THR ∨ i ≠ k → regGet t r i = regGet s r i) ∧ OnlyChanges [.regs, .held] s t)) ∧
  (∀ (s : State) (k : Nat) (p : Int) (pilot : Bool),
      Canon s →
      dieUp s (k / 16) = true →
      pilot = false ∨ p < toSigned 16 (regBf s .OPT_CH_LOS_THR k 15 0) →
      (optCh s k).los = false →
      Completes (.losSet k p pilot) s (fun t => optCh t k = { optCh s k with los := true } ∧ (∀ j, j ≠ k → optCh t j = optCh s j) ∧ t.opt.dies = s.opt.dies ∧ t.opt.need = s.opt.need ∧ t.opt.forced = s.opt.forced ∧ ctrGet t .OPT_CH_CNT_LOS k = ctrGet s .OPT_CH_CNT_LOS k + 1 ∧
        Happened s t .OPT_CH_EVENT k 0 ∧ (chEn s k = true → (lineCh t k).defects.getLsbD 0 = true) ∧
        OnlyChanges [.events, .counters, .irq, .outbox, .line, .opt] s t)) ∧
  (∀ (s : State) (k : Nat) (p : Int),
      Canon s →
      dieUp s (k / 16) = true →
      (optCh s k).rxLock = true →
      toSigned 16 (regBf s .OPT_CH_LOS_THR k 31 16) ≤ p →
      (optCh s k).los = true →
      Completes (.losCleared k p) s (fun t => optCh t k = { optCh s k with los := false } ∧ (∀ j, j ≠ k → optCh t j = optCh s j) ∧ t.opt.dies = s.opt.dies ∧ t.opt.need = s.opt.need ∧ t.opt.forced = s.opt.forced ∧ ctrGet t .OPT_CH_CNT_LOS k = ctrGet s .OPT_CH_CNT_LOS k + 1 ∧
        Happened s t .OPT_CH_EVENT k 1 ∧ OnlyChanges [.events, .counters, .irq, .outbox, .line, .opt] s t)) ∧
  (∀ (s : State) (k : Nat) (p : Int),
      (optCh s k).los = true →
      Completes (.losSet k p false) s (fun t => t = s)) ∧
  (∀ (s : State) (k : Nat),
      Canon s →
      dieUp s (k / 16) = true →
      (optCh s k).fitted = true →
      5 ≤ (optCh s k).txBad →
      (optCh s k).txLock = true →
      Completes (.ringLockLoss k true) s (fun t => (optCh t k).light = .dark ∧ (optCh t k).txLock = false ∧ (optCh t k).los = (optCh s k).los ∧
        (optCh t k).rxLock = (optCh s k).rxLock ∧ (∀ j, j ≠ k → optCh t j = optCh s j) ∧ t.opt.dies = s.opt.dies ∧ OnlyChanges [.opt] s t)) ∧
  (∀ (s : State) (k : Nat),
      Canon s →
      dieUp s (k / 16) = true →
      (optCh s k).fitted = true →
      5 ≤ (optCh s k).rxBad →
      (optCh s k).rxLock = true →
      Completes (.ringLockLoss k false) s (fun t => (optCh t k).rxLock = false ∧ (optCh t k).los = true ∧ (optCh t k).light = (optCh s k).light ∧
        (∀ j, j ≠ k → optCh t j = optCh s j) ∧ t.opt.dies = s.opt.dies ∧ OnlyChanges [.events, .counters, .irq, .outbox, .line, .opt] s t)) ∧
  (∀ (s : State) (d b : Nat) (temp : Int) (l : List OptMeas),
      Canon s →
      dieUp s d = true →
      Completes (.tuningPeriod d b temp l) s (fun t => (optDie t d).temp = temp ∧ (optDie t d).bias = min b 1000 ∧
        (optDie t d).eol = ((optDie s d).eol || decide (950 ≤ min b 1000)) ∧ heldGet t .OPT_BAND d = none ∧
        (∀ e, e ≠ d → optDie t e = optDie s e) ∧ OnlyChanges [.regs, .held, .events, .counters, .irq, .outbox, .line, .opt] s t)) ∧
  (∀ (s : State) (d b k : Nat) (temp : Int),
      Canon s →
      dieUp s d = true →
      k / 16 = d →
      heldGet s .OPT_BAND d = none →
      (∀ j, j / 16 = d → heldGet s .OPT_CH_CTRL j = none) →
      (optCh s k).light = .dark →
      optEn s k = true →
      (optCh s k).fitted = true →
      (optCh s k).txLock = true →
      (optDie s d).fit = .done →
      Completes (.tuningPeriod d b temp []) s (fun t => optCh t k = { optCh s k with light := .ramping })) ∧
  (∀ (s : State) (d b : Nat) (temp : Int) (l : List OptMeas),
      dieUp s d = false →
      Completes (.tuningPeriod d b temp l) s (fun t => t = s))

/-- A calibration need joins the queue once, starts by headroom or by force, and ends with frames again. CAL and CAL_PERIOD_EXPIRY of a lit
channel without a need put it behind the needs before it; a need that stands, or a channel that is not lit, changes nothing. CAL_START takes the first
channel of the die whose calibration is not blocked and that has headroom: its need is gone and it leaves its group or sends its pattern.
CAL_FORCED of a pending channel is counted, with OPT_EVENT bit 4. CAL_PATTERN_END of a channel in no group ends the calibration with
CAL_DONE; one in a group is lit again and waits to return. (R353, R354, R355, R356) -/
def Obligations.OpticalCalibration : Prop :=
  (∀ (s : State) (req : Requester) (k : Nat),
      Arrives s req .OPT_CH_CMD k = true →
      (optCh s k).light = .lit →
      s.opt.need.contains k = false →
      Completes (.calCommand req k) s (fun t => t = { s with opt := { s.opt with need := s.opt.need ++ [k] } })) ∧
  (∀ (s : State) (k : Nat),
      (optCh s k).light = .lit →
      s.opt.need.contains k = false →
      Completes (.calPeriodExpiry k) s (fun t => t = { s with opt := { s.opt with need := s.opt.need ++ [k] } })) ∧
  (∀ (s : State) (k : Nat),
      (optCh s k).light ≠ .lit ∨ s.opt.need.contains k = true →
      Completes (.calPeriodExpiry k) s (fun t => t = s) ∧
      (∀ req, Arrives s req .OPT_CH_CMD k = true → Completes (.calCommand req k) s (fun t => t = s))) ∧
  (∀ (s : State) (d k : Nat),
      Canon s →
      dieUp s d = true →
      (s.opt.need.filter (fun k => k / 16 == d)).find? (fun k => !calBlocked s k && calHeadroom s k) = some k →
      Completes (.calStart d) s (fun t => (∀ j, j ∈ t.opt.need ↔ j ∈ s.opt.need ∧ j ≠ k) ∧
        ((optCh t k).cal = .pattern ∧ (optCh t k).light = (if (optCh s k).light = .lit then .pattern else (optCh s k).light) ∨ (optCh t k).cal = .leaving ∧ (lineCh t k).mstate = 3) ∧
        (∀ j, j ≠ k → optCh t j = optCh s j) ∧ t.opt.dies = s.opt.dies ∧ OnlyChanges [.events, .irq, .outbox, .line, .opt] s t)) ∧
  (∀ (s : State) (d : Nat),
      dieUp s d = false ∨ (s.opt.need.filter (fun k => k / 16 == d)).find? (fun k => !calBlocked s k && calHeadroom s k) = none →
      Completes (.calStart d) s (fun t => t = s)) ∧
  (∀ (s : State) (k : Nat),
      Canon s →
      s.opt.need.contains k = true →
      s.opt.forced.contains k = false →
      s.opt.forced = [] →
      calBlocked s k = true →
      Completes (.calForced k) s (fun t => t.opt = { s.opt with forced := [k] } ∧ ctrGet t .OPT_CNT_CAL_FORCED (k / 16) = ctrGet s .OPT_CNT_CAL_FORCED (k / 16) + 1 ∧
        Happened s t .OPT_EVENT (k / 16) 4 ∧ OnlyChanges [.events, .counters, .irq, .outbox, .opt] s t)) ∧
  (∀ (s : State) (k : Nat),
      Canon s →
      s.opt.need.filter (· == k) = [k] →
      s.opt.forced = [] →
      calBlocked s k = false →
      Completes (.calForced k) s (fun t => t.opt.need = s.opt.need.filter (· != k) ∧ t.opt.forced = [] ∧ ((optCh t k).cal = .pattern ∨ (optCh t k).cal = .leaving) ∧
        (∀ j, j ≠ k → optCh t j = optCh s j) ∧ ctrGet t .OPT_CNT_CAL_FORCED (k / 16) = ctrGet s .OPT_CNT_CAL_FORCED (k / 16) + 1 ∧
        Happened s t .OPT_EVENT (k / 16) 4 ∧ OnlyChanges [.events, .counters, .irq, .outbox, .line, .opt] s t)) ∧
  (∀ (s : State) (k : Nat),
      s.opt.need.contains k = false ∨ s.opt.forced.contains k = true →
      Completes (.calForced k) s (fun t => t = s)) ∧
  (∀ (s : State) (k : Nat),
      Canon s →
      (optCh s k).cal = .pattern →
      (optCh s k).light = .pattern →
      chEn s k = true →
      Completes (.calPatternEnd k) s (fun t => optCh t k = { optCh s k with light := .lit, cal := .returning } ∧ (∀ j, j ≠ k → optCh t j = optCh s j) ∧ t.opt.dies = s.opt.dies ∧ t.opt.need = s.opt.need ∧ t.opt.forced = s.opt.forced ∧
        lineCh t k = { lineCh s k with mstate := if (lineCh s k).mstate = 3 then 1 else (lineCh s k).mstate } ∧ (∀ j, j ≠ k → lineCh t j = lineCh s j) ∧ OnlyChanges [.line, .opt] s t)) ∧
  (∀ (s : State) (k : Nat),
      (optCh s k).cal ≠ .pattern ∨ (optCh s k).light ≠ .pattern →
      Completes (.calPatternEnd k) s (fun t => t = s)) ∧
  (∀ (s : State) (k : Nat),
      Canon s →
      (optCh s k).cal = .pattern →
      (optCh s k).light = .pattern →
      chEn s k = false →
      s.opt.forced = [] →
      Completes (.calPatternEnd k) s (fun t => optCh t k = { optCh s k with light := .lit, cal := .none, calTemp := some (optDie s (k / 16)).temp } ∧ (∀ j, j ≠ k → optCh t j = optCh s j) ∧ t.opt.dies = s.opt.dies ∧ t.opt.need = s.opt.need ∧ t.opt.forced = s.opt.forced ∧
        ctrGet t .OPT_CNT_CAL (k / 16) = ctrGet s .OPT_CNT_CAL (k / 16) + 1 ∧ Happened s t .OPT_EVENT (k / 16) 3 ∧ OnlyChanges [.events, .counters, .irq, .outbox, .opt] s t))

/-- Keys switch on request, retired slots empty, and a key load is written only when it passes every check. SWITCH with a VALID next slot waits
for the next segment; without one it is only counted. CLEAR_RETIRED makes the session's RETIRED slots EMPTY and leaves VALID ones. GO sets
BUSY; with a load in progress it is refused, counted, with the result of the first check that fails: 0x07 under the alarm, 0x06 without a key
agreed, 0x08 otherwise (that order is the model's reading, log 15). KEY_LOAD_COMPLETE of a load that passes writes key and salts into
its slot as VALID with no use, records its sequence number and result 0 and clears BUSY; one that fails records the first failing check's
result, is counted, and changes no slot. (R366, R368, R370, R371) -/
def Obligations.KeyCommands : Prop :=
  (∀ (s : State) (req : Requester) (k : Nat),
      Canon s →
      Arrives s req .THM_SESS_CMD k = true →
      (keySlot s (nextSlot s k)).state = .valid →
      Completes (.keySwitch req k) s (fun t => thmSess t k = { thmSess s k with switchReq := true } ∧ (∀ m, m ≠ k → thmSess t m = thmSess s m) ∧
        t.thm.slots = s.thm.slots ∧ t.thm.groups = s.thm.groups ∧ OnlyChanges [.thm] s t)) ∧
  (∀ (s : State) (req : Requester) (k : Nat),
      Canon s →
      Arrives s req .THM_SESS_CMD k = true →
      (keySlot s (nextSlot s k)).state ≠ .valid →
      Completes (.keySwitch req k) s (fun t => ctrGet t .THM_CNT_SWITCH_REFUSED 0 = ctrGet s .THM_CNT_SWITCH_REFUSED 0 + 1 ∧ OnlyChanges [.counters] s t)) ∧
  (∀ (s : State) (req : Requester) (k : Nat),
      Canon s →
      Arrives s req .THM_SESS_CMD k = true →
      Completes (.clearRetired req k) s (fun t => (∀ i, i / 2 = k → keySlot t i = if (keySlot s i).state = .retired then keySlotReset else keySlot s i) ∧
        (∀ i, i / 2 ≠ k → keySlot t i = keySlot s i) ∧ t.thm.sess = s.thm.sess ∧ t.thm.groups = s.thm.groups ∧ OnlyChanges [.thm] s t)) ∧
  (∀ (s : State) (req : Requester) (g : Nat),
      Canon s →
      Arrives s req .THM_KLD_CMD g = true →
      (keyGroup s g).busy = false →
      Completes (.kldGo req g) s (fun t => keyGroup t g = { keyGroup s g with busy := true } ∧ (∀ m, m ≠ g → keyGroup t m = keyGroup s m) ∧
        t.thm.slots = s.thm.slots ∧ t.thm.sess = s.thm.sess ∧ OnlyChanges [.thm] s t)) ∧
  (∀ (s : State) (req : Requester) (g : Nat),
      Canon s →
      Arrives s req .THM_KLD_CMD g = true →
      (keyGroup s g).busy = true →
      Completes (.kldGo req g) s (fun t => keyGroup t g = { keyGroup s g with result := if alarmLatched s then 7 else if (keyGroup s g).kek.isNone then 6 else 8 } ∧ (∀ m, m ≠ g → keyGroup t m = keyGroup s m) ∧
        t.thm.slots = s.thm.slots ∧ ctrGet t .THM_CNT_KLD_REFUSED 0 = ctrGet s .THM_CNT_KLD_REFUSED 0 + 1 ∧ OnlyChanges [.counters, .thm] s t)) ∧
  (∀ (s : State) (g : Nat) (p : List Byte),
      Canon s →
      (keyGroup s g).busy = true →
      keyLoadResult s g (some p) = 0 →
      Completes (.keyLoadComplete g (some p)) s (fun t => keySlot t (2 * (parseKeyLoad p).sess + (parseKeyLoad p).slot) = ⟨.valid, (parseKeyLoad p).key, (parseKeyLoad p).txSalt, (parseKeyLoad p).rxSalt, 0, none, false, true, false⟩ ∧
        keyGroup t g = { keyGroup s g with busy := false, result := 0, seq := (parseKeyLoad p).seq } ∧ (∀ i, i / 2 ≠ (parseKeyLoad p).sess → keySlot t i = keySlot s i) ∧
        (∀ m, m ≠ g → keyGroup t m = keyGroup s m) ∧ (∀ m, m ≠ (parseKeyLoad p).sess → selvGet t m = selvGet s m) ∧
        (evGet t .THM_EVENT 0).bits.getLsbD 4 = true ∧ OnlyChanges [.events, .irq, .outbox, .thm, .selv] s t)) ∧
  (∀ (s : State) (g : Nat) (p : Option (List Byte)),
      Canon s →
      (keyGroup s g).busy = true →
      keyLoadResult s g p ≠ 0 →
      Completes (.keyLoadComplete g p) s (fun t => keyGroup t g = { keyGroup s g with busy := false, result := BitVec.ofNat 8 (keyLoadResult s g p) } ∧
        (∀ m, m ≠ g → keyGroup t m = keyGroup s m) ∧ t.thm.slots = s.thm.slots ∧ t.thm.sess = s.thm.sess ∧
        ctrGet t .THM_CNT_KLD_REFUSED 0 = ctrGet s .THM_CNT_KLD_REFUSED 0 + 1 ∧ OnlyChanges [.counters, .irq, .outbox, .thm] s t)) ∧
  (∀ (s : State) (g : Nat) (p : Option (List Byte)),
      (keyGroup s g).busy = false →
      Completes (.keyLoadComplete g p) s (fun t => t = s))

/-- References are taken, lost and changed as their rules say. TOD_MESSAGE keeps a good message and counts a bad one with TIME_EVENT.TOD_BAD
while PPS is selected, and changes nothing otherwise. PPS_EDGE uses up the kept message. REF_LOST in TRACKING enters HOLDOVER with no phase
term, in ACQUIRE discards what it gathered, with REF_LOST set and the PTP states of the ports as portsAged gives them. RESTEP enters ACQUIRE
and stops serving PTP, or with a schedule armed is refused. TIME_CFG_WRITE is held for the next tick. A two-step SYNC waits for its
FOLLOW_UP; DELAY_RESP completes the delay of the last Sync. LINE_TIME_AVERAGE publishes the averages and starts a new second. (R380, R381, R382, R384, R385, R386, R387, R391, R399) -/
def Obligations.TimeReferences : Prop :=
  (∀ (s : State) (m : List Byte),
      ppsSelected s = true →
      todGood m = true →
      Completes (.todMessage m) s (fun t => t.time.tod = some ⟨beNat (slice m 4 6), BitVec.ofNat 18 (beNat (slice m 10 2) + (leField m 3 1 / 2 % 4) * 65536)⟩ ∧
        t.time.utc = BitVec.ofNat 18 (beNat (slice m 10 2) + (leField m 3 1 / 2 % 4) * 65536) ∧ t.time.mode = s.time.mode ∧ t.time.now = s.time.now ∧ OnlyChanges [.time] s t)) ∧
  (∀ (s : State) (m : List Byte),
      Canon s →
      ppsSelected s = true →
      todGood m = false →
      Completes (.todMessage m) s (fun t => ctrGet t .TIME_CNT_TOD_BAD 0 = ctrGet s .TIME_CNT_TOD_BAD 0 + 1 ∧ Happened s t .TIME_EVENT 0 7 ∧
        OnlyChanges [.events, .counters, .irq, .outbox] s t)) ∧
  (∀ (s : State) (m : List Byte) (phase : Nat),
      ppsSelected s = false →
      Completes (.todMessage m) s (fun t => t = s) ∧ Completes (.ppsEdge phase) s (fun t => t = s)) ∧
  (∀ (s : State) (phase : Nat),
      ppsSelected s = true →
      Completes (.ppsEdge phase) s (fun t => t.time.tod = none ∧ (s.time.mode = .acquire → t.time.ppsLast = some (localAt s phase)) ∧ t.time.utc = s.time.utc ∧
        OnlyChanges [.events, .counters, .irq, .outbox, .fresh, .time] s t)) ∧
  (∀ (s : State),
      s.time.mode = .tracking →
      Completes .refLost s (fun t => t.time.mode = .holdover ∧ t.time.phase = 0 ∧ t.time.est = holdoverAvg s ∧ t.time.now = s.time.now ∧ t.time.rate = s.time.rate ∧ t.time.ports = portsAged s ∧
        (evGet t .TIME_EVENT 0).bits.getLsbD 3 = true ∧ (evGet t .TIME_EVENT 0).bits.getLsbD 2 = true ∧ OnlyChanges [.events, .irq, .outbox, .time] s t)) ∧
  (∀ (s : State),
      s.time.mode = .acquire →
      Completes .refLost s (fun t => t.time = { s.time with ports := portsAged s, samples := [], ppsLast := none, ppsSec := none, ppsRun := 0 } ∧ Happened s t .TIME_EVENT 0 3 ∧
        OnlyChanges [.events, .irq, .outbox, .time] s t)) ∧
  (∀ (s : State),
      s.time.mode = .freerun ∨ s.time.mode = .holdover →
      Completes .refLost s (fun t => t = s)) ∧
  (∀ (s : State) (req : Requester),
      Arrives s req .TIME_CMD 0 = true →
      scheduleArmed s = false →
      Completes (.restep req) s (fun t => t.time.mode = .acquire ∧ t.time.noServe = true ∧ t.time.samples = [] ∧ t.time.phase = 0 ∧ t.time.now = s.time.now ∧ OnlyChanges [.time] s t)) ∧
  (∀ (s : State) (req : Requester),
      Arrives s req .TIME_CMD 0 = true →
      scheduleArmed s = true →
      Completes (.restep req) s (fun t => Happened s t .TIME_EVENT 0 4 ∧ OnlyChanges [.events, .irq, .outbox] s t)) ∧
  (∀ (s : State) (req : Requester) (v : Word),
      Canon s →
      Arrives s req .TIME_CFG 0 = true →
      Completes (.timeCfgWrite req v) s (fun t => heldGet t .TIME_CFG 0 = some (acceptWord .TIME_CFG (rwsBase s .TIME_CFG 0) v) ∧
        (∀ r i, r ≠ .TIME_CFG ∨ i ≠ 0 → heldGet t r i = heldGet s r i) ∧ OnlyChanges [.held] s t)) ∧
  (∀ (s : State) (g : Nat),
      Canon s →
      (lineTime s g).count ≠ 0 →
      Completes (.lineTimeAverage g) s (fun t => lineTime t g = ⟨0, 0, 0, (lineTime s g).sumOfs / ((lineTime s g).count : Int), (lineTime s g).sumDelay / ((lineTime s g).count : Int) / 16⟩ ∧
        (∀ m, m ≠ g → lineTime t m = lineTime s m) ∧ t.time.now = s.time.now ∧ t.time.mode = s.time.mode ∧
        (((regBf s .TIME_LINE_THR 0 15 0 : Nat) : Int) * 16 < (lineTime s g).sumOfs / ((lineTime s g).count : Int) ∨
          (lineTime s g).sumOfs / ((lineTime s g).count : Int) < -(((regBf s .TIME_LINE_THR 0 15 0 : Nat) : Int) * 16) → Happened s t .TIME_EVENT 0 6) ∧
        OnlyChanges [.events, .irq, .outbox, .time] s t)) ∧
  (∀ (s : State) (g : Nat),
      (lineTime s g).count = 0 →
      Completes (.lineTimeAverage g) s (fun t => t = s))

/-- PTP messages are answered, sampled, sent and counted by the role of their port. SYNC on the upstream port: a two-step one waits for its
FOLLOW_UP, a one-step one gives a sample, as the FOLLOW_UP of the same sender and sequence does. DELAY_REQ on a serving master port is
answered with the time it arrived, by a Delay_Resp that joins the port's TC6 queue. DELAY_REQ_SEND on the upstream port keeps the time it leaves and DELAY_RESP of the same sequence
completes the mean path delay. PTP_SYNC_SEND on a serving master port sends Sync and queues Announce under the next sequence number. ANNOUNCE
keeps the better dataset of a port, and with BMCA the port of a clock better than the gateway and every other clock becomes the slave.
PTP_UNSUPPORTED is only counted. On any other port nothing changes. A Sync leaves at its command and an Announce with its frame (log 85). (R383, R385, R386, R387, R388, R389, R390) -/
def Obligations.PtpMessages : Prop :=
  (∀ (s : State) (m : PtpSyncMsg),
      Canon s →
      isUpstream s m.port = true →
      m.domain = timeDomain s →
      m.twoStep = true →
      Completes (.ptpSync m) s (fun t => ptpPort t m.port = { ptpPort s m.port with pend := some (m.seq, m.sender, ingressStamp s m.port m.phase, m.corr) } ∧
        (∀ q, q ≠ m.port → ptpPort t q = ptpPort s q) ∧ t.time.mode = s.time.mode ∧ t.time.now = s.time.now ∧ OnlyChanges [.time] s t)) ∧
  (∀ (s : State) (m : PtpSyncMsg),
      isUpstream s m.port = true →
      m.domain = timeDomain s →
      m.twoStep = false →
      Completes (.ptpSync m) s (fun t => t = syncSample s m.port ((m.origin : Int) + m.corr) (ingressStamp s m.port m.phase))) ∧
  (∀ (s : State) (p q f o : Nat) (t2 c corr : Int),
      isUpstream s p = true →
      (ptpPort s p).pend = some (q, f, t2, c) →
      Completes (.followUp p q f o corr) s (fun t => t = syncSample s p ((o : Int) + c + corr) t2)) ∧
  (∀ (s : State) (p : Nat) (t1 t2 : Int),
      Canon s →
      s.time.mode = .acquire →
      s.time.samples.length < 7 →
      (syncSample s p t1 t2).time.mode = .acquire ∧ (syncSample s p t1 t2).time.now = s.time.now ∧ (syncSample s p t1 t2).time.offset = (t1 + (ptpPort s p).delay - t2) / 4096 ∧
        (syncSample s p t1 t2).time.samples.length ≤ s.time.samples.length + 1 ∧ ptpPort (syncSample s p t1 t2) p = { ptpPort s p with last := some (t1, t2), pend := none } ∧ OnlyChanges [.time] s (syncSample s p t1 t2)) ∧
  (∀ (s : State) (p : Nat) (t1 t2 : Int),
      Canon s →
      s.time.mode = .tracking →
      s.time.outRun = 0 →
      us10 < t1 + (ptpPort s p).delay - t2 →
      (syncSample s p t1 t2).time.mode = .tracking ∧ (syncSample s p t1 t2).time.outRun = 1 ∧ (syncSample s p t1 t2).time.est = s.time.est ∧
        ctrGet (syncSample s p t1 t2) .TIME_CNT_OUTLIER 0 = ctrGet s .TIME_CNT_OUTLIER 0 + 1 ∧ OnlyChanges [.counters, .time] s (syncSample s p t1 t2)) ∧
  (∀ (s : State) (p d q f phase : Nat),
      ptpServing s = true →
      ptpRole s p = 6 →
      d = timeDomain s →
      Completes (.delayReq p d q f phase) s (fun t =>
        (destOk s (portPanel s p) p = true → t.fab.frames = s.fab.frames ++ [⟨0x300 + portPanel s p, 6, [p], ptpFrame s p 54, false, s.localUs, none, 0,
            some (.ptpDelayResp p q f (ingressStamp s p phase)), none⟩] ∧ OnlyChanges [.fab] s t) ∧
        (destOk s (portPanel s p) p = false → t = ctrInc s .SW_CNT_NO_ENTRY 0))) ∧
  (∀ (s : State) (p d q f phase : Nat),
      ptpServing s = false ∨ ptpRole s p ≠ 6 ∨ d ≠ timeDomain s →
      Completes (.delayReq p d q f phase) s (fun t => t = s)) ∧
  (∀ (s : State) (p q f o phase r : Nat) (corr : Int) (m : PtpSyncMsg),
      isUpstream s p = false →
      m.port = p →
      Completes (.ptpSync m) s (fun t => t = s) ∧ Completes (.followUp p q f o corr) s (fun t => t = s) ∧ Completes (.delayReqSend p phase) s (fun t => t = s) ∧
        Completes (.delayResp p q r corr) s (fun t => t = s)) ∧
  (∀ (s : State) (m : PtpSyncMsg),
      m.domain ≠ timeDomain s →
      Completes (.ptpSync m) s (fun t => t = s)) ∧
  (∀ (s : State) (p q q' f f' o : Nat) (t2 c corr : Int),
      (ptpPort s p).pend = some (q', f', t2, c) →
      q' ≠ q ∨ f' ≠ f →
      Completes (.followUp p q f o corr) s (fun t => t = s)) ∧
  (∀ (s : State) (p q q' r : Nat) (t3 corr : Int),
      (ptpPort s p).dreq = some (q', t3) →
      q' ≠ q →
      Completes (.delayResp p q r corr) s (fun t => t = s)) ∧
  (∀ (s : State) (p phase : Nat),
      Canon s →
      isUpstream s p = true →
      Completes (.delayReqSend p phase) s (fun t => ptpPort t p = { ptpPort s p with dreq := some ((ptpPort s p).seq, egressStamp s p phase), seq := ((ptpPort s p).seq + 1) % 65536 } ∧
        (∀ q, q ≠ p → ptpPort t q = ptpPort s q) ∧ t.outbox = s.outbox ++ [.ptpDelayReq p (ptpPort s p).seq] ∧ OnlyChanges [.outbox, .time] s t)) ∧
  (∀ (s : State) (p q r : Nat) (t1 t2 t3 corr : Int),
      Canon s →
      isUpstream s p = true →
      (ptpPort s p).dreq = some (q, t3) →
      (ptpPort s p).last = some (t1, t2) →
      Completes (.delayResp p q r corr) s (fun t => ptpPort t p = { ptpPort s p with dreq := none, delay := ((t2 - t1) + ((r : Int) - corr - t3)) / 2 } ∧
        (∀ q, q ≠ p → ptpPort t q = ptpPort s q) ∧ OnlyChanges [.time] s t)) ∧
  (∀ (s : State) (p phase : Nat),
      Canon s →
      ptpServing s = true →
      ptpRole s p = 6 →
      Completes (.ptpSyncSend p phase) s (fun t => ptpPort t p = { ptpPort s p with seq := ((ptpPort s p).seq + 1) % 65536 } ∧ (∀ q, q ≠ p → ptpPort t q = ptpPort s q) ∧
        t.outbox = s.outbox ++ [.ptpSync p (ptpPort s p).seq (egressStamp s p phase)] ∧
        (destOk s (portPanel s p) p = true → t.fab.frames = s.fab.frames ++ [⟨0x300 + portPanel s p, 6, [p], ptpFrame s p 64, false, s.localUs, none, 0,
            some (.ptpAnnounce p (ptpPort s p).seq (announceData s) s.time.utc), none⟩] ∧ t.counters = s.counters) ∧
        (destOk s (portPanel s p) p = false → t.fab = s.fab ∧ ctrGet t .SW_CNT_NO_ENTRY 0 = ctrGet s .SW_CNT_NO_ENTRY 0 + 1) ∧
        OnlyChanges [.counters, .outbox, .time, .fab] s t)) ∧
  (∀ (s : State) (p phase : Nat),
      ptpServing s = false ∨ ptpRole s p ≠ 6 →
      Completes (.ptpSyncSend p phase) s (fun t => t = s)) ∧
  (∀ (s : State) (p d : Nat) (x : PtpData),
      Canon s →
      ptpEn s p = true →
      d = timeDomain s →
      regBit s .TIME_CFG 0 12 = false →
      Completes (.announce p d x) s (fun t => ptpPort t p = (if (match (ptpPort s p).best with | none => true | some b => b.sender == x.sender || lexLt (dataKey x) (dataKey b)) = true
          then { ptpPort s p with best := some x, state := if (ptpPort s p).state = 3 then 4 else (ptpPort s p).state, heardUs := s.localUs } else ptpPort s p) ∧
        (∀ q, q ≠ p → ptpPort t q = ptpPort s q) ∧ OnlyChanges [.time] s t)) ∧
  (∀ (s : State) (p d : Nat) (x : PtpData),
      Canon s →
      ptpEn s p = true →
      d = timeDomain s →
      regBit s .TIME_CFG 0 12 = true →
      ppsSelected s = false →
      (∀ b, (ptpPort s p).best = some b → b.sender = x.sender ∨ lexLt (dataKey x) (dataKey b) = true) →
      lexLt (dataKey x) (dataKey (ownData s)) = true →
      (∀ q b, q ≠ p → (ptpPort s q).best = some b → lexLt (dataKey x) (dataKey b) = true) →
      Completes (.announce p d x) s (fun t => ptpPort t p = { ptpPort s p with best := some x, state := 9, heardUs := s.localUs } ∧
        (∀ q, q ≠ p → ptpPort t q = { ptpPort s q with state := (ptpPort t q).state } ∧ (ptpPort t q).state ≠ 9 ∨ ptpPort t q = ptpPort s q) ∧ OnlyChanges [.time] s t)) ∧
  (∀ (s : State) (p d : Nat) (x : PtpData),
      ptpEn s p = false ∨ d ≠ timeDomain s →
      Completes (.announce p d x) s (fun t => t = s)) ∧
  (∀ (s : State) (p : Nat),
      Canon s →
      Completes (.ptpUnsupported p) s (fun t => ctrGet t .TIME_PORT_CNT_DROP p = ctrGet s .TIME_PORT_CNT_DROP p + 1 ∧ OnlyChanges [.counters] s t))

/-- An engine fault resets its engine, its suspects are tried in turn, and a fenced engine returns only by its self-test. CTX_WATCHDOG_EXPIRY of
a context with work that does not wait for another unit, in a NORMAL engine, resets the engine, makes the contexts with open chunks or work its
suspects and records the fault; during a trial it is a verdict on the suspect; in a FENCED engine it stops what still runs (log 68); while the
engine is reset only the detector is recorded. ENGINE_RESET_DONE begins the trial of the first suspect, or after a verdict ends
the reset; TRIAL_TIMEOUT passes the suspect and tries the next; with none left the fault was transient, and the third in a second fences the
engine. UNFENCE makes a FENCED engine NORMAL where its test passes. (R429, R431, R434, R435, R436, R446) -/
def Obligations.EngineFaults : Prop :=
  (∀ (s : State) (ctx : Nat),
      ctx < 512 →
      ctxBusy s ctx = true →
      ctxPaused s ctx = false →
      (engGet s (ctx / 16)).state = .normal →
      (engGet s (ctx / 16)).trial = none →
      Completes (.ctxWatchdogExpiry ctx) s (fun t => (engGet t (ctx / 16)).state = .resetting ∧ (engGet t (ctx / 16)).suspects = suspectsOf s (ctx / 16) ∧
        (engGet t (ctx / 16)).faults = s.localUs :: (engGet s (ctx / 16)).faults.filter (fun u => decide (s.localUs < u + 1000000)) ∧ (∀ m, m ≠ ctx / 16 → engGet t m = engGet s m) ∧
        (∀ j, j < 8 → runOf t (8 * (ctx / 16) + j) = none) ∧ t.health.lastEng = ctx / 16 ∧ t.health.lastCtx = ctx % 16 ∧ t.health.detectors = 2 ∧
        OnlyChanges [.regs, .held, .events, .counters, .irq, .outbox, .fresh, .health, .obs, .bob, .mem, .selv, .cco, .seam, .plt, .bast, .line, .fab] s t)) ∧
  (∀ (s : State) (ctx c : Nat),
      ctx < 512 →
      ctxBusy s ctx = true →
      ctxPaused s ctx = false →
      (engGet s (ctx / 16)).state = .trial →
      (engGet s (ctx / 16)).trial = some c →
      Completes (.ctxWatchdogExpiry ctx) s (fun t => ((engGet t (ctx / 16)).state = .resetting ∨ (engGet t (ctx / 16)).state = .fenced) ∧ (ctxGet t c).faulted = true ∧
        (∀ p, ctxPanel s c = some p → panelGet t p = ⟨.faulted, 1⟩) ∧ (∀ m, m ≠ ctx / 16 → engGet t m = engGet s m) ∧ (evGet t .HLT_EVENT 0).bits.getLsbD 1 = true ∧
        ctrGet t .HLT_CNT_VERDICT 0 = ctrGet s .HLT_CNT_VERDICT 0 + 1 ∧
        OnlyChanges [.regs, .held, .events, .counters, .irq, .outbox, .fresh, .panels, .health, .obs, .bob, .mem, .selv, .cco, .seam, .plt, .bast, .line, .fab] s t)) ∧
  (∀ (s : State) (ctx : Nat),
      ctx < 512 →
      ctxBusy s ctx = true →
      ctxPaused s ctx = false →
      (engGet s (ctx / 16)).state = .fenced →
      Completes (.ctxWatchdogExpiry ctx) s (fun t => engGet t (ctx / 16) = engGet s (ctx / 16) ∧ (∀ m, m ≠ ctx / 16 → engGet t m = engGet s m) ∧
        (∀ j, j < 8 → runOf t (8 * (ctx / 16) + j) = none) ∧ ctrGet t .HLT_CNT_ENG_FAULT 0 = ctrGet s .HLT_CNT_ENG_FAULT 0 + 1 ∧
        OnlyChanges [.regs, .held, .events, .counters, .irq, .outbox, .fresh, .health, .obs, .bob, .mem, .selv, .cco, .seam, .plt, .bast, .line, .fab] s t)) ∧
  (∀ (s : State) (ctx : Nat),
      ctx < 512 →
      ctxBusy s ctx = true →
      ctxPaused s ctx = false →
      (engGet s (ctx / 16)).state = .resetting →
      Completes (.ctxWatchdogExpiry ctx) s (fun t => t.health = { s.health with lastEng := ctx / 16, lastCtx := ctx % 16, detectors := s.health.detectors ||| 2 } ∧
        Happened s t .SEAM_CTX_EVENT ctx 1 ∧ OnlyChanges [.events, .irq, .outbox, .health] s t)) ∧
  (∀ (s : State) (ctx : Nat),
      512 ≤ ctx ∨ ctxBusy s ctx = false ∨ ctxPaused s ctx = true →
      Completes (.ctxWatchdogExpiry ctx) s (fun t => t = s)) ∧
  (∀ (s : State) (e : Nat),
      Canon s →
      (engGet s e).state = .resetting →
      (engGet s e).trial.isSome = true →
      Completes (.engineResetDone e) s (fun t => engGet t e = { engGet s e with state := .normal, trial := none } ∧ (∀ m, m ≠ e → engGet t m = engGet s m) ∧
        OnlyChanges [.counters, .outbox, .obs, .cco, .seam, .bast, .fab] s t)) ∧
  (∀ (s : State) (e : Nat),
      (engGet s e).state = .resetting →
      (engGet s e).trial = none →
      domReady s (engDom e) = false →
      Completes (.engineResetDone e) s (fun t => engGet t e = { engGet s e with state := .normal, suspects := [], chunks := [] } ∧
        (∀ m, m ≠ e → engGet t m = engGet s m) ∧ OnlyChanges [.seam] s t)) ∧
  (∀ (s : State) (e k : Nat) (l : List Nat),
      (engGet s e).state = .resetting →
      (engGet s e).trial = none →
      domReady s (engDom e) = true →
      (engGet s e).suspects = k :: l →
      Completes (.engineResetDone e) s (fun t => engGet t e = { engGet s e with state := .trial, trial := some k, suspects := l, passed := [] } ∧
        (∀ m, m ≠ e → engGet t m = engGet s m) ∧ OnlyChanges [.counters, .outbox, .obs, .cco, .seam, .bast, .fab] s t)) ∧
  (∀ (s : State) (e : Nat),
      Canon s →
      (engGet s e).state = .resetting →
      (engGet s e).trial = none →
      domReady s (engDom e) = true →
      (engGet s e).suspects = [] →
      Completes (.engineResetDone e) s (fun t => ((engGet t e).state = .normal ∨ (engGet t e).state = .fenced) ∧ (engGet t e).trial = none ∧ (engGet t e).chunks = [] ∧
        ((engGet s e).faults.length < 3 → (engGet t e).state = .normal) ∧
        (3 ≤ (engGet s e).faults.length → (∀ f x, f ∈ (engGet s e).faults → (engGet s e).faults.head? = some x → x < f + 1000000) → (engGet t e).state = .fenced) ∧
        ctrGet t .HLT_CNT_TRANSIENT 0 = ctrGet s .HLT_CNT_TRANSIENT 0 + 1 ∧ (∀ m, m ≠ e → engGet t m = engGet s m) ∧ OnlyChanges [.regs, .held, .events, .counters, .irq, .outbox, .fresh, .obs, .bob, .mem, .selv, .cco, .seam, .plt, .bast, .line, .fab] s t)) ∧
  (∀ (s : State) (e k : Nat) (l : List Nat),
      (engGet s e).state = .trial →
      (engGet s e).suspects = k :: l →
      Completes (.trialTimeout e) s (fun t => engGet t e = { engGet s e with state := .trial, trial := some k, suspects := l, passed := [] } ∧
        (∀ m, m ≠ e → engGet t m = engGet s m) ∧ OnlyChanges [.counters, .outbox, .obs, .cco, .seam, .bast, .fab] s t)) ∧
  (∀ (s : State) (e : Nat),
      Canon s →
      (engGet s e).state = .trial →
      (engGet s e).suspects = [] →
      Completes (.trialTimeout e) s (fun t => ((engGet t e).state = .normal ∨ (engGet t e).state = .fenced) ∧ (engGet t e).trial = none ∧ (engGet t e).chunks = [] ∧
        ((engGet s e).faults.length < 3 → (engGet t e).state = .normal) ∧
        (3 ≤ (engGet s e).faults.length → (∀ f x, f ∈ (engGet s e).faults → (engGet s e).faults.head? = some x → x < f + 1000000) → (engGet t e).state = .fenced) ∧
        ctrGet t .HLT_CNT_TRANSIENT 0 = ctrGet s .HLT_CNT_TRANSIENT 0 + 1 ∧ (∀ m, m ≠ e → engGet t m = engGet s m) ∧ OnlyChanges [.regs, .held, .events, .counters, .irq, .outbox, .fresh, .obs, .bob, .mem, .selv, .cco, .seam, .plt, .bast, .line, .fab] s t)) ∧
  (∀ (s : State) (e : Nat),
      (engGet s e).state ≠ .resetting →
      (engGet s e).state ≠ .trial →
      Completes (.engineResetDone e) s (fun t => t = s) ∧ Completes (.trialTimeout e) s (fun t => t = s)) ∧
  (∀ (s : State) (req : Requester) (eng : Nat) (pass : Bool),
      Canon s →
      Arrives s req .HLT_CMD 0 = true →
      (engGet s (eng % 32)).state = .fenced →
      Completes (.unfence req eng pass) s (fun t => engGet t (eng % 32) = (if pass = true then { engGet s (eng % 32) with state := .normal, verdicts := [], faults := [] } else engGet s (eng % 32)) ∧
        (∀ m, m ≠ eng % 32 → engGet t m = engGet s m) ∧ (pass = false → t = s) ∧ OnlyChanges [.counters, .outbox, .obs, .cco, .seam, .bast, .fab] s t)) ∧
  (∀ (s : State) (req : Requester) (eng : Nat) (pass : Bool),
      Arrives s req .HLT_CMD 0 = true →
      (engGet s (eng % 32)).state ≠ .fenced →
      Completes (.unfence req eng pass) s (fun t => t = s))

/-- Domains drain, go off and return as commanded, and a recovery of one drains and resets it. PWR_DOM_CMD.OFF drains an ON domain, ON starts an
OFF one with its counters at 0; one that has nothing to do changes nothing, and a refused one records its cause with PWR_EVENT.REFUSED.
DRAIN_TIMEOUT switches a DRAINING domain off, or in a recovery resets it. DOMAIN_ON_DONE makes a starting or reset domain ON. DOM_RECOVER of
an ON domain, the first in ten seconds, drains it as a recovery, counted and recorded; a second one within ten seconds, and any of PD11, is a device recovery, and
one of a domain that takes no command is refused as DOMAIN_OFF is. (R440, R441, R442, R446, R448, R450) -/
def Obligations.PowerDomains : Prop :=
  (∀ (s : State) (req : Requester) (d : Nat),
      Arrives s req .PWR_DOM_CMD d = true →
      domRefusal s d true = 0 →
      (domGet s d).state = .on →
      Completes (.domainOff req d) s (fun t => domGet t d = { domGet s d with state := .draining, recovery := false } ∧ (∀ m, m ≠ d → domGet t m = domGet s m) ∧
        OnlyChanges [.events, .counters, .irq, .outbox, .fresh, .pwr, .obs, .bob, .selv, .cco, .seam, .fab] s t)) ∧
  (∀ (s : State) (req : Requester) (d : Nat),
      Canon s →
      Arrives s req .PWR_DOM_CMD d = true →
      domRefusal s d false = 0 →
      (domGet s d).state = .off →
      Completes (.domainOn req d) s (fun t => domGet t d = { domGet s d with state := .starting } ∧ (∀ m, m ≠ d → domGet t m = domGet s m) ∧
        (∀ r i, (ridRow r).acc = .cnt → ctrGet t r i = if ridDom r i = some d then 0 else ctrGet s r i) ∧ OnlyChanges [.counters, .pwr] s t)) ∧
  (∀ (s : State) (req : Requester) (d : Nat),
      Arrives s req .PWR_DOM_CMD d = true →
      domRefusal s d true = 0 →
      ((domGet s d).state = .off → Completes (.domainOff req d) s (fun t => t = s)) ∧ ((domGet s d).state = .on → Completes (.domainOn req d) s (fun t => t = s))) ∧
  (∀ (s : State) (req : Requester) (d : Nat),
      Canon s →
      Arrives s req .PWR_DOM_CMD d = true →
      domRefusal s d true ≠ 0 →
      Completes (.domainOff req d) s (fun t => domGet t d = { domGet s d with cause := BitVec.ofNat 8 (domRefusal s d true) } ∧ (∀ m, m ≠ d → domGet t m = domGet s m) ∧
        Happened s t .PWR_EVENT 0 2 ∧ ctrGet t .PWR_CNT_ABSENT 0 = ctrGet s .PWR_CNT_ABSENT 0 + (if domRefusal s d true = 4 then 1 else 0) ∧
        OnlyChanges [.events, .counters, .irq, .outbox, .pwr] s t)) ∧
  (∀ (s : State) (req : Requester) (d : Nat),
      Canon s →
      Arrives s req .PWR_DOM_CMD d = true →
      domRefusal s d false ≠ 0 →
      Completes (.domainOn req d) s (fun t => domGet t d = { domGet s d with cause := BitVec.ofNat 8 (domRefusal s d false) } ∧ (∀ m, m ≠ d → domGet t m = domGet s m) ∧
        Happened s t .PWR_EVENT 0 2 ∧ ctrGet t .PWR_CNT_ABSENT 0 = ctrGet s .PWR_CNT_ABSENT 0 + (if domRefusal s d false = 4 then 1 else 0) ∧
        OnlyChanges [.events, .counters, .irq, .outbox, .pwr] s t)) ∧
  (∀ (s : State) (d : Nat),
      Canon s →
      (domGet s d).state = .draining →
      Completes (.drainTimeout d) s (fun t => domGet t d = { domGet s d with state := if (domGet s d).recovery = true then .resetting else .off } ∧ (∀ m, m ≠ d → domGet t m = domGet s m) ∧
        (evGet t .PWR_EVENT 0).bits.getLsbD 0 = true ∧ ((domGet s d).recovery = true → ∀ r i, (ridRow r).acc = .cnt → ridDom r i = some d → ctrGet t r i = 0) ∧
        OnlyChanges [.regs, .held, .events, .counters, .irq, .outbox, .fresh, .pwr, .obs, .bob, .mem, .thm, .selv, .cco, .seam, .plt, .fab, .bast, .line, .opt] s t)) ∧
  (∀ (s : State) (d : Nat),
      (domGet s d).state = .starting ∨ (domGet s d).state = .resetting →
      Completes (.domainOnDone d) s (fun t => domGet t d = { domGet s d with state := .on, recovery := false } ∧ (∀ m, m ≠ d → domGet t m = domGet s m) ∧
        (evGet t .PWR_EVENT 0).bits.getLsbD 1 = true ∧ (s.health.tier = 2 → s.health.dom = d → t.health.tier = 0) ∧
        OnlyChanges [.events, .counters, .irq, .outbox, .fresh, .pwr, .health, .obs, .bob, .selv, .cco, .seam, .fab, .bast, .line, .opt] s t)) ∧
  (∀ (s : State) (d : Nat),
      (domGet s d).state = .on ∨ (domGet s d).state = .off →
      Completes (.drainTimeout d) s (fun t => t = s) ∧ Completes (.domainOnDone d) s (fun t => t = s)) ∧
  (∀ (s : State) (req : Requester) (d : Nat),
      Canon s →
      Arrives s req .HLT_CMD 0 = true →
      d < 24 →
      d ≠ 11 →
      domRefusal s d true = 0 →
      (domGet s d).state = .on →
      s.boot.recovering = false →
      (∀ x, (domGet s d).lastRecov = some x → x + 10000000 ≤ s.localUs) →
      Completes (.domRecover req d) s (fun t => domGet t d = { domGet s d with state := .draining, recovery := true, lastRecov := some s.localUs } ∧ (∀ m, m ≠ d → domGet t m = domGet s m) ∧
        t.health = { s.health with tier := 2, dom := d } ∧ ctrGet t .HLT_CNT_SUBSYS 0 = ctrGet s .HLT_CNT_SUBSYS 0 + 1 ∧
        OnlyChanges [.events, .counters, .irq, .outbox, .fresh, .pwr, .health, .obs, .bob, .selv, .cco, .seam, .fab] s t)) ∧
  (∀ (s : State) (req : Requester) (d : Nat),
      Arrives s req .HLT_CMD 0 = true →
      d < 2 ∨ 24 ≤ d →
      Completes (.domRecover req d) s (fun t => t = s)) ∧
  (∀ (s : State) (req : Requester) (d : Nat),
      Canon s →
      Arrives s req .HLT_CMD 0 = true →
      2 ≤ d →
      d < 24 →
      domRefusal s d true ≠ 0 →
      Completes (.domRecover req d) s (fun t => domGet t d = { domGet s d with cause := BitVec.ofNat 8 (domRefusal s d true) } ∧ (∀ m, m ≠ d → domGet t m = domGet s m) ∧
        Happened s t .PWR_EVENT 0 2 ∧ OnlyChanges [.events, .counters, .irq, .outbox, .pwr] s t)) ∧
  (∀ (s : State) (req : Requester) (d : Nat),
      Canon s →
      Arrives s req .HLT_CMD 0 = true →
      d < 24 →
      d ≠ 11 →
      domRefusal s d true = 0 →
      (domGet s d).state = .off →
      (∀ x, (domGet s d).lastRecov = some x → x + 10000000 ≤ s.localUs) →
      Completes (.domRecover req d) s (fun t => t = s)) ∧
  (∀ (s : State) (req : Requester) (d : Nat),
      Canon s →
      Arrives s req .HLT_CMD 0 = true →
      2 ≤ d →
      d < 24 →
      domRefusal s d true = 0 →
      d = 11 ∨ (∃ u, (domGet s d).lastRecov = some u ∧ s.localUs < u + 10000000) →
      s.boot.porst = false →
      s.boot.recovering = false →
      s.boot.stage ≠ 15 →
      Completes (.domRecover req d) s (fun t => t.boot.recovering = true ∧ t.boot.stage = 2 ∧ t.health.tier = 3 ∧ t.health.startUs = s.localUs ∧ t.cco.colls = [] ∧
        t.pending = s.pending ∧ t.localUs = s.localUs ∧ ctrGet t .HLT_CNT_DEVICE 0 = ctrGet s .HLT_CNT_DEVICE 0 + 1))

/-- Device recovery resets all but what it keeps and ends with long-haul service; self-tests run where they may; swatches are copied to the log.
DEV_RECOVER, and CTL_WDOG with its event, put everything at its reset value but the time base, flash, pins and what else survives, and
record the start. DEVICE_RECOVERY_DONE at stage 7 records the duration. ENG_TEST of a FENCED engine in MANUFACTURE or PRODUCTION, and
EXTENDED in safe state in MANUFACTURE or FIELD_RETURN, start a run; else the command ends with its result. BIST_DONE records results and the
first unit that failed, and a passed ENG_TEST returns its engine. SWATCH_LOG_COPY programs the oldest uncopied record, passes one
that reads uncorrectable, opens a sector, or has nothing to do. (R428, R432, R436, R439, R446, R462, R464, R465, R466, R470) -/
def Obligations.RecoveryAndSelfTest : Prop :=
  (∀ (s : State) (req : Requester),
      Canon s →
      Arrives s req .HLT_CMD 0 = true →
      s.boot.porst = false →
      s.boot.recovering = false →
      s.boot.stage ≠ 15 →
      Completes (.devRecover req) s (fun t => t.boot.recovering = true ∧ t.boot.stage = 2 ∧ t.health.tier = 3 ∧ t.health.startUs = s.localUs ∧ t.health.lastEng = 0 ∧ t.health.lastCtx = 0 ∧ t.health.detectors = 0 ∧ t.cco.colls = [] ∧ t.seam = State.reset.seam ∧ t.fab = State.reset.fab ∧ t.line = State.reset.line ∧ t.panels = [] ∧ t.held = [] ∧
        t.pending = s.pending ∧ t.flash = s.flash ∧ t.pins = s.pins ∧ t.localUs = s.localUs ∧ t.time = s.time ∧ (∀ r i, (ridRow r).blk = .TIME → regGet t r i = regGet s r i) ∧ ctrGet t .HLT_CNT_DEVICE 0 = ctrGet s .HLT_CNT_DEVICE 0 + 1 ∧ (∀ k, (selvGet t k).state = .closed ∧ (selvGet t k).gen = (selvGet s k).gen))) ∧
  (∀ (s : State),
      s.boot.porst = false →
      s.boot.recovering = false →
      4 ≤ s.boot.stage.toNat →
      s.boot.stage ≠ 15 →
      Completes .ctlWdog s (fun t => t.boot.recovering = true ∧ t.boot.stage = 2 ∧ t.health.tier = 3 ∧ t.health.startUs = s.localUs ∧ t.health.lastEng = 0 ∧ t.health.lastCtx = 0 ∧ t.health.detectors = 0 ∧ t.cco.colls = [] ∧ t.seam = State.reset.seam ∧ t.fab = State.reset.fab ∧ t.line = State.reset.line ∧ t.panels = [] ∧ t.held = [] ∧
        t.pending = s.pending ∧ t.flash = s.flash ∧ t.pins = s.pins ∧ t.localUs = s.localUs ∧ t.time = s.time ∧ (∀ r i, (ridRow r).blk = .TIME → regGet t r i = regGet s r i) ∧ (evGet t .HLT_EVENT 0).bits.getLsbD 7 = true)) ∧
  (∀ (s : State) (req : Requester),
      reqLink s req = false →
      Completes (.devRecover req) s (fun t => t = s)) ∧
  (∀ (s : State),
      s.boot.stage.toNat < 4 ∨ s.boot.stage = 15 →
      Completes .ctlWdog s (fun t => t = s)) ∧
  (∀ (s : State) (req : Requester),
      Arrives s req .HLT_CMD 0 = true →
      s.boot.recovering = true →
      Completes (.devRecover req) s (fun t => t = s) ∧ Completes .ctlWdog s (fun t => t = s)) ∧
  (∀ (s : State),
      s.boot.recovering = true →
      s.boot.stage = 7 →
      Completes .deviceRecoveryDone s (fun t => t.boot = { s.boot with recovering := false } ∧
        t.health = { s.health with tier := 0, durMs := BitVec.ofNat 16 (min ((s.localUs - s.health.startUs) / 1000) 65535) } ∧
        Happened s t .HLT_EVENT 0 6 ∧ OnlyChanges [.events, .irq, .outbox, .boot, .health] s t)) ∧
  (∀ (s : State),
      s.boot.recovering = false ∨ s.boot.stage ≠ 7 →
      Completes .deviceRecoveryDone s (fun t => t = s)) ∧
  (∀ (s : State) (req : Requester) (e : Nat),
      Arrives s req .BIST_CMD 0 = true →
      Completes (.engTest req e) s (fun t => t.bist = (if s.boot.lifecycle ≠ 1 ∧ s.boot.lifecycle ≠ 2 then { s.bist with cmdResult := 2 }
          else if s.bist.run ≠ .idle ∨ (engGet s (e % 32)).state ≠ .fenced then { s.bist with cmdResult := 3 } else { s.bist with run := .engTest (e % 32) }) ∧
        OnlyChanges [.bist] s t)) ∧
  (∀ (s : State) (req : Requester),
      Arrives s req .BIST_CMD 0 = true →
      Completes (.bistExtended req) s (fun t => t.bist = (if s.boot.lifecycle ≠ 1 ∧ s.boot.lifecycle ≠ 3 then { s.bist with cmdResult := 2 }
          else if s.bist.run ≠ .idle ∨ safeState s = false then { s.bist with cmdResult := 3 } else { s.bist with run := .extended }) ∧
        OnlyChanges [.bist] s t)) ∧
  (∀ (s : State) (l : List BistReport),
      s.bist.run = .extended →
      Completes (.bistDone l) s (fun t => t.bist.run = .idle ∧ t.bist.cmdResult = (if bistFailed l = true then 1 else 0) ∧
        (∀ u, (∀ r, r ∈ l → r.unit ≠ u) → tabGet ⟨0, 0, 0⟩ t.bist.units u = tabGet ⟨0, 0, 0⟩ s.bist.units u) ∧
        (bistFailed l = false → t.bist.firstFail = 0xFF) ∧ (evGet t .BIST_EVENT 0).bits.getLsbD 0 = true ∧ OnlyChanges [.events, .irq, .outbox, .bist] s t)) ∧
  (∀ (s : State) (e : Nat) (l : List BistReport),
      s.bist.run = .engTest e →
      l.filter (fun r => r.unit == e && reportOk r) = [] →
      Completes (.bistDone l) s (fun t => t = s)) ∧
  (∀ (s : State) (e : Nat) (l : List BistReport) (r : BistReport),
      Canon s →
      s.bist.run = .engTest e →
      l.filter (fun r => r.unit == e && reportOk r) = [r] →
      Completes (.bistDone l) s (fun t => t.bist.run = .idle ∧ tabGet ⟨0, 0, 0⟩ t.bist.units e = ⟨r.result, r.spares, r.sig⟩ ∧
        (r.result ≠ 3 → engGet t e = { engGet s e with state := .normal, verdicts := [], faults := [] } ∧ t.bist.cmdResult = 0 ∧ t.bist.firstFail = 0xFF) ∧
        (r.result = 3 → engGet t e = engGet s e ∧ t.bist.cmdResult = 1 ∧ t.bist.firstFail = BitVec.ofNat 8 e) ∧ (∀ m, m ≠ e → engGet t m = engGet s m) ∧
        OnlyChanges [.events, .counters, .irq, .outbox, .obs, .bist, .cco, .seam, .bast, .fab] s t)) ∧
  (∀ (s : State) (l : List BistReport),
      s.bist.run = .idle →
      Completes (.bistDone l) s (fun t => t = s)) ∧
  (∀ (s : State) (a b : Bool),
      s.flash.sizeMiB ≤ 64 ∨ s.flash.logWorn = true ∨ s.flash.busy = true ∨ s.health.swatchSeq.toNat < swatchNext s →
      Completes (.swatchLogCopy a b) s (fun t => t = s)) ∧
  (∀ (s : State) (a : Bool) (k : Nat),
      Canon s →
      64 < s.flash.sizeMiB →
      s.flash.logWorn = false →
      s.flash.busy = false →
      swatchNext s ≤ s.health.swatchSeq.toNat →
      s.flash.logSect = some k →
      s.flash.logRecs < 7 →
      ueIn s (swatchBase + 8192 * ((swatchNext s - 1) % 131072)) 8192 = none →
      Completes (.swatchLogCopy a true) s (fun t => t.health = { s.health with swatchFlash := BitVec.ofNat 32 (swatchNext s) } ∧ t.flash.logRecs = s.flash.logRecs + 1 ∧
        (∀ i, i < 8192 → tabGet flashBlank t.flash.cells (sectAddr k + 8192 * (1 + s.flash.logRecs) + i) = tabGet flashBlank s.flash.cells (sectAddr k + 8192 * (1 + s.flash.logRecs) + i) &&& hbmByte s (swatchBase + 8192 * ((swatchNext s - 1) % 131072) + i)) ∧
        (∀ j, j < sectAddr k + 8192 * (1 + s.flash.logRecs) ∨ sectAddr k + 8192 * (2 + s.flash.logRecs) ≤ j → tabGet flashBlank t.flash.cells j = tabGet flashBlank s.flash.cells j) ∧
        t.mem.cells = s.mem.cells ∧ ctrGet t .DBG_CNT_LOG_WRITE 0 = ctrGet s .DBG_CNT_LOG_WRITE 0 + 1 ∧ OnlyChanges [.events, .counters, .irq, .outbox, .flash, .health] s t)) ∧
  (∀ (s : State) (a b : Bool) (k x : Nat),
      64 < s.flash.sizeMiB →
      s.flash.logWorn = false →
      s.flash.busy = false →
      swatchNext s ≤ s.health.swatchSeq.toNat →
      s.flash.logSect = some k →
      s.flash.logRecs < 7 →
      ueIn s (swatchBase + 8192 * ((swatchNext s - 1) % 131072)) 8192 = some x →
      Completes (.swatchLogCopy a b) s (fun t => t.health = { s.health with swatchFlash := BitVec.ofNat 32 (swatchNext s) } ∧ t.flash = s.flash ∧
        OnlyChanges [.events, .counters, .irq, .outbox, .health, .mem] s t)) ∧
  (∀ (s : State) (k : Nat),
      Canon s →
      64 < s.flash.sizeMiB →
      s.flash.logWorn = false →
      s.flash.busy = false →
      swatchNext s ≤ s.health.swatchSeq.toNat →
      s.flash.logSect = none →
      logNext s = some k →
      (sectHdr s k).1 = false →
      logMaxErase s < 99998 →
      (sectList s).foldl (fun m h => max m h.2.2.1) 0 < 4294967295 →
      Completes (.swatchLogCopy true true) s (fun t => t.flash.logSect = some k ∧ t.flash.logRecs = 0 ∧ sectHdr t k = (true, logMaxErase s + 2, (sectList s).foldl (fun m h => max m h.2.2.1) 0 + 1, false) ∧
        (∀ j, j < sectAddr k ∨ sectAddr k + 65536 ≤ j → tabGet flashBlank t.flash.cells j = tabGet flashBlank s.flash.cells j) ∧ t.health = s.health ∧
        ctrGet t .DBG_CNT_LOG_ERASE 0 = ctrGet s .DBG_CNT_LOG_ERASE 0 + 1 ∧ OnlyChanges [.counters, .flash] s t))

/-- Every stitch that works on registers writes what its rule gives, goes on to its next stitch and is charged. NOP, SETL, BRANCH with its
counter at 0, 1 or more, IOTA, LOAD from scratch and accumulators, UNPACK, WIDEN, SCALE by lane, first lane or immediate, SUM of two
registers, GATHER from the contribution, the accumulators and scratch, SORT, TOPK, FILTER, CHECK, WAIT, NARROW without residuals and PACK of a register: with sources ready, the
invocation is at the next stitch with exactly the named register, counter or stream changed, the issue cycles charged, no other slot, chunk,
scratch area or part of the machine changed but the cells a PACK draws and the free values an UNPACK of an exact partial takes (log 43). (R80, R81, R90, R92, R93, R94, R95, R96, R97, R98, R99, R100) -/
def Obligations.StitchesOnRegisters : Prop :=
  (∀ (s : State) (eng slot : Nat) (v : Env),
      Canon s →
      Issues s eng slot 0 v →
      Completes (.stitchNop eng slot) s (fun t => Stitched s t v (v.x) (v.x.pc + 1) (1) ∧ SeamKept s t)) ∧
  (∀ (s : State) (eng slot : Nat) (v : Env),
      Canon s →
      Issues s eng slot 2 v →
      Completes (.stitchSetl eng slot) s (fun t => Stitched s t v ({ v.x with loops := tabSet ⟨0, 0⟩ v.x.loops (immSel v.t) ⟨immBf v.t 29 16, immBf v.t 11 0⟩ }) (v.x.pc + 1) (1) ∧ SeamKept s t)) ∧
  (∀ (s : State) (eng slot : Nat) (v : Env),
      Canon s →
      Issues s eng slot 35 v →
      (tabGet ⟨0, 0⟩ v.x.loops (immSel v.t)).trips = 0 →
      Completes (.stitchBranch eng slot) s (fun t => Stitched s t v (v.x) (v.x.pc + 1) (1) ∧ SeamKept s t)) ∧
  (∀ (s : State) (eng slot : Nat) (v : Env),
      Canon s →
      Issues s eng slot 35 v →
      (tabGet ⟨0, 0⟩ v.x.loops (immSel v.t)).trips = 1 →
      Completes (.stitchBranch eng slot) s (fun t => Stitched s t v ({ v.x with loops := tabSet ⟨0, 0⟩ v.x.loops (immSel v.t) ⟨(tabGet ⟨0, 0⟩ v.x.loops (immSel v.t)).value, 0⟩ }) (v.x.pc + 1) (1) ∧ SeamKept s t)) ∧
  (∀ (s : State) (eng slot : Nat) (v : Env),
      Canon s →
      Issues s eng slot 35 v →
      2 ≤ (tabGet ⟨0, 0⟩ v.x.loops (immSel v.t)).trips →
      Completes (.stitchBranch eng slot) s (fun t => Stitched s t v ({ v.x with loops := tabSet ⟨0, 0⟩ v.x.loops (immSel v.t) ⟨((tabGet ⟨0, 0⟩ v.x.loops (immSel v.t)).value + immBf v.t 23 16) % 16384, (tabGet ⟨0, 0⟩ v.x.loops (immSel v.t)).trips - 1⟩ }) (v.x.pc - immBf v.t 7 0) (1) ∧ SeamKept s t)) ∧
  (∀ (s : State) (eng slot : Nat) (v : Env) (c : Coll),
      Canon s →
      Issues s eng slot 5 v →
      regsReady v.x [v.t.dst] = true →
      collFind s v.b.panel v.b.coll = some c →
      let n := vecLen v.b.elems (vaFirst v); Completes (.stitchIota eng slot) s (fun t => Stitched s t v (invSetReg v.x v.t.dst ⟨(List.range n).map (fun j => BitVec.ofNat 32 (256 * vaFirst v + (if immBf v.t 20 20 = 1 then v.b.chunk * c.chunkElems else 0) + j)), []⟩) (v.x.pc + 1) (if n = 0 then 0 else 1) ∧ SeamKept s t)) ∧
  (∀ (s : State) (eng slot : Nat) (v : Env),
      Canon s →
      Issues s eng slot 3 v →
      immSel v.t ≠ 1 →
      regsReady v.x [v.t.dst] = true →
      vaFirst v < 4 * ctxSpa s v.x.ctx →
      Completes (.stitchLoad eng slot none) s (fun t => Stitched s t v (invSetReg v.x v.t.dst ⟨tabGetList 0 (ctxGet s v.x.ctx).scratch (256 * vaFirst v) 256, []⟩) (v.x.pc + 1) (1) ∧ SeamKept s t)) ∧
  (∀ (s : State) (eng slot : Nat) (v : Env),
      Canon s →
      Issues s eng slot 3 v →
      immSel v.t = 1 →
      regsReady v.x [v.t.dst] = true →
      let l := ((v.b.acc.drop (256 * vaFirst v)).take (vecLen v.b.elems (vaFirst v))).map (accRound v.b.mode v.t.fa (envFtz v)); Completes (.stitchLoad eng slot none) s (fun t => Stitched s t v (withFlags (invSetReg v.x v.t.dst ⟨l.map Prod.fst, []⟩) (flOr (l.map Prod.snd))) (v.x.pc + 1) (if vecLen v.b.elems (vaFirst v) = 0 then 0 else if v.b.mode = 0 then 2 else 1) ∧ SeamKept s t)) ∧
  (∀ (s : State) (eng slot : Nat) (v : Env) (m : Msg),
      Canon s →
      Issues s eng slot 8 v →
      regsReady v.x [v.t.dst] = true →
      envMsg v = some m →
      m.whole = true →
      isXp m.data.fmt = false →
      let n := vecLen m.elems (vaFirst v); Completes (.stitchUnpack eng ⟨slot, none⟩) s (fun t => Stitched s t v (invSetReg v.x v.t.dst ⟨lanesTo n (m.data.raw.drop (256 * vaFirst v)), (m.data.scales.drop (256 * vaFirst v / 32)).take ((n + 31) / 32)⟩) (v.x.pc + 1) (if n = 0 then 0 else 1) ∧ SeamKept s t)) ∧
  (∀ (s : State) (eng slot : Nat) (v : Env) (m : Msg),
      Canon s →
      Issues s eng slot 8 v →
      regsReady v.x [v.t.dst] = true →
      envMsg v = some m →
      m.whole = true →
      isXp m.data.fmt = true →
      let n := vecLen m.elems (vaFirst v); Completes (.stitchUnpack eng ⟨slot, none⟩) s (fun t => (∃ l : List Word, l.length = n ∧ Stitched s t v (invSetReg v.x v.t.dst ⟨l, []⟩) (v.x.pc + 1) (if n = 0 then 0 else 1)) ∧
        t.seam.bolts = s.seam.bolts ∧ t.seam.ctxs = s.seam.ctxs ∧ OnlyChanges [.counters, .fresh, .seam] s t)) ∧
  (∀ (s : State) (eng slot : Nat) (v : Env),
      Canon s →
      Issues s eng slot 8 v →
      regsReady v.x [v.t.dst] = true →
      envMsg v = none →
      Completes (.stitchUnpack eng ⟨slot, none⟩) s (fun t => Stitched s t v (invSetReg v.x v.t.dst ⟨[], []⟩) (v.x.pc + 1) 0 ∧ SeamKept s t)) ∧
  (∀ (s : State) (eng slot : Nat) (v : Env),
      Canon s →
      Issues s eng slot 10 v →
      regsReady v.x [v.t.dst, v.t.sa] = true →
      v.t.fa ≠ 7 →
      let l := (invReg v.x v.t.sa).lanes.zipIdx.map (fun p => widenBits v.t.fa (envFtz v) ((invReg v.x v.t.sa).scales.getD (p.2 / 32) 0) p.1); Completes (.stitchWiden eng ⟨slot, none⟩) s (fun t => Stitched s t v (withFlags (invSetReg v.x v.t.dst ⟨l.map Prod.fst, []⟩) (flOr (l.map Prod.snd))) (v.x.pc + 1) (1) ∧ SeamKept s t)) ∧
  (∀ (s : State) (eng slot : Nat) (v : Env),
      Canon s →
      Issues s eng slot 10 v →
      regsReady v.x [v.t.dst, v.t.sa] = true →
      v.t.fa = 7 →
      Completes (.stitchWiden eng ⟨slot, none⟩) s (fun t => Stitched s t v (withFlags (invSetReg v.x v.t.dst ⟨(invReg v.x v.t.sa).lanes.map (fun w => BitVec.ofInt 32 (intOf 8 w.toNat)), []⟩) (flOr ((invReg v.x v.t.sa).lanes.map (fun _ => flNone)))) (v.x.pc + 1) (1) ∧ SeamKept s t)) ∧
  (∀ (s : State) (eng slot : Nat) (v : Env),
      Canon s →
      Issues s eng slot 17 v →
      regsReady v.x [v.t.dst, v.t.sa, v.t.sb] = true →
      immSel v.t < 2 →
      let l := (invReg v.x v.t.sa).lanes.zipIdx.map (fun p => scaleOne v.t.fa v.t.fb (envFtz v) p.1 ((invReg v.x v.t.sb).lanes.getD (if immSel v.t = 0 then p.2 else 0) 0)); Completes (.stitchScale eng slot none) s (fun t => Stitched s t v (withFlags (invSetReg v.x v.t.dst ⟨l.map Prod.fst, []⟩) (flOr (l.map Prod.snd))) (v.x.pc + 1) (1) ∧ SeamKept s t)) ∧
  (∀ (s : State) (eng slot : Nat) (v : Env),
      Canon s →
      Issues s eng slot 17 v →
      regsReady v.x [v.t.dst, v.t.sa] = true →
      immSel v.t = 2 →
      let l := (invReg v.x v.t.sa).lanes.map (fun w => scaleOne v.t.fa v.t.fb (envFtz v) w (BitVec.ofNat 32 (immBf v.t 15 0))); Completes (.stitchScale eng slot none) s (fun t => Stitched s t v (withFlags (invSetReg v.x v.t.dst ⟨l.map Prod.fst, []⟩) (flOr (l.map Prod.snd))) (v.x.pc + 1) (1) ∧ SeamKept s t)) ∧
  (∀ (s : State) (eng slot : Nat) (v : Env),
      Canon s →
      Issues s eng slot 16 v →
      regsReady v.x [v.t.dst, v.t.sa, v.t.sb] = true →
      2 ≤ immSel v.t →
      (invReg v.x v.t.sa).lanes.length = (invReg v.x v.t.sb).lanes.length →
      let l := ((invReg v.x v.t.sa).lanes.zip (invReg v.x v.t.sb).lanes).map (fun p => if v.t.fa = 6 then sumInt32 p.1 p.2 else sumFp32 (envFtz v) p.1 p.2); Completes (.stitchSum eng slot none) s (fun t => Stitched s t v (withFlags (invSetReg v.x v.t.dst ⟨l.map Prod.fst, []⟩) (flOr (l.map Prod.snd))) (v.x.pc + 1) (1) ∧ SeamKept s t)) ∧
  (∀ (s : State) (eng slot : Nat) (v : Env),
      Canon s →
      Issues s eng slot 24 v →
      regsReady v.x [v.t.dst, v.t.sb] = true →
      immSel v.t = 2 →
      (invReg v.x v.t.sb).lanes.all (fun w => decide (w.toNat < 1024 * ctxSpa s v.x.ctx)) = true →
      Completes (.stitchGather eng slot none) s (fun t => Stitched s t v (withFlags (invSetReg v.x v.t.dst ⟨(invReg v.x v.t.sb).lanes.map (fun w => tabGet 0 (ctxGet s v.x.ctx).scratch w.toNat), []⟩) (flOr ((invReg v.x v.t.sb).lanes.map (fun _ => flNone)))) (v.x.pc + 1) (4) ∧ SeamKept s t)) ∧
  (∀ (s : State) (eng slot : Nat) (v : Env) (m : Msg),
      Canon s →
      Issues s eng slot 24 v →
      regsReady v.x [v.t.dst, v.t.sb] = true →
      immSel v.t = 0 →
      envMsg v = some m →
      m.whole = true →
      isXp m.data.fmt = false →
      (invReg v.x v.t.sb).lanes.all (fun w => decide (w.toNat < v.b.elems)) = true →
      let l := (invReg v.x v.t.sb).lanes.map (fun w => inElem (envFtz v) m.data w.toNat); Completes (.stitchGather eng slot none) s (fun t => Stitched s t v (withFlags (invSetReg v.x v.t.dst ⟨l.map Prod.fst, []⟩) (flOr (l.map Prod.snd))) (v.x.pc + 1) (4) ∧ SeamKept s t)) ∧
  (∀ (s : State) (eng slot : Nat) (v : Env),
      Canon s →
      Issues s eng slot 24 v →
      regsReady v.x [v.t.dst, v.t.sb] = true →
      immSel v.t = 1 →
      v.b.acc.length = v.b.elems →
      (invReg v.x v.t.sb).lanes.all (fun w => decide (w.toNat < v.b.elems)) = true →
      let l := (invReg v.x v.t.sb).lanes.map (fun w => accRound v.b.mode v.t.fa (envFtz v) (v.b.acc.getD w.toNat ⟨0, 0, none⟩)); Completes (.stitchGather eng slot none) s (fun t => Stitched s t v (withFlags (invSetReg v.x v.t.dst ⟨l.map Prod.fst, []⟩) (flOr (l.map Prod.snd))) (v.x.pc + 1) (8) ∧ SeamKept s t)) ∧
  (∀ (s : State) (eng slot : Nat) (v : Env),
      Canon s →
      Issues s eng slot 25 v →
      regsReady v.x [v.t.dst, v.t.dst + 1, v.t.sa, v.t.sb] = true →
      (invReg v.x v.t.sa).lanes.length = (invReg v.x v.t.sb).lanes.length →
      Completes (.stitchSort eng slot) s (fun t => Stitched s t v (setPair v (pairSort v.t.fa (immBf v.t 1 1 == 1) (immBf v.t 0 0 == 1) ((invReg v.x v.t.sa).lanes.zip (invReg v.x v.t.sb).lanes))) (v.x.pc + 1) (16) ∧ SeamKept s t)) ∧
  (∀ (s : State) (eng slot : Nat) (v : Env),
      Canon s →
      Issues s eng slot 26 v →
      regsReady v.x [v.t.dst, v.t.dst + 1, v.t.sa, v.t.sb] = true →
      let old := (invReg v.x v.t.dst).lanes; let pairs := old.zip (lanesTo old.length (invReg v.x (v.t.dst + 1)).lanes) ++ (invReg v.x v.t.sa).lanes.zip (lanesTo (invReg v.x v.t.sa).lanes.length (invReg v.x v.t.sb).lanes); Completes (.stitchTopk eng slot) s (fun t => Stitched s t v (setPair v ((pairSort v.t.fa (immBf v.t 9 9 == 1) true pairs).take (immBf v.t 8 0))) (v.x.pc + 1) (if immBf v.t 8 0 ≤ 64 then 16 else 32) ∧ SeamKept s t)) ∧
  (∀ (s : State) (eng slot : Nat) (v : Env),
      Canon s →
      Issues s eng slot 27 v →
      regsReady v.x [v.t.dst, v.t.dst + 1, v.t.sa, v.t.sb] = true →
      (invReg v.x v.t.sa).lanes.length = (invReg v.x v.t.sb).lanes.length →
      Completes (.stitchFilter eng slot) s (fun t => Stitched s t v (setPair v (((invReg v.x v.t.sa).lanes.zip (invReg v.x v.t.sb).lanes).filter (fun p => filterPass (immBf v.t 16 16 == 1) (immBf v.t 15 0) p.1))) (v.x.pc + 1) (2) ∧ SeamKept s t)) ∧
  (∀ (s : State) (eng slot : Nat) (v : Env),
      Canon s →
      Issues s eng slot 32 v →
      immBf v.t 1 0 = 0 ∧ mayWrite v = true ∨ immBf v.t 1 0 ≠ 0 ∧ regsReady v.x [v.t.sa] = true ∧ ascending ((invReg v.x v.t.sa).lanes.map (fun w => w.toNat)) = true ∧ ((invReg v.x v.t.sa).lanes.all (fun w => decide (w.toNat < v.b.elems))) = true →
      Completes (.stitchCheck eng slot) s (fun t => Stitched s t v (v.x) (v.x.pc + 1) (1) ∧ SeamKept s t)) ∧
  (∀ (s : State) (eng slot : Nat) (v : Env),
      Canon s →
      Issues s eng slot 34 v →
      (immBf v.t 0 0 = 1 → mayWrite v = true) →
      (immBf v.t 1 1 = 1 → remPending s v = false) →
      (immBf v.t 2 2 = 1 → v.x.plt = 0) →
      (immBf v.t 3 3 = 1 → v.x.emits = []) →
      Completes (.stitchWait eng slot) s (fun t => Stitched s t v (v.x) (v.x.pc + 1) (1) ∧ SeamKept s t)) ∧
  (∀ (s : State) (eng slot : Nat) (v : Env),
      Canon s →
      Issues s eng slot 11 v →
      immBf v.t 31 31 = 0 →
      v.t.fb ≠ 10 →
      regsReady v.x [v.t.dst, v.t.sa] = true →
      (isMx v.t.fb = true → (invReg v.x v.t.sa).lanes.length % 32 = 0) →
      let p := narrowLanes v.t.fb (envFtz v) false ((invReg v.x v.t.sa).lanes.zipIdx.map (fun p => narrowIn p.1 0)); Completes (.stitchNarrow eng ⟨slot, none⟩) s (fun t => Stitched s t v (withFlags (invSetReg v.x v.t.dst p.1) p.2.2) (v.x.pc + 1) (2) ∧ SeamKept s t)) ∧
  (∀ (s : State) (eng slot : Nat) (v : Env),
      Canon s →
      Issues s eng slot 9 v →
      mayWrite v = true →
      immSel v.t ≠ 1 →
      regsReady v.x [v.t.sa] = true →
      (invReg v.x v.t.sa).lanes = [] →
      Completes (.stitchPack eng slot none) s (fun t => Stitched s t v (v.x) (v.x.pc + 1) (1) ∧ SeamKept s t)) ∧
  (∀ (s : State) (eng slot : Nat) (v : Env),
      Canon s →
      Issues s eng slot 9 v →
      mayWrite v = true →
      immSel v.t ≠ 1 →
      regsReady v.x [v.t.sa] = true →
      (invReg v.x v.t.sa).lanes ≠ [] →
      v.t.fa ≠ 11 →
      isMx v.t.fa = false →
      v.x.out.fmt = none ∨ v.x.out.fmt = some v.t.fa →
      (∃ h, v.x.bobbin = some h ∧ ∀ off, off < 65536 → off % 64 = 0 → handleCheck s h off = 0) →
      let p := packLanes v (invReg v.x v.t.sa);
      let o := { v.x.out with fmt := some v.t.fa, raw := v.x.out.raw ++ p.1 };
      streamBytes o ≤ 65536 →
      Completes (.stitchPack eng slot none) s (fun t => Stitched s t v { withFlags v.x p.2 with out := o } (v.x.pc + 1) 1 ∧
        t.bob = { s.bob with cellsUsed := s.bob.cellsUsed - cellsOf (streamBytes v.x.out) + cellsOf (streamBytes o) } ∧
        t.seam.bolts = s.seam.bolts ∧ t.seam.ctxs = s.seam.ctxs ∧ t.seam.remq = s.seam.remq ∧ t.seam.ring = s.seam.ring ∧ OnlyChanges [.counters, .bob, .seam] s t))

/-- Stitches change accumulators and scratch areas, wait, fault and end as their rules say; invocations are dispatched, resumed and released.
SUM of the contribution or of a register changes exactly the accumulators it adds to; STORE the scratch words; GATHER out of range gives
zeros, counted. END of an ARRIVE invocation counts its contribution with its flags. EMIT hands the stream on and goes on, its stream waiting
while the parent's credit does not cover it. NARROW with residuals adds them and asks for the new ones to be written. A stitch with a source not ready stalls, one before the whole message is held; faults end the
invocation and fault its context. In a SUM from a
register a double-bit error is an engine fault, a single-bit error is corrected and counted, and a residue is a fault only where it is checked. A dispatch starts the oldest
queued invocation of the panel at its entry. (R70, R81, R85, R90, R93, R99, R103, R104, R105, R106, R108, R112) -/
def Obligations.StitchesOnChunks : Prop :=
  (∀ (s : State) (eng slot : Nat) (v : Env) (m : Msg),
      Canon s →
      Issues s eng slot 16 v →
      immSel v.t = 0 →
      envMsg v = some m →
      m.whole = true →
      let a := vecSpan (min m.elems v.b.elems) (vaFirst v) (vaCount v.t); let adds := ((m.data.raw.zipIdx.drop a.1).take (a.2.1 - a.1)).map (fun p => (p.1, m.data.scales.getD (p.2 / 32) 0));
      let r := if isXp m.data.fmt = true then accRange v.b.acc a.1 ((m.data.xp.drop a.1).take (a.2.1 - a.1)) addXp else accRange v.b.acc a.1 adds (addVal v.b.mode m.data.fmt (envFtz v));
      Completes (.stitchSum eng slot none) s (fun t => Stitched s t v (withFlags v.x r.2) (v.x.pc + 1) (((List.range a.2.2).map (fun j => sumCost v.b m (vaFirst v + j))).sum) ∧ boltGet t v.k = some { v.b with acc := r.1 } ∧
        (∀ k, k ≠ v.k → boltGet t k = boltGet s k) ∧ t.seam.ctxs = s.seam.ctxs ∧ OnlyChanges [.counters, .seam] s t)) ∧
  (∀ (s : State) (eng slot : Nat) (v : Env),
      Canon s →
      Issues s eng slot 16 v →
      immSel v.t = 1 →
      mayWrite v = true →
      regsReady v.x [v.t.sa] = true →
      v.t.fa ≠ 6 ∨ v.b.mode = 0 →
      let a := vecSpan v.b.elems (vaFirst v) 1; let r := accRange v.b.acc a.1 (((invReg v.x v.t.sa).lanes.take (a.2.1 - a.1)).map (fun w => (w, (0 : Byte)))) (addVal v.b.mode v.t.fa (envFtz v)); Completes (.stitchSum eng slot none) s (fun t => Stitched s t v (withFlags v.x r.2) (v.x.pc + 1) (a.2.2 * (if v.b.mode = 0 then 2 else 1)) ∧ boltGet t v.k = some { v.b with acc := r.1 } ∧
        (∀ k, k ≠ v.k → boltGet t k = boltGet s k) ∧ t.seam.ctxs = s.seam.ctxs ∧ OnlyChanges [.counters, .seam] s t)) ∧
  (∀ (s : State) (eng slot : Nat) (v : Env),
      Canon s →
      Issues s eng slot 4 v →
      mayWrite v = true →
      regsReady v.x [v.t.sa] = true →
      vaFirst v < 4 * ctxSpa s v.x.ctx →
      Completes (.stitchStore eng slot none) s (fun t => Stitched s t v v.x (v.x.pc + 1) 1 ∧
        ctxGet t v.x.ctx = { ctxGet s v.x.ctx with scratch := tabSetList 0 (ctxGet s v.x.ctx).scratch (256 * vaFirst v) (lanesTo 256 (invReg v.x v.t.sa).lanes) } ∧
        (∀ k, k ≠ v.x.ctx → ctxGet t k = ctxGet s k) ∧ t.seam.bolts = s.seam.bolts ∧ OnlyChanges [.counters, .seam] s t)) ∧
  (∀ (s : State) (eng slot : Nat) (v : Env),
      Canon s →
      Issues s eng slot 0x18 v →
      regsReady v.x [v.t.dst, v.t.sb] = true →
      immSel v.t = 2 →
      (invReg v.x v.t.sb).lanes.all (fun w => decide (1024 * ctxSpa s v.x.ctx ≤ w.toNat)) = true →
      (invReg v.x v.t.sb).lanes ≠ [] →
      Completes (.stitchGather eng slot none) s (fun t => Stitched s t v (withFlags (invSetReg v.x v.t.dst ⟨(invReg v.x v.t.sb).lanes.map (fun _ => 0), []⟩) (flOr ((invReg v.x v.t.sb).lanes.map (fun _ => flNone)))) (v.x.pc + 1) 4 ∧
        ctrGet t .SEAM_CNT_IDX_OOR (v.i / 8) = ctrGet s .SEAM_CNT_IDX_OOR (v.i / 8) + BitVec.ofNat 64 (invReg v.x v.t.sb).lanes.length ∧ Happened s t .SEAM_CTX_EVENT v.x.ctx 2 ∧
        OnlyChanges [.events, .counters, .irq, .outbox, .seam] s t)) ∧
  (∀ (s : State) (eng slot : Nat) (v : Env),
      Canon s →
      Issues s eng slot 1 v →
      v.x.done = false →
      streamEmpty v.x.out = true →
      v.x.emits = [] →
      v.x.plt = 0 →
      remPending s v = false →
      v.b.state = .open →
      Completes (.stitchEnd eng slot) s (fun t => runOf t v.i = none ∧ (∀ j, j ≠ v.i → slotGet t j = slotGet s j) ∧
        (∃ a, boltGet t v.k = some { v.b with
          msgs := v.b.msgs.filter (fun m => m.index != v.x.index), counted := v.b.counted ++ [v.x.index], age := a,
          flags := v.b.flags ||| (v.b.msgs.filter (fun m => m.index == v.x.index)).foldl (fun f m => f ||| m.flags) v.x.flags }) ∧
        (∀ k, k ≠ v.k → boltGet t k = boltGet s k) ∧ t.seam.ctxs = s.seam.ctxs ∧
        OnlyChanges [.events, .counters, .irq, .outbox, .fresh, .bob, .seam, .plt, .fab] s t)) ∧
  (∀ (s : State) (eng slot : Nat) (v : Env),
      Canon s →
      Issues s eng slot 1 v →
      v.x.done = true →
      streamEmpty v.x.out = true →
      v.x.emits = [] →
      v.x.plt = 0 →
      remPending s v = false →
      v.b.state = .done →
      v.b.ctx / 16 = eng →
      Completes (.stitchEnd eng slot) s (fun t => runOf t v.i = none ∧ (∀ b, boltGet t v.k = some b → b.state = .reserved))) ∧
  (∀ (s : State) (eng slot : Nat) (v : Env),
      Canon s →
      Issues s eng slot 1 v →
      streamEmpty v.x.out = true →
      v.x.emits = [] →
      0 < v.x.plt ∨ remPending s v = true →
      Completes (.stitchEnd eng slot) s (fun t => runOf t v.i = some { v.x with stall := true } ∧ (∀ j, j ≠ v.i → slotGet t j = slotGet s j) ∧
        ctrGet t .SEAM_CNT_STALL (v.i / 8) = ctrGet s .SEAM_CNT_STALL (v.i / 8) + 1 ∧ SeamKept s t)) ∧
  (∀ (s : State) (eng slot : Nat) (v : Env),
      Canon s →
      Issues s eng slot 0x21 v →
      mayWrite v = true →
      v.x.out.pleat.all (fun p => p.isSome) = true →
      v.x.out.idx = [] ∨ v.x.out.idx.length = streamCount v.x.out →
      (isMx (v.x.out.fmt.getD 0) = true → v.x.out.raw.length % 32 = 0) →
      (streamEmpty v.x.out = true → immSel v.t < 2) →
      immSel v.t ≠ 1 →
      Completes (.stitchEmit eng slot) s (fun t => t = charge (tryEmits v.i (v.x.emits.length + 2) (runSet s v.i (some { v.x with out := emptyStream, bobbin := none, emits := v.x.emits ++ [⟨immSel v.t, immBf v.t 12 0, v.x.out, v.x.bobbin⟩], pc := v.x.pc + 1, stall := false }))) (v.i / 8) v.b.panel 1)) ∧
  (∀ (s : State) (eng slot : Nat) (v : Env) (k : Nat),
      Canon s →
      Issues s eng slot 0x21 v →
      mayWrite v = true →
      v.x.out.pleat.all (fun p => p.isSome) = true →
      v.x.out.idx = [] ∨ v.x.out.idx.length = streamCount v.x.out →
      (isMx (v.x.out.fmt.getD 0) = true → v.x.out.raw.length % 32 = 0) →
      (streamEmpty v.x.out = true → immSel v.t < 2) →
      immSel v.t = 1 →
      ctxNext s v.x.ctx = some k →
      nextTakes s v k (v.x.out.fmt.getD (arithOut v.b.arith)) = true →
      Completes (.stitchEmit eng slot) s (fun t => t = charge (tryEmits v.i (v.x.emits.length + 2) (runSet s v.i (some { v.x with out := emptyStream, bobbin := none, emits := v.x.emits ++ [⟨immSel v.t, immBf v.t 12 0, v.x.out, v.x.bobbin⟩], pc := v.x.pc + 1, stall := false }))) (v.i / 8) v.b.panel 1)) ∧
  (∀ (s : State) (eng slot : Nat) (v : Env) (c : Coll),
      Canon s →
      Issues s eng slot 0x21 v →
      mayWrite v = true →
      v.x.out.pleat.all (fun p => p.isSome) = true →
      v.x.out.idx = [] ∨ v.x.out.idx.length = streamCount v.x.out →
      (isMx (v.x.out.fmt.getD 0) = true → v.x.out.raw.length % 32 = 0) →
      (streamEmpty v.x.out = true → immSel v.t < 2) →
      immSel v.t = 0 →
      v.x.emits = [] →
      v.b.state ≠ .aborting →
      collFind s v.b.panel v.b.coll = some c →
      upCovered c v.b.epoch v.b.chunk = false →
      Completes (.stitchEmit eng slot) s (fun t => runOf t v.i = some { v.x with out := emptyStream, bobbin := none, emits := v.x.emits ++ [⟨immSel v.t, immBf v.t 12 0, v.x.out, v.x.bobbin⟩], pc := v.x.pc + 1, stall := false } ∧ (∀ j, j ≠ v.i → slotGet t j = slotGet s j) ∧ SeamKept s t)) ∧
  (∀ (s : State) (eng slot : Nat) (v : Env),
      Canon s →
      Issues s eng slot 3 v →
      regsReady v.x [v.t.dst] = false →
      Completes (.stitchLoad eng slot none) s (fun t => runOf t v.i = some { v.x with stall := true } ∧ (∀ j, j ≠ v.i → slotGet t j = slotGet s j) ∧
        ctrGet t .SEAM_CNT_STALL (v.i / 8) = ctrGet s .SEAM_CNT_STALL (v.i / 8) + 1 ∧ SeamKept s t)) ∧
  (∀ (s : State) (eng slot : Nat) (v : Env),
      Issues s eng slot 4 v →
      mayWrite v = false →
      Completes (.stitchStore eng slot none) s (fun t => runOf t v.i = some { v.x with held := true, stall := false } ∧ (∀ j, j ≠ v.i → slotGet t j = slotGet s j) ∧ OnlyChanges [.seam] s t)) ∧
  (∀ (s : State) (eng slot : Nat) (v : Env),
      Canon s →
      Issues s eng slot 3 v →
      immSel v.t ≠ 1 →
      regsReady v.x [v.t.dst] = true →
      4 * ctxSpa s v.x.ctx ≤ vaFirst v →
      Completes (.stitchLoad eng slot none) s (fun t => ProgFaulted t v 2)) ∧
  (∀ (s : State) (eng slot : Nat) (v : Env),
      Canon s →
      Issues s eng slot 0x19 v →
      regsReady v.x [v.t.dst, v.t.dst + 1, v.t.sa, v.t.sb] = true →
      (invReg v.x v.t.sa).lanes.length ≠ (invReg v.x v.t.sb).lanes.length →
      Completes (.stitchSort eng slot) s (fun t => ProgFaulted t v 1)) ∧
  (∀ (s : State) (eng slot : Nat) (v : Env),
      Canon s →
      Issues s eng slot 1 v →
      streamEmpty v.x.out = false →
      Completes (.stitchEnd eng slot) s (fun t => ProgFaulted t v 8)) ∧
  (∀ (s : State) (eng slot : Nat) (v : Env),
      Canon s →
      Issues s eng slot 0x10 v →
      immSel v.t = 1 →
      mayWrite v = true →
      regsReady v.x [v.t.sa] = true →
      v.t.fa ≠ 6 ∨ v.b.mode = 0 →
      (engGet s eng).state = .normal →
      (engGet s eng).trial = none →
      Completes (.stitchSum eng slot (some .doubleBit)) s (fun t => runOf t v.i = none ∧ (engGet t eng).state = .resetting ∧ t.health.lastEng = eng ∧ t.health.lastCtx = v.x.ctx % 16 ∧ t.health.detectors = 8) ∧
        (arithResidue v.b.arith = true →
          Completes (.stitchSum eng slot (some .residue)) s (fun t => runOf t v.i = none ∧ (engGet t eng).state = .resetting ∧ t.health.lastEng = eng ∧ t.health.lastCtx = v.x.ctx % 16 ∧ t.health.detectors = 4)) ∧
        Completes (.stitchSum eng slot (some .singleBit)) s (fun t => (engGet t eng).corrected = (engGet s eng).corrected + 1 ∧ Happened s t .SEAM_ENG_EVENT eng 3 ∧
          Completes (.stitchSum eng slot none) s (fun u => t.seam.bolts = u.seam.bolts ∧ t.seam.slots = u.seam.slots ∧ t.counters = u.counters))) ∧
  (∀ (s : State) (eng slot : Nat) (v : Env),
      Issues s eng slot 0x10 v →
      arithResidue v.b.arith = false →
      Completes (.stitchSum eng slot (some .residue)) s (fun t => t = issueOp s eng slot 0x10 none)) ∧
  (∀ (s : State) (eng slot : Nat) (v : Env),
      Canon s →
      envOf s (8 * eng + slot) = some v →
      slot < 8 →
      v.x.stall = true →
      v.x.emits = [] →
      engRuns s eng = true →
      v.t.op = 0x22 →
      immBf v.t 3 0 = 0 →
      (mayIssue (runSet s v.i (some { v.x with stall := false })) v.i = true →
        Completes (.stitchStallRelease eng ⟨slot, none⟩) s (fun t => Stitched s t v v.x (v.x.pc + 1) 1 ∧ SeamKept s t)) ∧
      (mayIssue (runSet s v.i (some { v.x with stall := false })) v.i = false →
        Completes (.stitchStallRelease eng ⟨slot, none⟩) s (fun t => runOf t v.i = some { v.x with stall := false } ∧ (∀ j, j ≠ v.i → slotGet t j = slotGet s j) ∧ OnlyChanges [.seam] s t))) ∧
  (∀ (s : State) (eng slot : Nat) (v : Env),
      Canon s →
      envOf s (8 * eng + slot) = some v →
      slot < 8 →
      v.x.stall = true →
      v.x.emits = [] →
      engRuns s eng = true →
      v.t.op = 3 →
      regsReady v.x [v.t.dst] = false →
      Completes (.stitchStallRelease eng ⟨slot, none⟩) s (fun t => t.seam.bolts = s.seam.bolts ∧ (∀ j, slotGet t j = slotGet s j) ∧ OnlyChanges [.seam] s t)) ∧
  (∀ (s u : State) (eng slot : Nat) (v : Env),
      u = tryEmits (8 * eng + slot) 64 s →
      envOf u (8 * eng + slot) = some v →
      slot < 8 →
      v.x.stall = true →
      engRuns u eng = true →
      (∀ s' x, stitchDo v.t.op v u ≠ .stall s' x) →
      Completes (.stitchStallRelease eng ⟨slot, none⟩) s (fun t =>
        t = (if mayIssue (runSet u v.i (some { v.x with stall := false })) v.i = true then settle (runSet u v.i (some { v.x with stall := false })) v (stitchDo v.t.op v (runSet u v.i (some { v.x with stall := false })))
          else runSet u v.i (some { v.x with stall := false })))) ∧
  (∀ (s : State) (eng slot : Nat) (v : Env),
      envOf s (8 * eng + slot) = some v →
      slot < 8 →
      v.x.held = true →
      mayWrite v = true →
      Completes (.arriveResume eng slot) s (fun t => runOf t v.i = some { v.x with held := false } ∧ (∀ j, j ≠ v.i → slotGet t j = slotGet s j) ∧ OnlyChanges [.seam] s t)) ∧
  (∀ (s : State) (eng slot : Nat) (v : Env),
      envOf s (8 * eng + slot) = some v →
      v.x.held = false ∨ mayWrite v = false ∨ 8 ≤ slot →
      Completes (.arriveResume eng slot) s (fun t => t = s)) ∧
  (∀ (s : State) (eng slot : Nat),
      runOf s (8 * eng + slot) = none →
      Completes (.arriveResume eng slot) s (fun t => t = s) ∧ Completes (.stitchStallRelease eng ⟨slot, none⟩) s (fun t => t = s) ∧ Completes (.stitchNop eng slot) s (fun t => t = s)) ∧
  (∀ (s : State) (eng slot panel : Nat),
      runOf s (8 * eng + slot) ≠ none ∨ 8 ≤ slot →
      Completes (.arriveDispatch eng slot panel) s (fun t => t = s) ∧ Completes (.doneDispatch eng slot panel) s (fun t => t = s)) ∧
  (∀ (s : State) (eng slot : Nat) (v : Env) (c : Coll) (q : SpanCfg) (r : List Word),
      Canon s →
      Issues s eng slot 11 v →
      immBf v.t 31 31 = 1 →
      v.t.fb ≠ 10 →
      mayWrite v = true →
      regsReady v.x [v.t.dst, v.t.sa] = true →
      (isMx v.t.fb = true → (invReg v.x v.t.sa).lanes.length % 32 = 0) →
      envRegion v s = some (c, q) →
      vecLen v.b.elems (vaFirst v) ≠ 0 →
      v.x.resid.lookup (vaFirst v) = some r →
      let p := narrowLanes v.t.fb (envFtz v) q.resFp32 ((invReg v.x v.t.sa).lanes.zipIdx.map (fun p => narrowIn p.1 ((r.map (residVal q)).getD p.2 0)));
      let data := (p.2.1.take (vecLen v.b.elems (vaFirst v))).flatMap (fun w => leBytes (resBytes q) w.toNat);
      Completes (.stitchNarrow eng ⟨slot, none⟩) s (fun t => Stitched s t v (withFlags (invSetReg v.x v.t.dst p.1) p.2.2) (v.x.pc + 1) (if q.resFp32 = true then 4 else 2) ∧
        t.seam.remq = s.seam.remq ++ [⟨v.i, v.x.num, true, vaFirst v, remWriteAddr v c q (vaFirst v), data, data.length⟩] ∧
        t.seam.bolts = s.seam.bolts ∧ t.seam.ctxs = s.seam.ctxs ∧ OnlyChanges [.counters, .seam] s t)) ∧
  (∀ (s : State) (eng slot panel : Nat) (c : Cand) (b : Bolt),
      Canon s →
      slot < 8 →
      runOf s (8 * eng + slot) = none →
      panelMay s eng ((slotQueue s (8 * eng + slot)).map (fun c => c.panel)) panel = true →
      candBest ((slotQueue s (8 * eng + slot)).filter (fun c => c.panel == panel)) = some c →
      c.done = false →
      boltGet s c.bolt = some b →
      Completes (.arriveDispatch eng slot panel) s (fun t => runOf t (8 * eng + slot) = some (newInv s.seam.age c b.ctx (bf (slotPage s (8 * eng + slot) b.gen).cfg 7 0)) ∧
        (∀ j, j ≠ 8 * eng + slot → slotGet t j = slotGet s j) ∧ boltGet t c.bolt = some { b with msgs := b.msgs.map (fun m => if m.index = c.index then { m with taken := true } else m) } ∧
        (∀ k, k ≠ c.bolt → boltGet t k = boltGet s k) ∧ tabGet 0 (engGet t eng).used panel = tabGet 0 (engGet s eng).used panel + 1 ∧
        ctrGet t .SEAM_CNT_INVOKE eng = ctrGet s .SEAM_CNT_INVOKE eng + 1 ∧ OnlyChanges [.counters, .seam] s t)) ∧
  (∀ (s : State) (eng slot panel : Nat) (c : Cand) (b : Bolt),
      Canon s →
      slot < 8 →
      runOf s (8 * eng + slot) = none →
      panelMay s eng ((slotQueue s (8 * eng + slot)).map (fun c => c.panel)) panel = true →
      candBest ((slotQueue s (8 * eng + slot)).filter (fun c => c.panel == panel)) = some c →
      c.done = true →
      boltGet s c.bolt = some b →
      Completes (.doneDispatch eng slot panel) s (fun t => runOf t (8 * eng + slot) = some (newInv s.seam.age c b.ctx (bf (slotPage s (8 * eng + slot) b.gen).cfg 15 8)) ∧
        (∀ j, j ≠ 8 * eng + slot → slotGet t j = slotGet s j) ∧ boltGet t c.bolt = some { b with state := .done, done := true } ∧
        (∀ k, k ≠ c.bolt → boltGet t k = boltGet s k) ∧ tabGet 0 (engGet t eng).used panel = tabGet 0 (engGet s eng).used panel + 1 ∧
        ctrGet t .SEAM_CNT_INVOKE eng = ctrGet s .SEAM_CNT_INVOKE eng + 1 ∧ OnlyChanges [.counters, .seam] s t))

/-- Programs load by commit and check, contexts bind, scratch words are written and read, the ring and the Remnant deliver. SP_DATA writes the
addressed word of an unbound context within its area, else sets SP_WRITE_REFUSED; either way, and on a read, SEAM_SP_ADDR advances; an error that SECDED corrects in a read word is counted, one that
it cannot is an engine fault (log 82). COMMIT
starts the check, CLEAR zeroes the standby page; both are turned away while busy. SLOT_CHECK_DONE makes an accepted page active under the
next GEN, or records the refusal. A held bind applies while no chunk is open, and an over-long chain is refused. Tallies halve. Remnant
accesses complete in order, within the share of the microsecond. A ring transfer joins its chunk as the contribution of the lower stage, or is
discarded and counted where the chunk has given its result. (R85, R86, R87, R106, R109, R110, R111, R112, R117, R183) -/
def Obligations.ProgramsAndScratch : Prop :=
  (∀ (s : State) (req : Requester) (e : Nat) (v : Word),
      Canon s →
      Arrives s req .SEAM_SP_DATA e = true →
      ctxBound s (spAddr s e).1 = false →
      (spAddr s e).2 < 1024 * ctxSpa s (spAddr s e).1 →
      Completes (.spDataWrite req ⟨e, none⟩ v) s (fun t => ctxGet t (spAddr s e).1 = { ctxGet s (spAddr s e).1 with scratch := tabSet 0 (ctxGet s (spAddr s e).1).scratch (spAddr s e).2 v } ∧ (∀ k, k ≠ (spAddr s e).1 → ctxGet t k = ctxGet s k) ∧
        regBf t .SEAM_SP_ADDR e 22 2 = (regBf s .SEAM_SP_ADDR e 22 2 + 1) % 2097152 ∧ regBf t .SEAM_SP_ADDR e 31 28 = regBf s .SEAM_SP_ADDR e 31 28 ∧ (∀ r i, r ≠ .SEAM_SP_ADDR ∨ i ≠ e → regGet t r i = regGet s r i) ∧ OnlyChanges [.regs, .seam] s t)) ∧
  (∀ (s : State) (req : Requester) (e : Nat) (v : Word),
      Canon s →
      Arrives s req .SEAM_SP_DATA e = true →
      ctxBound s (spAddr s e).1 = true ∨ 1024 * ctxSpa s (spAddr s e).1 ≤ (spAddr s e).2 →
      Completes (.spDataWrite req ⟨e, none⟩ v) s (fun t => regBf t .SEAM_SP_ADDR e 22 2 = (regBf s .SEAM_SP_ADDR e 22 2 + 1) % 2097152 ∧ regBf t .SEAM_SP_ADDR e 31 28 = regBf s .SEAM_SP_ADDR e 31 28 ∧ (∀ r i, r ≠ .SEAM_SP_ADDR ∨ i ≠ e → regGet t r i = regGet s r i) ∧ Happened s t .SEAM_ENG_EVENT e 1 ∧ OnlyChanges [.regs, .events, .irq, .outbox] s t)) ∧
  (∀ (s : State) (req : Requester) (e : Nat),
      Canon s →
      Arrives s req .SEAM_SP_DATA e = true →
      Completes (.spDataRead req ⟨e, none⟩) s (fun t => t.response = .word (if (spAddr s e).2 < 1024 * ctxSpa s (spAddr s e).1 then tabGet 0 (ctxGet s (spAddr s e).1).scratch (spAddr s e).2 else 0) ∧
        regBf t .SEAM_SP_ADDR e 22 2 = (regBf s .SEAM_SP_ADDR e 22 2 + 1) % 2097152 ∧ regBf t .SEAM_SP_ADDR e 31 28 = regBf s .SEAM_SP_ADDR e 31 28 ∧ (∀ r i, r ≠ .SEAM_SP_ADDR ∨ i ≠ e → regGet t r i = regGet s r i) ∧ OnlyChanges [.regs, .response] s t)) ∧
  (∀ (s : State) (req : Requester) (e : Nat),
      Canon s →
      Arrives s req .SEAM_SP_DATA e = true →
      (spAddr s e).2 < 1024 * ctxSpa s (spAddr s e).1 →
      Completes (.spDataRead req ⟨e, some .singleBit⟩) s (fun t => t.response = .word (tabGet 0 (ctxGet s (spAddr s e).1).scratch (spAddr s e).2) ∧
        (engGet t e).corrected = (engGet s e).corrected + 1 ∧ Happened s t .SEAM_ENG_EVENT e 3 ∧ OnlyChanges [.regs, .events, .irq, .response, .outbox, .seam] s t) ∧
      ((engGet s e).state = .normal → (engGet s e).trial = none →
        Completes (.spDataRead req ⟨e, some .doubleBit⟩) s (fun t => (engGet t e).state = .resetting ∧ t.health.lastEng = e ∧ t.health.detectors = 8 ∧ ∃ w, t.response = .word w))) ∧
  (∀ (s : State) (req : Requester) (i : Nat),
      Canon s →
      Arrives s req .SEAM_SLOT_CTRL i = true →
      Completes (.slotCommit req i) s (fun t => slotGet t i = (if slotBusy s i = true then { slotGet s i with errCause := 0x0B, errIndex := 0 } else { slotGet s i with checking := true }) ∧
        (∀ j, j ≠ i → slotGet t j = slotGet s j) ∧ OnlyChanges [.seam] s t)) ∧
  (∀ (s : State) (req : Requester) (i : Nat),
      Canon s →
      Arrives s req .SEAM_SLOT_CTRL i = true →
      slotBusy s i = false →
      Completes (.slotClear req i) s (fun t => (∀ k, regGet t .SEAM_SB_PAGE k = if k / 512 = i then 0 else regGet s .SEAM_SB_PAGE k) ∧
        (∀ r k, r ≠ .SEAM_SB_PAGE → regGet t r k = regGet s r k) ∧ OnlyChanges [.regs] s t)) ∧
  (∀ (s : State) (req : Requester) (i : Nat),
      Arrives s req .SEAM_SLOT_CTRL i = true →
      slotBusy s i = true →
      Completes (.slotClear req i) s (fun t => Happened s t .SEAM_ENG_EVENT (i / 8) 0 ∧ OnlyChanges [.events, .irq, .outbox] s t)) ∧
  (∀ (s : State) (i n : Nat),
      (slotGet s i).checking = true →
      slotVerdict s i = (0, n) →
      Completes (.slotCheckDone i) s (fun t => (slotGet t i).active = ⟨standbyPage s i, regGet s .SEAM_SLOT_SBCFG i, (slotGet s i).active.gen + 1⟩ ∧ (slotGet t i).checking = false ∧
        (slotGet t i).errCause = 0 ∧ (slotGet t i).valid = true ∧ (∀ j, j ≠ i → slotGet t j = slotGet s j) ∧
        ((slotGet t i).prev = none ∨ (slotGet t i).prev = some (slotGet s i).active) ∧ OnlyChanges [.regs, .counters, .outbox, .obs, .cco, .seam, .bast, .fab] s t)) ∧
  (∀ (s : State) (i : Nat),
      (slotGet s i).checking = false →
      Completes (.slotCheckDone i) s (fun t => t = s)) ∧
  (∀ (s : State) (i c k : Nat),
      Canon s →
      (slotGet s i).checking = true →
      slotVerdict s i = (c, k) →
      c ≠ 0 →
      Completes (.slotCheckDone i) s (fun t => slotGet t i = { slotGet s i with checking := false, errCause := BitVec.ofNat 8 c, errIndex := BitVec.ofNat 8 k } ∧
        (∀ j, j ≠ i → slotGet t j = slotGet s j) ∧ OnlyChanges [.seam] s t)) ∧
  (∀ (s : State) (k : Nat) (v : Word),
      Canon s →
      heldGet s .SEAM_CTX_BIND k = some v →
      ctxIdle s k = true →
      bit v 31 = true →
      chainsOk (regSet s .SEAM_CTX_BIND k v) = true →
      Completes (.ctxBindApply k) s (fun t => regGet t .SEAM_CTX_BIND k = v ∧ heldGet t .SEAM_CTX_BIND k = none ∧
        (∀ r i, r ≠ .SEAM_CTX_BIND ∨ i ≠ k → regGet t r i = regGet s r i ∧ heldGet t r i = heldGet s r i) ∧ t.seam.ctxs = s.seam.ctxs ∧
        OnlyChanges [.regs, .held, .counters, .outbox, .obs, .cco, .seam, .bast, .fab] s t)) ∧
  (∀ (s : State) (k : Nat) (v : Word),
      Canon s →
      heldGet s .SEAM_CTX_BIND k = some v →
      ctxIdle s k = true →
      bit v 31 = false →
      Completes (.ctxBindApply k) s (fun t => regGet t .SEAM_CTX_BIND k = v ∧ heldGet t .SEAM_CTX_BIND k = none ∧ ctxGet t k = { ctxGet s k with faulted := false } ∧
        (∀ j, j ≠ k → ctxGet t j = ctxGet s j) ∧ OnlyChanges [.regs, .held, .counters, .outbox, .obs, .cco, .seam, .bast, .fab] s t)) ∧
  (∀ (s : State) (k : Nat) (v : Word),
      Canon s →
      heldGet s .SEAM_CTX_BIND k = some v →
      ctxIdle s k = true →
      bit v 31 = true →
      chainsOk (regSet s .SEAM_CTX_BIND k v) = false →
      Completes (.ctxBindApply k) s (fun t => t.regs = s.regs ∧ (ctxGet t k).cause = 7 ∧ (∀ j, j ≠ k → ctxGet t j = ctxGet s j) ∧
        Happened s t .SEAM_CTX_EVENT k 0 ∧ OnlyChanges [.held, .events, .irq, .outbox, .seam] s t)) ∧
  (∀ (s : State) (k : Nat),
      heldGet s .SEAM_CTX_BIND k = none ∨ ctxIdle s k = false →
      Completes (.ctxBindApply k) s (fun t => t = s)) ∧
  (∀ (s : State) (e p : Nat),
      Canon s →
      p < 16 →
      Completes (.usedTallyHalving e) s (fun t => (2 ≤ tabGet 0 (engGet s e).used p ∨ tabWf 0 (engGet s e).used = true → tabGet 0 (engGet t e).used p = tabGet 0 (engGet s e).used p / 2) ∧ (engGet t e).state = (engGet s e).state ∧
        (∀ m, m ≠ e → engGet t m = engGet s m) ∧ OnlyChanges [.seam] s t)) ∧
  (∀ (s : State) (r : RemReq) (l : List RemReq) (x : Inv),
      Canon s →
      s.seam.remq = r :: l →
      runOf s r.slot = some x →
      x.num = r.inv →
      r.write = true →
      remWaiting s = false →
      ueInPart s r.addr r.len = none →
      Completes .remnantAccessDone s (fun t => t.seam = { s.seam with remq := l, remUsed := s.seam.remUsed + r.len } ∧ ctrGet t .MEM_REM_CNT_WR 0 = ctrGet s .MEM_REM_CNT_WR 0 + BitVec.ofNat 64 r.len ∧
        (∀ j, j < r.addr ∨ r.addr + r.data.length ≤ j → hbmByte t j = hbmByte s j) ∧ OnlyChanges [.events, .counters, .irq, .outbox, .mem, .seam] s t)) ∧
  (∀ (s : State) (r : RemReq) (l : List RemReq) (x : Inv) (b : Bolt),
      Canon s →
      s.seam.remq = r :: l →
      runOf s r.slot = some x →
      x.num = r.inv →
      r.write = false →
      remWaiting s = false →
      ueIn s r.addr r.len = none →
      boltGet s x.bolt = some b →
      Completes .remnantAccessDone s (fun t => runOf t r.slot = some { x with resid := tabSet [] x.resid r.vec (residRaw (((collFind s b.panel b.coll).bind (fun c => c.span)).any (fun q => q.resFp32)) (hbmBytes s r.addr r.len)) } ∧ t.seam.remq = l ∧
        t.seam.remUsed = s.seam.remUsed + r.len ∧ ctrGet t .MEM_REM_CNT_RD 0 = ctrGet s .MEM_REM_CNT_RD 0 + BitVec.ofNat 64 r.len ∧
        (∀ j, j ≠ r.slot → slotGet t j = slotGet s j) ∧ t.seam.bolts = s.seam.bolts ∧ OnlyChanges [.events, .counters, .irq, .outbox, .seam] s t)) ∧
  (∀ (s : State) (r : RemReq) (l : List RemReq),
      s.seam.remq = r :: l →
      remWaiting s = false →
      (∀ x, runOf s r.slot = some x → x.num ≠ r.inv) →
      Completes .remnantAccessDone s (fun t => t = { s with seam := { s.seam with remq := l, remUsed := s.seam.remUsed + r.len } })) ∧
  (∀ (s : State),
      remWaiting s = true →
      Completes .remnantAccessDone s (fun t => t = s)) ∧
  (∀ (s : State),
      s.seam.remq = [] →
      Completes .remnantAccessDone s (fun t => t = s)) ∧
  (∀ (s : State) (k : Nat) (r : RingMsg) (c : Coll) (st i kb : Nat) (b : Bolt),
      s.seam.ring[k]? = some r →
      collFind s r.panel r.coll = some c →
      stageOf c r.ctx = some st →
      (∃ x, epochFind c r.epoch = some x ∧ x.ended.contains (st, r.chunk) = false) →
      ownIndex s c st = some i →
      chunkBolt s c.panel c.id st r.epoch r.chunk = some (kb, b) →
      boltGet s kb = some b →
      b.state = .open →
      boltHas b i = false →
      b.want.contains i = true →
      chunkTakes s b r.mode (r.out.fmt.getD r.fmt) true = true →
      r.out.fmt.getD r.fmt ≠ 10 →
      b.fixed = true ∨ (collFind s b.panel b.coll).any (fun c => b.chunk + 1 == c.bucketChunks) = false →
      Completes (.ringTransferArrive k) s (fun t => t.seam.ring = s.seam.ring.eraseIdx k ∧
        (∃ b' m, boltGet t kb = some b' ∧ b'.msgs = b.msgs ++ [m] ∧ m.index = i ∧ m.fmt = r.out.fmt.getD r.fmt ∧ m.data = streamData r.out r.fmt ∧
          m.flags = r.flags ∧ m.whole = true ∧ b'.acc = b.acc ∧ b'.counted = b.counted) ∧ (∀ j, j ≠ kb → boltGet t j = boltGet s j) ∧ t.cco = s.cco ∧ OnlyChanges [.seam] s t)) ∧
  (∀ (s : State) (k : Nat) (r : RingMsg),
      s.seam.ring[k]? = some r →
      (ringArrive { s with seam := { s.seam with ring := s.seam.ring.eraseIdx k } } r none 0).1 = false →
      Completes (.ringTransferArrive k) s (fun t => t = s)) ∧
  (∀ (s : State) (k : Nat) (r : RingMsg) (c : Coll) (st : Nat) (x : Epoch),
      s.seam.ring[k]? = some r →
      collFind s r.panel r.coll = some c →
      stageOf c r.ctx = some st →
      epochFind c r.epoch = some x →
      x.ended.contains (st, r.chunk) = true →
      Completes (.ringTransferArrive k) s (fun t => t = ccoCount { s with seam := { s.seam with ring := s.seam.ring.eraseIdx k } } .CCO_CNT_DUP r.panel 0)) ∧
  (∀ (s : State) (k : Nat),
      s.seam.ring[k]? = none →
      Completes (.ringTransferArrive k) s (fun t => t = s))

/-- Contributions and results are checked, joined to their chunks or refused; NACKs act at a child; missing ones are asked for. A CONTRIB that
passes its checks joins the chunk's open bolt as one message, whole when its fragments cover it, holding its frame's cells, and changes no
other bolt; the first one opens the chunk's reserved bolt; a duplicate is only counted, with its first fragment; one that fails a check is
refused with that check's cause, and a NACK of that cause is counted. A RESULT from the parent is held until whole, then delivered; one for no
open epoch is discarded. A NACK from the parent acts by its cause, one from a rank does nothing. MISS_TIMER_EXPIRY counts a round and asks, and
at MISS_LIMIT aborts with cause MISSING. What a message does not keep of the frame it came in is released (log 19). (R125, R126, R129, R130,
R131, R132, R133, R135, R136, R142, R145, R153) -/
def Obligations.ContributionsAndResults : Prop :=
  (∀ (s : State) (d : Datagram) (c : Coll) (i st k : Nat) (b0 b : Bolt),
      Canon s →
      ContribOk s d c i st k b0 →
      b0.state = .open →
      domReady s (engDom (b0.ctx / 16)) = true →
      b0.counted.contains i = false →
      heldMsg b0 i = none →
      boltGet (boltFix s k (dgHdr d).elems (dgHdr d).idx) k = some b →
      Completes (.contrib d) s (Taken s d (fun t =>
        (∃ m, m.index = i ∧ m.rank = (dgHdr d).rank ∧ m.ip = d.srcIp ∧ m.fmt = (dgHdr d).fmt ∧ m.elems = (dgHdr d).elems ∧ m.taken = false ∧ m.flags = (dgHdr d).arith ∧ m.frags = [fragOf d] ∧
          m.whole = fragsComplete [fragOf d] (dgHdr d).elems ∧
          (m.whole = true → m.data = readMsg [fragOf d] (dgHdr d).idx ∧ boltGet t k = some { b with msgs := b.msgs ++ [m], lastIdx := i, prevUs := b.lastUs, lastUs := s.localUs }) ∧
          (m.whole = false → boltGet t k = some { b with msgs := b.msgs ++ [m] }) ∧
          (scpWaiting s d.port d.frame = 0 → m.cells = cellsOf d.frame.length)) ∧
        (∀ j, j ≠ k → boltGet t j = boltGet s j) ∧
        (scpWaiting s d.port d.frame = 0 → t.bob.cellsUsed = s.bob.cellsUsed + cellsOf d.frame.length ∧ t.fab = s.fab ∧ t.cco = s.cco) ∧
        OnlyChanges [.events, .counters, .irq, .outbox, .fresh, .obs, .bob, .cco, .seam, .fab] s t))) ∧
  (∀ (s : State) (d : Datagram) (c : Coll) (i st k : Nat) (b0 b : Bolt) (m0 : Msg),
      Canon s →
      ContribOk s d c i st k b0 →
      b0.state = .open →
      domReady s (engDom (b0.ctx / 16)) = true →
      b0.counted.contains i = false →
      boltGet (boltFix s k (dgHdr d).elems (dgHdr d).idx) k = some b →
      heldMsg b i = some m0 →
      m0.whole = false →
      Completes (.contrib d) s (Taken s d (fun t =>
        (∃ b' m, boltGet t k = some b' ∧ b'.msgs = b.msgs.filter (fun x => x.index != i) ++ [m] ∧ b'.acc = b.acc ∧ b'.counted = b.counted ∧ m.index = i ∧ m.frags = m0.frags ++ [fragOf d] ∧
          m.flags = m0.flags ||| (dgHdr d).arith ∧ m.whole = fragsComplete (m0.frags ++ [fragOf d]) (dgHdr d).elems) ∧
        (∀ j, j ≠ k → boltGet t j = boltGet s j) ∧ OnlyChanges [.events, .counters, .irq, .outbox, .fresh, .obs, .bob, .cco, .seam, .fab] s t))) ∧
  (∀ (s : State) (d : Datagram) (c : Coll) (i st k : Nat) (b0 : Bolt),
      Canon s →
      ContribOk s d c i st k b0 →
      b0.state = .reserved →
      boltReady s b0 = true →
      b0.counted.contains i = false →
      b0.msgs = [] →
      Completes (.contrib d) s (Taken s d (fun t =>
        (∃ b m, boltGet t k = some b ∧ b.state = .open ∧ b.mode = effMode (dgHdr d).fmt (dgHdr d).mode ∧ b.firstUs = s.localUs ∧ b.ctx = b0.ctx ∧ b.acc = List.replicate b.elems ⟨0, 0, none⟩ ∧
          b.msgs = [m] ∧ m.index = i ∧ m.frags = [fragOf d] ∧ m.flags = (dgHdr d).arith ∧ m.whole = fragsComplete [fragOf d] (dgHdr d).elems) ∧
        (∀ j, j ≠ k → boltGet t j = boltGet s j)))) ∧
  (∀ (s : State) (d : Datagram) (c : Coll) (i st k : Nat) (b : Bolt),
      Canon s →
      ContribOk s d c i st k b →
      b.state ≠ .reserved →
      domReady s (engDom (b.ctx / 16)) = true →
      b.counted.contains i = true ∨ (∃ m, heldMsg b i = some m ∧ m.whole = true) ∨ b.state = .done ∨ b.state = .aborting →
      Completes (.contrib d) s (Taken s d (fun t => t = if (dgHdr d).fragOff = 0 then ccoCount s .CCO_CNT_DUP (portPanel s d.port) 0 else s))) ∧
  (∀ (s : State) (d : Datagram) (k cause : Nat),
      Comes s d 1 →
      headCheck s d (portPanel s d.port) = some (k, cause) →
      Completes (.contrib d) s (Taken s d (fun t => t = refuse s d (portPanel s d.port) k cause))) ∧
  (∀ (s : State) (d : Datagram) (c : Coll) (cause : Nat),
      HeadOk s d 1 c →
      epochCheck c (dgHdr d).epoch = some cause →
      Completes (.contrib d) s (Taken s d (fun t => t = refuse s d (portPanel s d.port) 9 cause))) ∧
  (∀ (s : State) (d : Datagram) (c : Coll) (cause : Nat),
      HeadOk s d 1 c →
      epochCheck c (dgHdr d).epoch = none →
      rankCheck s c (dgHdr d).epoch (dgHdr d).rank d.srcIp d.srcPort = .error cause →
      Completes (.contrib d) s (Taken s d (fun t => t = refuse s d (portPanel s d.port) 10 cause))) ∧
  (∀ (s : State) (d : Datagram) (c : Coll) (i st k cause : Nat),
      HeadOk s d 1 c →
      epochCheck c (dgHdr d).epoch = none →
      (rankCheck s c (dgHdr d).epoch (dgHdr d).rank d.srcIp d.srcPort).toOption = some (i, st) →
      bodyCheck s c st i (dgHdr d) (dgPayload d) = some (k, cause) →
      Completes (.contrib d) s (Taken s d (fun t =>
        t = refuse (if k = 13 then raiseEv s .SEAM_CTX_EVENT (chunkOr s c st (dgHdr d).epoch (dgHdr d).chunk).ctx 4 else s) d (portPanel s d.port) k cause))) ∧
  (∀ (s : State) (d : Datagram) (c : Coll) (i st : Nat),
      HeadOk s d 1 c →
      epochCheck c (dgHdr d).epoch = none →
      (rankCheck s c (dgHdr d).epoch (dgHdr d).rank d.srcIp d.srcPort).toOption = some (i, st) →
      bodyCheck s c st i (dgHdr d) (dgPayload d) = none →
      creditLimit c (dgHdr d).epoch ≤ (dgHdr d).chunk →
      Completes (.contrib d) s (Taken s d (fun t => t = refuse s d (portPanel s d.port) 15 8))) ∧
  (∀ (s : State) (d : Datagram) (c : Coll) (i st k : Nat) (b : Bolt),
      ContribOk s d c i st k b →
      b.state ≠ .reserved →
      domReady s (engDom (b.ctx / 16)) = false →
      Completes (.contrib d) s (Taken s d (fun t => t = refuse s d (portPanel s d.port) 16 0x11))) ∧
  (∀ (s : State) (d : Datagram) (p k cause : Nat),
      Canon s →
      p < 16 →
      k ≠ 3 →
      s.cco.nacks.any (fun m => decide (s.localUs < m.us + 100) && m.panel == p && m.ip == d.srcIp && m.coll == (dgHdr d).coll && m.chunk == (dgHdr d).chunk && m.cause == cause) = false →
      ctrGet (refuse s d p k cause) .CCO_CNT_NACK (viewIdx .CCO_CNT_NACK p cause) = ctrGet s .CCO_CNT_NACK (viewIdx .CCO_CNT_NACK p cause) + 1) ∧
  (∀ (s : State) (d : Datagram),
      portCarries s d.port = false ∨ domOn s 11 = false →
      Completes (.contrib d) s (Taken s d (fun t => t = s)) ∧ Completes (.result d) s (Taken s d (fun t => t = s)) ∧ Completes (.nackMsg d) s (Taken s d (fun t => t = s))) ∧
  (∀ (s : State) (d : Datagram) (c : Coll) (x : Epoch),
      HeadOk s d 2 c →
      epochFind c (dgHdr d).epoch = some x →
      resultCheck s d c (heldOf c d) = none →
      (heldOf c d).any (fun f => f.off == (dgHdr d).fragOff && f.n == (dgHdr d).nelem) = false →
      x.done.contains (dgHdr d).chunk = false →
      fragsComplete (heldOf c d ++ [fragOf d]) (dgHdr d).elems = false →
      Completes (.result d) s (Taken s d (fun t =>
        (∃ c', collFind t (portPanel s d.port) c.id = some c' ∧
          c'.results = c.results.filter (fun r => !(r.epoch == (dgHdr d).epoch && r.chunk == (dgHdr d).chunk)) ++ [⟨(dgHdr d).epoch, (dgHdr d).chunk, (dgHdr d).elems, (dgHdr d).arith, chalkWord (dgHdr d).layer (dgHdr d).oper, heldOf c d ++ [fragOf d]⟩] ∧
          c'.epochs = c.epochs) ∧ OnlyChanges [.counters, .cco, .fab] s t))) ∧
  (∀ (s : State) (d : Datagram) (c : Coll) (x : Epoch),
      HeadOk s d 2 c →
      epochFind c (dgHdr d).epoch = some x →
      resultCheck s d c (heldOf c d) = none →
      (heldOf c d).any (fun f => f.off == (dgHdr d).fragOff && f.n == (dgHdr d).nelem) = false →
      x.done.contains (dgHdr d).chunk = false →
      fragsComplete (heldOf c d ++ [fragOf d]) (dgHdr d).elems = true →
      Completes (.result d) s (Taken s d (fun t =>
        t = deliver (collMod (fromAbove s d c) (portPanel s d.port) c.id (fun c => { c with results := c.results.filter (fun r => !(r.epoch == (dgHdr d).epoch && r.chunk == (dgHdr d).chunk)) }))
          (portPanel s d.port) c.id (dgHdr d).epoch (dgHdr d).chunk (dgHdr d).elems (dgHdr d).idx (dgHdr d).crcEn (dgHdr d).arith (chalkWord (dgHdr d).layer (dgHdr d).oper) (heldOf c d ++ [fragOf d])))) ∧
  (∀ (s : State) (d : Datagram) (c : Coll) (x : Epoch),
      HeadOk s d 2 c →
      epochFind c (dgHdr d).epoch = some x →
      resultCheck s d c (heldOf c d) = none →
      x.done.contains (dgHdr d).chunk = true →
      Completes (.result d) s (Taken s d (fun t => t = discardCount (fromAbove s d c) (portPanel s d.port) 2))) ∧
  (∀ (s : State) (d : Datagram) (c : Coll) (x : Epoch) (k cause : Nat),
      HeadOk s d 2 c →
      epochFind c (dgHdr d).epoch = some x →
      resultCheck s d c (heldOf c d) = some (k, cause) →
      Completes (.result d) s (Taken s d (fun t => t = resultFail d s (portPanel s d.port) k))) ∧
  (∀ (s : State) (d : Datagram) (k cause : Nat),
      Comes s d 2 →
      headCheck s d (portPanel s d.port) = some (k, cause) →
      Completes (.result d) s (Taken s d (fun t => t = resultFail d s (portPanel s d.port) k))) ∧
  (∀ (s : State) (d : Datagram) (c : Coll),
      HeadOk s d 2 c →
      epochFind c (dgHdr d).epoch = none →
      Completes (.result d) s (Taken s d (fun t => t = discardCount s (portPanel s d.port) 2))) ∧
  (∀ (s : State) (d : Datagram) (c : Coll),
      FromParent s d 3 c →
      Completes (.nackMsg d) s (Taken s d (fun t => t = nackAct (fromAbove s d c) (portPanel s d.port) c.id (dgHdr d) (.addr d.srcIp d.srcPort)))) ∧
  (∀ (s : State) (d : Datagram) (c : Coll),
      FromParent s d 3 c →
      [2, 3, 4, 9, 0x0B, 0x0C, 0x0D, 0x0E, 0x10, 0x13].contains ((dgHdr d).aux / pow2 24) = true →
      Completes (.nackMsg d) s (Taken s d (fun t => (∃ c', collFind t (portPanel s d.port) c.id = some c' ∧ c'.epochs = c.epochs ∧ c'.aborted = c.aborted ∧ c'.parentGen = (dgHdr d).rgen ∧
          ((dgHdr d).aux / pow2 24 = 0x13 → c'.paused = true) ∧ ((dgHdr d).aux / pow2 24 = 4 ∨ (dgHdr d).aux / pow2 24 = 0x0E → c'.stoppedEpochs = c.stoppedEpochs ++ [(dgHdr d).epoch]) ∧
          ((dgHdr d).aux / pow2 24 = 9 → ∀ m, m ∈ c'.up → m.epoch ≠ (dgHdr d).epoch ∨ m.chunk ≠ (dgHdr d).chunk) ∧
          ([2, 3, 0x0B, 0x0C, 0x0D, 0x10].contains ((dgHdr d).aux / pow2 24) = true → c'.stopped = true)) ∧ OnlyChanges [.counters, .cco, .fab] s t))) ∧
  (∀ (s : State) (d : Datagram) (c : Coll),
      FromParent s d 3 c →
      (dgHdr d).aux / pow2 24 = 1 →
      Completes (.nackMsg d) s (Taken s d (fun t => t.cco.halted.contains d.srcIp = true ∧ OnlyChanges [.counters, .cco, .fab] s t))) ∧
  (∀ (s : State) (d : Datagram) (c : Coll) (i st : Nat),
      FromRank s d 3 c i st →
      Completes (.nackMsg d) s (Taken s d (fun t => t = s))) ∧
  (∀ (s : State) (k : Nat) (b : Bolt) (c : Coll),
      boltGet s k = some b →
      collFind s b.panel b.coll = some c →
      b.state = .open →
      regBf s .CCO_MISS_CFG b.panel 15 0 ≠ 0 →
      missing b ≠ [] →
      b.rounds < regBf s .CCO_MISS_CFG b.panel 19 16 →
      Completes (.missTimerExpiry k) s (fun t => boltGet t k = some { b with rounds := b.rounds + 1 } ∧ (∀ j, j ≠ k → boltGet t j = boltGet s j) ∧ t.cco.colls = s.cco.colls ∧
        (b.stage = 2 → OnlyChanges [.seam] s t) ∧ OnlyChanges [.events, .counters, .irq, .outbox, .obs, .mem, .cco, .seam, .fab] s t)) ∧
  (∀ (s : State) (k : Nat) (b : Bolt) (c : Coll),
      boltGet s k = some b →
      collFind s b.panel b.coll = some c →
      b.state = .open →
      regBf s .CCO_MISS_CFG b.panel 15 0 ≠ 0 →
      missing b ≠ [] →
      regBf s .CCO_MISS_CFG b.panel 19 16 ≤ b.rounds →
      Completes (.missTimerExpiry k) s (fun t => t = abortEpoch (ccoEvent s b.panel 4) b.panel b.coll b.epoch 3 c.holdOnMiss .self)) ∧
  (∀ (s : State) (k : Nat) (b : Bolt),
      boltGet s k = none ∨ (boltGet s k = some b ∧ (missing b = [] ∨ b.state ≠ .open ∨ regBf s .CCO_MISS_CFG b.panel 15 0 = 0)) →
      Completes (.missTimerExpiry k) s (fun t => t = s))

/-- ABORT, CLOSE and the tacks act on the collective tree as their rules say. ABORT from a rank removes its epoch and every later open one,
records the cause, and leaves their chunks aborting; from the parent it does so after the credit it carries. CLOSE from the parent closes an
epoch that has delivered every chunk with nothing under way, and is kept for one that has not. CREDIT raises the parent's limit and never lowers
it. The first BARRIER opens the barrier's epoch with that arrival, the last of a lower stage goes to the parent, and a repeated one changes
nothing. RELEASE closes the barrier. RESUME ends the pause, once for each epoch. A message that fails checks 2 to 10 is only counted. What a
message does not keep of the frame it came in is released (log 19). (R129, R130, R136, R137, R138, R139, R141, R143, R144) -/
def Obligations.TreeMessages : Prop :=
  (∀ (s : State) (d : Datagram) (c : Coll) (i st : Nat),
      FromRank s d 4 c i st →
      c.aborted.any (fun a => a.1 == (dgHdr d).epoch) = false →
      lowestEpoch c ≤ (dgHdr d).epoch →
      c.epochs.all (fun x => x.state != .closing) = true →
      Completes (.abortMsg d) s (Taken s d (fun t => (∀ c', collFind t (portPanel s d.port) c.id = some c' → (∀ x, x ∈ c'.epochs → x.num < (dgHdr d).epoch) ∧ ((dgHdr d).epoch, (dgHdr d).aux / pow2 24) ∈ c'.aborted ∧ (dgHdr d).epoch < c'.nextEpoch) ∧
        (∀ j b, boltGet t j = some b → b.state ≠ .reserved → b.panel = (portPanel s d.port) → b.coll = c.id → (dgHdr d).epoch ≤ b.epoch → b.state = .aborting ∨ c.epochs.all (fun x => x.num != b.epoch) = true ∧ b.epoch ≠ (dgHdr d).epoch)))) ∧
  (∀ (s : State) (d : Datagram) (c : Coll),
      FromParent s d 4 c →
      Completes (.abortMsg d) s (Taken s d (fun t => t = abortEpoch (fromAbove s d c) (portPanel s d.port) c.id (dgHdr d).epoch ((dgHdr d).aux / pow2 24) (dgHdr d).hold (.addr d.srcIp d.srcPort)))) ∧
  (∀ (s : State) (d : Datagram) (c : Coll) (x : Epoch),
      FromParent s d 5 c →
      c.span = none →
      epochFind c (dgHdr d).epoch = some x →
      x.state = .open →
      x.barrier = false →
      c.bucketChunks ≤ x.done.length →
      epochWrites s (portPanel s d.port) c.id (dgHdr d).epoch = 0 →
      (bolts s).any (fun e => e.2.ofColl (portPanel s d.port) c.id && e.2.epoch == (dgHdr d).epoch && e.2.state != .reserved) = false →
      Completes (.closeMsg d) s (Taken s d (fun t => (∀ c', collFind t (portPanel s d.port) c.id = some c' → epochFind c' (dgHdr d).epoch = none ∧ (∀ y, y ∈ c'.epochs → y ∈ c.epochs))))) ∧
  (∀ (s : State) (d : Datagram) (c : Coll) (x : Epoch),
      FromParent s d 5 c →
      epochFind c (dgHdr d).epoch = some x →
      x.state = .open →
      x.barrier = true ∧ x.released = false ∨ x.barrier = false ∧ x.done.length < c.bucketChunks →
      Completes (.closeMsg d) s (Taken s d (fun t => (∃ c', collFind t (portPanel s d.port) c.id = some c' ∧ epochFind c' (dgHdr d).epoch = some { x with closeRecv := true }) ∧ t.seam = s.seam ∧ OnlyChanges [.counters, .cco, .fab] s t))) ∧
  (∀ (s : State) (d : Datagram) (c : Coll) (i st : Nat),
      FromRank s d 5 c i st →
      Completes (.closeMsg d) s (Taken s d (fun t => t = s))) ∧
  (∀ (s : State) (d : Datagram) (c : Coll),
      FromParent s d 6 c →
      (dgHdr d).aux / pow2 24 = 1 →
      Completes (.creditMsg d) s (Taken s d (fun t => (∃ c', collFind t (portPanel s d.port) c.id = some c' ∧ c'.parentCredit = (match c.parentCredit with | none => some ((dgHdr d).epoch, (dgHdr d).creditLim) | some (ce, l) => if ce < (dgHdr d).epoch then some ((dgHdr d).epoch, (dgHdr d).creditLim) else if ce = (dgHdr d).epoch then some ((dgHdr d).epoch, max l (dgHdr d).creditLim) else some (ce, l)) ∧
          c'.parentGen = (dgHdr d).rgen ∧ c'.epochs = c.epochs) ∧
        t.seam = s.seam ∧ OnlyChanges [.counters, .cco, .fab] s t))) ∧
  (∀ (s : State) (d : Datagram) (c : Coll) (i st : Nat),
      FromRank s d 6 c i st →
      ((dgHdr d).aux / pow2 24 = 1 → Completes (.creditMsg d) s (Taken s d (fun t => t = s))) ∧ ((dgHdr d).aux / pow2 24 = 3 → Completes (.releaseMsg d) s (Taken s d (fun t => t = s))) ∧
        ((dgHdr d).aux / pow2 24 = 4 → Completes (.resumeMsg d) s (Taken s d (fun t => t = s)))) ∧
  (∀ (s : State) (d : Datagram) (c : Coll) (i st : Nat),
      FromRank s d 6 c i st →
      (dgHdr d).aux / pow2 24 = 2 →
      epochFind c (dgHdr d).epoch = none →
      (contributors s c st (dgHdr d).epoch).any (fun x => x.1 != i) = true →
      Completes (.barrierMsg d) s (Taken s d (fun t => (∃ c', collFind t (portPanel s d.port) c.id = some c' ∧ (∃ x, epochFind c' (dgHdr d).epoch = some x ∧ x.barrier = true ∧ x.released = false ∧ x.arrived = [(st, i)] ∧ x.subs = c.subs) ∧ c'.nextEpoch = (dgHdr d).epoch + 1) ∧
        t.seam = s.seam ∧ OnlyChanges [.regs, .held, .cco] s t))) ∧
  (∀ (s : State) (d : Datagram) (c : Coll) (i : Nat) (x : Epoch),
      FromRank s d 6 c i 0 →
      (dgHdr d).aux / pow2 24 = 2 →
      epochFind c (dgHdr d).epoch = some x →
      x.barrier = true →
      x.arrived.contains (0, i) = false →
      (contributors s c 0 (dgHdr d).epoch).all (fun y => y.1 == i || x.arrived.contains (0, y.1)) = true →
      hasStage c 1 = false →
      Completes (.barrierMsg d) s (Taken s d (fun t => t = tackParent (epochMod s (portPanel s d.port) c.id (dgHdr d).epoch (fun _ => { x with arrived := x.arrived ++ [(0, i)] })) c 2 (dgHdr d).epoch))) ∧
  (∀ (s : State) (d : Datagram) (c : Coll) (i st : Nat) (x : Epoch),
      FromRank s d 6 c i st →
      (dgHdr d).aux / pow2 24 = 2 →
      epochFind c (dgHdr d).epoch = some x →
      x.barrier = false ∨ x.arrived.contains (st, i) = true →
      Completes (.barrierMsg d) s (Taken s d (fun t => t = s))) ∧
  (∀ (s : State) (d : Datagram) (c : Coll) (x : Epoch),
      FromParent s d 6 c →
      c.span = none →
      (dgHdr d).aux / pow2 24 = 3 →
      epochFind c (dgHdr d).epoch = some x →
      x.state = .open →
      x.barrier = true →
      x.released = false →
      Completes (.releaseMsg d) s (Taken s d (fun t => (∀ c', collFind t (portPanel s d.port) c.id = some c' → epochFind c' (dgHdr d).epoch = none ∧ (∀ y, y ∈ c'.epochs → y ∈ c.epochs))))) ∧
  (∀ (s : State) (d : Datagram) (c : Coll),
      FromParent s d 6 c →
      (dgHdr d).aux / pow2 24 = 4 →
      Completes (.resumeMsg d) s (Taken s d (fun t =>
        (c.resumed.contains (dgHdr d).epoch = false → (∃ c', collFind t (portPanel s d.port) c.id = some c' ∧ c'.paused = false ∧ c'.resumed = c.resumed ++ [(dgHdr d).epoch] ∧ c'.epochs = c.epochs ∧ c'.credit = c.credit) ∧ t.seam = s.seam) ∧
        (c.resumed.contains (dgHdr d).epoch = true → t = fromAbove s d c)))) ∧
  (∀ (s : State) (d : Datagram),
      (dgHdr d).opc = 6 →
      reservedOk (dgHdr d) = true →
      (dgHdr d).aux / pow2 24 = 1 →
      Completes (.barrierMsg d) s (fun t => t = s) ∧ Completes (.releaseMsg d) s (fun t => t = s) ∧ Completes (.resumeMsg d) s (fun t => t = s)) ∧
  (∀ (s : State) (d : Datagram) (k cause : Nat),
      headCheck s d (portPanel s d.port) = some (k, cause) →
      (Comes s d 4 → Completes (.abortMsg d) s (Taken s d (fun t => t = discardCount s (portPanel s d.port) 4))) ∧
        (Comes s d 5 → Completes (.closeMsg d) s (Taken s d (fun t => t = discardCount s (portPanel s d.port) 5))) ∧
        (Comes s d 3 → Completes (.nackMsg d) s (Taken s d (fun t => t = discardCount s (portPanel s d.port) 3))) ∧
        (Comes s d 6 → (dgHdr d).aux / pow2 24 = 1 → Completes (.creditMsg d) s (Taken s d (fun t => t = discardCount s (portPanel s d.port) 6))) ∧
        (Comes s d 6 → (dgHdr d).aux / pow2 24 = 2 → Completes (.barrierMsg d) s (Taken s d (fun t => t = discardCount s (portPanel s d.port) 6)))) ∧
  (∀ (s : State) (d : Datagram) (c : Coll) (op : Nat),
      HeadOk s d op c →
      (∃ x, epochCheck c (dgHdr d).epoch = some x) ∨ (epochCheck c (dgHdr d).epoch = none ∧ fromParent c d.srcIp d.srcPort = false ∧ ∃ e, rankCheck s c (dgHdr d).epoch (dgHdr d).rank d.srcIp d.srcPort = .error e) →
      (op = 4 → Completes (.abortMsg d) s (Taken s d (fun t => t = discardCount s (portPanel s d.port) 4))) ∧
        (op = 5 → Completes (.closeMsg d) s (Taken s d (fun t => t = discardCount s (portPanel s d.port) 5))) ∧
        (op = 3 → Completes (.nackMsg d) s (Taken s d (fun t => t = discardCount s (portPanel s d.port) 3))))

/-- Coordinator commands read their descriptor, act on the collective it names, and end with a result. A command while BUSY ends with 0x04 and
does nothing else. One that names no collective ends with 0x03, one outside the quota with 0x02. OPEN of an acceptable descriptor opens the
collective as it describes; else 0x01. RETIRE ends epochs and waits; the collective goes at once with nothing left of it to end. STANDIN puts
the spare in and raises the generation. ABORT removes its epoch and later ones with cause HOST. QP_RESET takes the queue pair out of the error
state with its START_PSN. RESUME sends RESUME down and changes no collective. CMD_DONE writes the result, clears BUSY and sets CMD_DONE; a
RETIRE's waits until its collective is gone. (R134, R138, R150, R152, R159, R161, R162, R182) -/
def Obligations.CoordinatorCommands : Prop :=
  (∀ (s : State) (req : Requester) (view : Nat),
      Canon s →
      Arrives s req .CCO_CMD view = true →
      (cmdGet s view).busy = true →
      Completes (.openCommand req view) s (fun t => t = cmdSet s view { cmdGet s view with result := 4 }) ∧
      Completes (.retireCommand req view) s (fun t => t = cmdSet s view { cmdGet s view with result := 4 }) ∧
      Completes (.standinCommand req view) s (fun t => t = cmdSet s view { cmdGet s view with result := 4 }) ∧
      Completes (.abortCommand req view) s (fun t => t = cmdSet s view { cmdGet s view with result := 4 }) ∧
      Completes (.qpReset req view) s (fun t => t = cmdSet s view { cmdGet s view with result := 4 }) ∧
      Completes (.resumeCommand req view) s (fun t => t = cmdSet s view { cmdGet s view with result := 4 })) ∧
  (∀ (s : State) (req : Requester) (view : Nat),
      Canon s →
      Arrives s req .CCO_CMD view = true →
      (cmdGet s view).busy = false →
      inQuota s view (cmdAddr s view) 16 = true →
      ueIn s (cmdAddr s view) 16 = none →
      cmdColl s view (leWord (hbmBytes s (cmdAddr s view) 16) 0) = none →
      Completes (.retireCommand req view) s (fun t => cmdGet t view = { cmdGet s view with busy := true, retire := none, next := 3 } ∧ OnlyChanges [.events, .counters, .irq, .outbox, .cco] s t) ∧
      Completes (.standinCommand req view) s (fun t => cmdGet t view = { cmdGet s view with busy := true, retire := none, next := 3 } ∧ OnlyChanges [.events, .counters, .irq, .outbox, .cco] s t) ∧
      Completes (.abortCommand req view) s (fun t => cmdGet t view = { cmdGet s view with busy := true, retire := none, next := 3 } ∧ OnlyChanges [.events, .counters, .irq, .outbox, .cco] s t) ∧
      Completes (.qpReset req view) s (fun t => cmdGet t view = { cmdGet s view with busy := true, retire := none, next := 3 } ∧ OnlyChanges [.events, .counters, .irq, .outbox, .cco] s t) ∧
      Completes (.resumeCommand req view) s (fun t => cmdGet t view = { cmdGet s view with busy := true, retire := none, next := 3 } ∧ OnlyChanges [.events, .counters, .irq, .outbox, .cco] s t)) ∧
  (∀ (s : State) (req : Requester) (view : Nat),
      Canon s →
      Arrives s req .CCO_CMD view = true →
      (cmdGet s view).busy = false →
      inQuota s view (cmdAddr s view) 16 = false →
      Completes (.retireCommand req view) s (fun t => cmdGet t view = { cmdGet s view with busy := true, retire := none, next := 2 } ∧ OnlyChanges [.cco] s t) ∧
      Completes (.standinCommand req view) s (fun t => cmdGet t view = { cmdGet s view with busy := true, retire := none, next := 2 } ∧ OnlyChanges [.cco] s t) ∧
      Completes (.abortCommand req view) s (fun t => cmdGet t view = { cmdGet s view with busy := true, retire := none, next := 2 } ∧ OnlyChanges [.cco] s t) ∧
      Completes (.qpReset req view) s (fun t => cmdGet t view = { cmdGet s view with busy := true, retire := none, next := 2 } ∧ OnlyChanges [.cco] s t) ∧
      Completes (.resumeCommand req view) s (fun t => cmdGet t view = { cmdGet s view with busy := true, retire := none, next := 2 } ∧ OnlyChanges [.cco] s t)) ∧
  (∀ (s : State) (req : Requester) (view : Nat) (p : Nat),
      Canon s →
      Arrives s req .CCO_CMD view = true →
      (cmdGet s view).busy = false →
      inQuota s view (cmdAddr s view) 128 = true →
      ueIn s (cmdAddr s view) 128 = none →
      openPanel s view (hbmBytes s (cmdAddr s view) 128) = some p →
      (panelGet s p).state ≠ .resetting →
      collOk s (collOf p (hbmBytes s (cmdAddr s view) 128)) (hbmBytes s (cmdAddr s view) 128) = true →
      (collFind s p (collOf p (hbmBytes s (cmdAddr s view) 128)).id).isNone = true →
      inQuota s view (collOf p (hbmBytes s (cmdAddr s view) 128)).rmapAddr (32 * (collOf p (hbmBytes s (cmdAddr s view) 128)).nrmap) = true →
      ueIn s (collOf p (hbmBytes s (cmdAddr s view) 128)).rmapAddr (32 * (collOf p (hbmBytes s (cmdAddr s view) 128)).nrmap) = none →
      rmapOk s (collOf p (hbmBytes s (cmdAddr s view) 128)) = true →
      spanOk s (collOf p (hbmBytes s (cmdAddr s view) 128)) (hbmBytes s (cmdAddr s view) 128) = true →
      (collOf p (hbmBytes s (cmdAddr s view) 128)).ndrec = 0 →
      (collOf p (hbmBytes s (cmdAddr s view) 128)).span = none →
      Completes (.openCommand req view) s (fun t => (cmdGet t view).busy = true ∧ (cmdGet t view).next = 0 ∧
        (∃ c, collFind t p (collOf p (hbmBytes s (cmdAddr s view) 128)).id = some c ∧ { c with credit := (collOf p (hbmBytes s (cmdAddr s view) 128)).credit } = (collOf p (hbmBytes s (cmdAddr s view) 128)) ∧ (panelActive s p = false → t.cco.colls = s.cco.colls ++ [(collOf p (hbmBytes s (cmdAddr s view) 128))])) ∧
        OnlyChanges [.events, .counters, .irq, .outbox, .obs, .cco, .seam, .fab, .bast] s t)) ∧
  (∀ (s : State) (req : Requester) (view : Nat) (p : Nat),
      Canon s →
      Arrives s req .CCO_CMD view = true →
      (cmdGet s view).busy = false →
      inQuota s view (cmdAddr s view) 128 = true →
      ueIn s (cmdAddr s view) 128 = none →
      openPanel s view (hbmBytes s (cmdAddr s view) 128) = some p →
      (panelGet s p).state ≠ .resetting →
      collOk s (collOf p (hbmBytes s (cmdAddr s view) 128)) (hbmBytes s (cmdAddr s view) 128) = false ∨ (collFind s p (collOf p (hbmBytes s (cmdAddr s view) 128)).id).isSome = true →
      Completes (.openCommand req view) s (fun t => cmdGet t view = { cmdGet s view with busy := true, retire := none, next := 1 } ∧ OnlyChanges [.events, .counters, .irq, .outbox, .cco] s t)) ∧
  (∀ (s : State) (req : Requester) (view : Nat) (c : Coll),
      Canon s →
      Arrives s req .CCO_CMD view = true →
      (cmdGet s view).busy = false →
      inQuota s view (cmdAddr s view) 16 = true →
      ueIn s (cmdAddr s view) 16 = none →
      cmdColl s view (leWord (hbmBytes s (cmdAddr s view) 16) 0) = some c →
      Completes (.retireCommand req view) s (fun t => (cmdGet t view).busy = true ∧ (cmdGet t view).next = 0 ∧ (cmdGet t view).retire = some (c.panel, c.id) ∧
        (∀ c', collFind t c.panel c.id = some c' → c'.retiring = true ∧ (c.epochs.all (fun x => x.state != .closing && decide (lowestEpoch c ≤ x.num)) = true → c.aborted = [] → c'.epochs = [])) ∧
        (collFind t c.panel c.id = none → ∀ j b, boltGet t j = some b → ¬ (b.panel = c.panel ∧ b.coll = c.id)) ∧
        (c.epochs = [] → (bolts s).any (fun x => x.2.ofColl c.panel c.id && x.2.state != .reserved) = false → writesLeft s c.panel c.id = 0 → collFind t c.panel c.id = none))) ∧
  (∀ (s : State) (req : Requester) (view : Nat) (c : Coll) (i j : Nat),
      Canon s →
      Arrives s req .CCO_CMD view = true →
      (cmdGet s view).busy = false →
      inQuota s view (cmdAddr s view) 16 = true →
      ueIn s (cmdAddr s view) 16 = none →
      cmdColl s view (leWord (hbmBytes s (cmdAddr s view) 16) 0) = some c →
      leField (hbmBytes s (cmdAddr s view) 16) 13 2 = j →
      (panelGet s c.panel).state ≠ .resetting →
      j < c.nrmap →
      (stageIndices s c (rmapEntry s c j).stage).find? (fun i => (rmapEntry s c i).rank == leField (hbmBytes s (cmdAddr s view) 16) 10 3) = some i →
      j ≠ i →
      (rmapEntry s c j).kind = 3 →
      (rmapEntry s c i).group = (rmapEntry s c j).group →
      c.subs.any (fun q => q.2 == j) = false →
      Completes (.standinCommand req view) s (fun t => cmdGet t view = { cmdGet s view with busy := true, retire := none, next := 0 } ∧
        collFind t c.panel c.id = some { c with subs := c.subs.filter (fun q => q.1 != i) ++ [(i, j)], gens := tabSet 0 c.gens (rmapEntry s c j).stage (tabGet 0 c.gens (rmapEntry s c j).stage + 1) } ∧
        OnlyChanges [.events, .counters, .irq, .outbox, .cco] s t)) ∧
  (∀ (s : State) (req : Requester) (view : Nat) (c : Coll),
      Canon s →
      Arrives s req .CCO_CMD view = true →
      (cmdGet s view).busy = false →
      inQuota s view (cmdAddr s view) 16 = true →
      ueIn s (cmdAddr s view) 16 = none →
      cmdColl s view (leWord (hbmBytes s (cmdAddr s view) 16) 0) = some c →
      c.aborted.any (fun a => a.1 == (leField (hbmBytes s (cmdAddr s view) 16) 4 6)) = false →
      lowestEpoch c ≤ (leField (hbmBytes s (cmdAddr s view) 16) 4 6) →
      c.epochs.all (fun x => x.state != .closing) = true →
      Completes (.abortCommand req view) s (fun t => (cmdGet t view).busy = true ∧ (cmdGet t view).next = 0 ∧
        (∀ c', collFind t c.panel c.id = some c' → (∀ x, x ∈ c'.epochs → x.num < (leField (hbmBytes s (cmdAddr s view) 16) 4 6)) ∧ ((leField (hbmBytes s (cmdAddr s view) 16) 4 6), 6) ∈ c'.aborted))) ∧
  (∀ (s : State) (req : Requester) (view : Nat) (c : Coll),
      Canon s →
      Arrives s req .CCO_CMD view = true →
      (cmdGet s view).busy = false →
      inQuota s view (cmdAddr s view) 16 = true →
      ueIn s (cmdAddr s view) 16 = none →
      cmdColl s view (leWord (hbmBytes s (cmdAddr s view) 16) 0) = some c →
      Completes (.resumeCommand req view) s (fun t => cmdGet t view = { cmdGet s view with busy := true, retire := none, next := 0 } ∧ t.cco.colls = s.cco.colls ∧ t.seam = s.seam ∧
        t = cmdSet (tackResume (hbmRead s (cmdAddr s view) 16).2 c (leField (hbmBytes s (cmdAddr s view) 16) 4 6)) view (cmdGet t view) ∧ OnlyChanges [.events, .counters, .irq, .outbox, .cco, .fab, .bast] s t)) ∧
  (∀ (s : State) (req : Requester) (view : Nat) (c : Coll) (n : Nat) (q : Qp),
      Canon s →
      Arrives s req .CCO_CMD view = true →
      (cmdGet s view).busy = false →
      inQuota s view (cmdAddr s view) 16 = true →
      ueIn s (cmdAddr s view) 16 = none →
      cmdColl s view (leWord (hbmBytes s (cmdAddr s view) 16) 0) = some c →
      qpOf s c.panel c.id (leField (hbmBytes s (cmdAddr s view) 16) 13 2) = some (n, q) →
      ueIn s (c.drecAddr + 64 * leField (hbmBytes s (cmdAddr s view) 16) 13 2) 64 = none →
      q.writes = [] →
      Completes (.qpReset req view) s (fun t => cmdGet t view = { cmdGet s view with busy := true, retire := none, next := 0 } ∧ qpGet t n = some { q with psn := leField (hbmBytes s (c.drecAddr + 64 * leField (hbmBytes s (cmdAddr s view) 16) 13 2) 64) 20 3, err := false, writes := [] } ∧
        (∀ m, m ≠ n → qpGet t m = qpGet s m) ∧ t.cco.colls = s.cco.colls ∧ OnlyChanges [.events, .counters, .irq, .outbox, .cco] s t)) ∧
  (∀ (s : State) (view : Nat),
      Canon s →
      (cmdGet s view).busy = true →
      view < 16 →
      (match (cmdGet s view).retire with | some (p, id) => (collFind s p id).isSome | none => false) = false →
      Completes (.cmdDone view) s (fun t => cmdGet t view = ⟨false, none, 0, (cmdGet s view).next⟩ ∧ (∀ v, v ≠ view → cmdGet t v = cmdGet s v) ∧ Happened s t .CCO_EVENT view 3 ∧
        Happened s t .CCO_EVENT pfView 3 ∧ t.cco.colls = s.cco.colls ∧ OnlyChanges [.events, .irq, .outbox, .cco] s t)) ∧
  (∀ (s : State) (view : Nat),
      (cmdGet s view).busy = false ∨ (∃ p id, (cmdGet s view).retire = some (p, id) ∧ (collFind s p id).isSome = true) →
      Completes (.cmdDone view) s (fun t => t = s)) ∧
  (∀ (s : State) (view : Nat),
      Canon s →
      (cmdGet s view).busy = true →
      16 ≤ view →
      (match (cmdGet s view).retire with | some (p, id) => (collFind s p id).isSome | none => false) = false →
      Completes (.cmdDone view) s (fun t => cmdGet t view = ⟨false, none, 0, (cmdGet s view).next⟩ ∧ (∀ v, v ≠ view → cmdGet t v = cmdGet s v) ∧ Happened s t .CCO_EVENT pfView 3 ∧
        t.cco.colls = s.cco.colls ∧ OnlyChanges [.events, .irq, .outbox, .cco] s t))

/-- Delivery writes are acknowledged, retried or failed; span windows open and close; CLOSE tacks are kept and repeated; span chunks are
delivered in order. An ACK ends the writes it covers and lets go their cells; one that covers none changes nothing. A sequence NAK or a
timeout sends the oldest write again, from the named packet or whole, with one retry less; without a retry, or on a remote error, the queue
pair fails. Other traffic on the queue pairs is only counted. A span window opens armed and counted; at its close the open segments that wait
for it are sealed. A CLOSE tack is held for an open epoch, answered for one that is over, and the last one ends a closing epoch; a repetition
sets COMMIT_WAIT once. An in-order segment of no collective is dropped and counted; parts are joined; a chunk of another format is refused,
and one without a reservation waits. (R155, R156, R159, R172, R179, R184, R185, R187, R294, R295) -/
def Obligations.DeliveryAndSpan : Prop :=
  (∀ (s : State) (n psn : Nat) (q : Qp),
      Canon s →
      qpGet s n = some q →
      q.err = false →
      q.writes.any (fun w => psnLe w.last psn) = false →
      Completes (.rdmaAck n psn) s (fun t => t = s)) ∧
  (∀ (s : State) (n psn : Nat) (q : Qp),
      Canon s →
      qpGet s n = some q →
      q.err = false →
      Completes (.rdmaAck n psn) s (fun t => ∀ q', qpGet t n = some q' → q' = { q with writes := q.writes.filter (fun w => !psnLe w.last psn) })) ∧
  (∀ (s : State) (n psn : Nat) (q : Qp) (w : RdmaWr) (x : ResCell),
      Canon s →
      qpGet s n = some q →
      q.err = false →
      q.writes = [w] →
      psnLe w.last psn = true →
      w.imm = false →
      cellGet s w.cell = some x →
      2 ≤ x.count →
      collFind s q.panel q.coll = none ∨ (s.cco.colls.all (fun c => !c.retiring && c.epochs.all (fun e => e.state == .open && !e.released && decide (e.done.length < c.bucketChunks)))) = true →
      Completes (.rdmaAck n psn) s (fun t => qpGet t n = some { q with writes := [] } ∧ (∀ m, m ≠ n → qpGet t m = qpGet s m) ∧ cellGet t w.cell = some { x with count := x.count - 1 } ∧
        (∀ m, m ≠ w.cell → cellGet t m = cellGet s m) ∧ OnlyChanges [.cco] s t)) ∧
  (∀ (s : State) (n psn : Nat) (q : Qp) (w : RdmaWr),
      Canon s →
      qpGet s n = some q →
      q.err = false →
      q.writes = [w] →
      psnLe w.last ((psn + pow2 24 - 1) % pow2 24) = false →
      psnLe w.first psn = true →
      (w.retry ≠ 0 → Completes (.rdmaNak n psn .psnSequence) s (fun t => t = sendWrite (qpSet s n (some { q with writes := [{ w with retry := w.retry - 1 }] })) q { w with retry := w.retry - 1 } ((psn + pow2 24 - w.first) % pow2 24) ∧
        qpGet t n = some { q with writes := [{ w with retry := w.retry - 1 }] } ∧ (∀ m, m ≠ n → qpGet t m = qpGet s m) ∧ t.cco.colls = s.cco.colls ∧
        (destOk s w.panel (Config.route q.ip % 256) = true → t.fab.frames.length = s.fab.frames.length + (wrPackets q w.data.length - (psn + pow2 24 - w.first) % pow2 24) ∧ OnlyChanges [.cco, .fab] s t))) ∧
      (w.rnr ≠ 0 → Completes (.rdmaNak n psn .rnr) s (fun t => t = sendWrite (qpSet s n (some { q with writes := [{ w with rnr := w.rnr - 1 }] })) q { w with rnr := w.rnr - 1 } ((psn + pow2 24 - w.first) % pow2 24)))) ∧
  (∀ (s : State) (n psn : Nat) (q : Qp) (w : RdmaWr),
      Canon s →
      qpGet s n = some q →
      q.err = false →
      q.writes = [w] →
      psnLe w.last ((psn + pow2 24 - 1) % pow2 24) = false →
      Completes (.rdmaNak n psn .remoteAccess) s (fun t => t = qpError s n w.epoch) ∧ Completes (.rdmaNak n psn .remoteOperational) s (fun t => t = qpError s n w.epoch)) ∧
  (∀ (s : State) (n : Nat) (q : Qp) (w : RdmaWr),
      Canon s →
      qpGet s n = some q →
      q.err = false →
      q.writes = [w] →
      w.retry ≠ 0 →
      Completes (.rdmaAckTimeout n) s (fun t => t = sendWrite (qpSet s n (some { q with writes := [{ w with retry := w.retry - 1 }] })) q { w with retry := w.retry - 1 } 0 ∧
        qpGet t n = some { q with writes := [{ w with retry := w.retry - 1 }] } ∧ (∀ m, m ≠ n → qpGet t m = qpGet s m) ∧ t.cco.colls = s.cco.colls ∧
        (destOk s w.panel (Config.route q.ip % 256) = true → t.fab.frames.length = s.fab.frames.length + wrPackets q w.data.length ∧ OnlyChanges [.cco, .fab] s t))) ∧
  (∀ (s : State) (n : Nat) (q : Qp) (w : RdmaWr) (u : List RdmaWr),
      qpGet s n = some q →
      q.err = false →
      q.writes = w :: u →
      w.retry = 0 →
      Completes (.rdmaAckTimeout n) s (fun t => t = qpError s n w.epoch)) ∧
  (∀ (s : State) (n psn : Nat) (q : Qp),
      qpGet s n = none ∨ (qpGet s n = some q ∧ q.err = true) →
      Completes (.rdmaAck n psn) s (fun t => t = s) ∧ Completes (.rdmaNak n psn .rnr) s (fun t => t = s) ∧ Completes (.rdmaAckTimeout n) s (fun t => t = s)) ∧
  (∀ (s : State) (port : Nat),
      Canon s →
      portCarries s port = true →
      domOn s 11 = true →
      Completes (.rdmaIgnoredPacket port) s (fun t => t = ccoCount s .CCO_CNT_RDMA_IGN (portPanel s port) 0 ∧ OnlyChanges [.counters] s t)) ∧
  (∀ (s : State) (g : Nat),
      Canon s →
      g < 16 →
      domOn s 11 = true →
      (spw s g).armed = true →
      (spw s g).isOpen = false →
      s.time.everLocked = true →
      [Rid.TM_SPW_CTRL, .TM_SPW_BASE_NS, .TM_SPW_BASE_SEC_LO, .TM_SPW_BASE_SEC_HI, .TM_SPW_CYCLE, .TM_SPW_OPEN].all (fun r => (heldGet s r g).isNone) = true →
      Completes (.spanWindowOpen g) s (fun t => spw t g = { (spw s g) with isOpen := true, opened := true, since := instantAt (spwBase s g) (8 * regBf s .TM_SPW_CYCLE g 26 0) (nowNs s), openFor := 8 * regBf s .TM_SPW_OPEN g 26 0 } ∧
        (∀ m, m ≠ g → spw t m = spw s m) ∧ ctrGet t .TM_SPW_CNT_OPEN g = ctrGet s .TM_SPW_CNT_OPEN g + 1 ∧ ((spw s g).opened = false → (evGet t .TM_SPW_EVENT g).bits.getLsbD 0 = true) ∧
        OnlyChanges [.events, .counters, .irq, .outbox, .spw] s t)) ∧
  (∀ (s : State) (g : Nat),
      Canon s →
      (spw s g).isOpen = true →
      Completes (.spanWindowClose g) s (fun t => spw t g = { (spw s g) with isOpen := false } ∧ (∀ m, m ≠ g → spw t m = spw s m) ∧
        (s.cco.colls.any (fun c => c.panel == regBf s .TM_SPW_CTRL g 11 8 && collWaits s c g) = true → Happened s t .TM_SPW_EVENT g 1) ∧
        (∀ k, selvGet t k = if (selvGet s k).openSeg.any (fun x => x.win == some g) = true then { selvGet s k with openSeg := none, queue := (selvGet s k).queue ++ (selvGet s k).openSeg.toList } else selvGet s k) ∧
        OnlyChanges [.events, .counters, .irq, .outbox, .mem, .selv, .spw] s t)) ∧
  (∀ (s : State) (g : Nat),
      (spw s g).isOpen = false →
      g < 16 →
      Completes (.spanWindowClose g) s (fun t => t = s)) ∧
  (∀ (s : State) (p : Nat) (id : Word) (j e : Nat) (c : Coll) (q : SpanCfg) (x : Epoch),
      collFind s p id = some c →
      c.span = some q →
      (peerSites q).contains j = true →
      epochFind c e = some x →
      x.state = .open →
      epochDone s c { x with closes := if x.closes.contains j then x.closes else x.closes ++ [j] } = false →
      Completes (.closeTackReceive p id j e) s (fun t => (∃ c', collFind t p id = some c' ∧ epochFind c' e = some { x with closes := if x.closes.contains j = true then x.closes else x.closes ++ [j] }) ∧
        t.outbox = s.outbox ∧ OnlyChanges [.cco] s t)) ∧
  (∀ (s : State) (p : Nat) (id : Word) (j e : Nat) (c : Coll) (q : SpanCfg),
      collFind s p id = some c →
      c.span = some q →
      (peerSites q).contains j = true →
      epochFind c e = none →
      c.aborted.lookup e = none →
      e < c.nextEpoch →
      Completes (.closeTackReceive p id j e) s (fun t => t = tackSite s c q j 6 0 false e)) ∧
  (∀ (s : State) (p : Nat) (id : Word) (j e cause : Nat) (c : Coll) (q : SpanCfg),
      collFind s p id = some c →
      c.span = some q →
      (peerSites q).contains j = true →
      epochFind c e = none →
      c.aborted.lookup e = some cause →
      Completes (.closeTackReceive p id j e) s (fun t => t = tackSite s c q j 5 cause (c.holdOnMiss && cause == 3) e)) ∧
  (∀ (s : State) (p : Nat) (id : Word) (j e : Nat) (c : Coll) (q : SpanCfg) (x : Epoch),
      collFind s p id = some c →
      c.span = some q →
      (peerSites q).contains j = true →
      epochFind c e = some x →
      x.state = .closing →
      (peerSites q).all (fun i => i == j || x.closes.contains i) = true →
      Completes (.closeTackReceive p id j e) s (fun t => ∀ c', collFind t p id = some c' → epochFind c' e = none ∧ (∀ y, y ∈ c'.epochs → y ∈ c.epochs))) ∧
  (∀ (s : State) (p : Nat) (id : Word) (e : Nat) (c : Coll) (q : SpanCfg) (x : Epoch),
      collFind s p id = some c →
      c.span = some q →
      epochFind c e = some x →
      x.state = .closing →
      Completes (.closeTackRepeat p id e) s (fun t => (∃ c', collFind t p id = some c' ∧ epochFind c' e = some { x with commitWait := true }) ∧ (x.commitWait = true → t.events = s.events) ∧
        (x.commitWait = false → (evGet t .CCO_EVENT p).bits.getLsbD 5 = true) ∧ OnlyChanges [.events, .irq, .outbox, .cco, .line] s t)) ∧
  (∀ (s : State) (k : Nat) (g : StoredSeg),
      Canon s →
      sessKind s k = 0 →
      sessValid s k = true →
      domOn s 18 = true →
      (selvGet s k).store.find? (fun g => g.seq == (selvGet s k).rcvNxt) = some g →
      g.hdr.npart = 1 →
      segChunks g = 1 →
      (selvGet s k).dlv = 0 →
      collFind s (sessPanelNo s k) g.hdr.coll = none →
      Completes (.spanChunkDeliver k) s (fun t => selvGet t k = { selvGet s k with store := (selvGet s k).store.filter (fun h => h.seq != g.seq), rcvNxt := (selvGet s k).rcvNxt + 1, dlv := 0 } ∧
        (∀ m, m ≠ k → selvGet t m = selvGet s m) ∧ ctrGet t .SELV_CNT_NO_COLL 0 = ctrGet s .SELV_CNT_NO_COLL 0 + 1 ∧ OnlyChanges [.counters, .selv] s t)) ∧
  (∀ (s : State) (k : Nat) (g : StoredSeg) (c : Coll) (q : SpanCfg) (i : Nat) (b : Bolt),
      Canon s →
      sessKind s k = 0 →
      sessValid s k = true →
      domOn s 18 = true →
      (selvGet s k).store.find? (fun g => g.seq == (selvGet s k).rcvNxt) = some g →
      g.hdr.npart = 1 →
      segChunks g = 1 →
      (selvGet s k).dlv = 0 →
      collFind s (sessPanelNo s k) g.hdr.coll = some c →
      c.span = some q →
      q.sessBase ≤ k →
      (peerSites q).contains (k - q.sessBase) = true →
      (epochFind c g.hdr.epoch).isSome = true →
      chunkBolt s (sessPanelNo s k) g.hdr.coll 2 g.hdr.epoch (segChunk s (sessPanelNo s k) g 0).1 = some (i, b) →
      boltGet s i = some b →
      b.state = .open →
      boltHas b (k - q.sessBase) = false →
      b.want.contains (k - q.sessBase) = true →
      g.hdr.fmt = q.fmt →
      q.fmt ≠ 10 →
      b.fixed = true ∨ b.chunk + 1 ≠ c.bucketChunks →
      b.elems ≠ 0 →
      (segChunk s (sessPanelNo s k) g 0).2.2.length = valueBytes q.fmt b.elems →
      chunkTakes s b 0 g.hdr.fmt false = true →
      Completes (.spanChunkDeliver k) s (fun t => selvGet t k = { selvGet s k with store := (selvGet s k).store.filter (fun h => h.seq != g.seq), rcvNxt := (selvGet s k).rcvNxt + 1, dlv := 0 } ∧
        (∀ m, m ≠ k → selvGet t m = selvGet s m) ∧ (∃ b' m, boltGet t i = some b' ∧ b'.msgs = b.msgs ++ [m] ∧ m.index = k - q.sessBase ∧ m.fmt = g.hdr.fmt ∧ m.elems = b.elems ∧ m.whole = true ∧
          m.flags = (segChunk s (sessPanelNo s k) g 0).2.1 &&& 0x1F ∧ m.cells = cellsOf (valueBytes q.fmt b.elems) ∧ m.data = readMsg [⟨0, b.elems, g.hdr.fmt, (segChunk s (sessPanelNo s k) g 0).2.2⟩] false ∧ b'.acc = b.acc ∧ b'.counted = b.counted) ∧
        (∀ j, j ≠ i → boltGet t j = boltGet s j) ∧ t.cco = s.cco ∧ OnlyChanges [.events, .counters, .irq, .outbox, .fresh, .bob, .selv, .seam] s t)) ∧
  (∀ (s : State) (k : Nat) (g : StoredSeg) (c : Coll) (q : SpanCfg) (i : Nat) (b : Bolt),
      Canon s →
      sessKind s k = 0 →
      sessValid s k = true →
      domOn s 18 = true →
      (selvGet s k).store.find? (fun g => g.seq == (selvGet s k).rcvNxt) = some g →
      g.hdr.npart = 1 →
      segChunks g = 1 →
      (selvGet s k).dlv = 0 →
      collFind s (sessPanelNo s k) g.hdr.coll = some c →
      c.span = some q →
      q.sessBase ≤ k →
      (peerSites q).contains (k - q.sessBase) = true →
      (epochFind c g.hdr.epoch).isSome = true →
      chunkBolt s (sessPanelNo s k) g.hdr.coll 2 g.hdr.epoch (segChunk s (sessPanelNo s k) g 0).1 = some (i, b) →
      g.hdr.fmt ≠ q.fmt →
      Completes (.spanChunkDeliver k) s (fun t => selvGet t k = { selvGet s k with store := (selvGet s k).store.filter (fun h => h.seq != g.seq), rcvNxt := (selvGet s k).rcvNxt + 1, dlv := 0 } ∧
        (evGet t .SEAM_CTX_EVENT b.ctx).bits.getLsbD 4 = true ∧ t.seam = s.seam ∧ OnlyChanges [.events, .irq, .outbox, .selv] s t)) ∧
  (∀ (s : State) (k : Nat) (g : StoredSeg),
      Canon s →
      sessKind s k = 0 →
      sessValid s k = true →
      domOn s 18 = true →
      (selvGet s k).store.find? (fun g => g.seq == (selvGet s k).rcvNxt) = some g →
      g.hdr.part + 1 < g.hdr.npart →
      Completes (.spanChunkDeliver k) s (fun t => selvGet t k = { selvGet s k with parts := (if g.hdr.part = 0 then [] else (selvGet s k).parts) ++ g.payload, store := (selvGet s k).store.filter (fun h => h.seq != g.seq), rcvNxt := (selvGet s k).rcvNxt + 1, dlv := 0 } ∧
        (∀ m, m ≠ k → selvGet t m = selvGet s m) ∧ OnlyChanges [.selv] s t)) ∧
  (∀ (s : State) (k : Nat) (g : StoredSeg) (c : Coll) (q : SpanCfg),
      sessKind s k = 0 →
      sessValid s k = true →
      domOn s 18 = true →
      (selvGet s k).store.find? (fun g => g.seq == (selvGet s k).rcvNxt) = some g →
      g.hdr.npart = 1 →
      collFind s (sessPanelNo s k) g.hdr.coll = some c →
      c.span = some q →
      q.sessBase ≤ k →
      (peerSites q).contains (k - q.sessBase) = true →
      epochFind c g.hdr.epoch = none →
      c.aborted.any (fun a => a.1 == g.hdr.epoch) = false →
      c.nextEpoch ≤ g.hdr.epoch →
      chunkBolt s (sessPanelNo s k) g.hdr.coll 2 g.hdr.epoch (segChunk s (sessPanelNo s k) g (selvGet s k).dlv).1 = none →
      Completes (.spanChunkDeliver k) s (fun t => t = s)) ∧
  (∀ (s : State) (k : Nat),
      sessKind s k ≠ 0 ∨ sessValid s k = false ∨ domOn s 18 = false ∨ (selvGet s k).store.find? (fun g => g.seq == (selvGet s k).rcvNxt) = none →
      Completes (.spanChunkDeliver k) s (fun t => t = s))

/-- Codebooks load and clear by command, and blocks return from the encoders and decoders. A PLT command while BUSY gives 0x03. CLEAR, or LOAD,
of a slot in use will give 0x02; LOAD copies the image and the slot is LOADING. PLT_CMD_DONE makes a checked image VALID under the next GEN
with its fingerprint, or the slot EMPTY with result 0x01 and CB_REFUSED; a CLEAR empties the slot. A returned block's codes enter DST, its
bytes the stream, its flags the chunk; a decoded block's values, free ones where the spec gives
none (log 38), take its place in the contribution, once a bobbin is bound that its handle names. (R199, R201, R202, R203, R205, R206, R207, R208, R209, R212) -/
def Obligations.PleatUnits : Prop :=
  (∀ (s : State) (req : Requester) (k : Nat),
      Arrives s req .PLT_CMD 0 = true →
      s.plt.busy = true →
      Completes (.pltLoad req k) s (fun t => t = { s with plt := { s.plt with result := 3 } }) ∧ Completes (.pltClear req k) s (fun t => t = { s with plt := { s.plt with result := 3 } })) ∧
  (∀ (s : State) (req : Requester) (k : Nat),
      Arrives s req .PLT_CMD 0 = true →
      s.plt.busy = false →
      Completes (.pltClear req k) s (fun t => t = { s with plt := { s.plt with busy := true, op := 2, slot := k % 256, image := none, next := if codebookRef s (k % 256) ≠ 0 then 2 else 0 } })) ∧
  (∀ (s : State) (req : Requester) (k : Nat),
      Arrives s req .PLT_CMD 0 = true →
      s.plt.busy = false →
      codebookRef s (k % 256) ≠ 0 →
      Completes (.pltLoad req k) s (fun t => t = { s with plt := { s.plt with busy := true, op := 1, slot := k % 256, image := none, next := 2 } })) ∧
  (∀ (s : State) (req : Requester) (k : Nat),
      Canon s →
      Arrives s req .PLT_CMD 0 = true →
      s.plt.busy = false →
      codebookRef s (k % 256) = 0 →
      inQuota s pfView ((regGet s .PLT_CMD_ADDR_LO 0).toNat + (regGet s .PLT_CMD_ADDR_HI 0).toNat * pow2 32) 16 = true →
      ueIn s ((regGet s .PLT_CMD_ADDR_LO 0).toNat + (regGet s .PLT_CMD_ADDR_HI 0).toNat * pow2 32) 16 = none →
      (leField (hbmBytes s ((regGet s .PLT_CMD_ADDR_LO 0).toNat + (regGet s .PLT_CMD_ADDR_HI 0).toNat * pow2 32) 16) 8 1) ≤ 2 →
      inQuota s pfView (leField (hbmBytes s ((regGet s .PLT_CMD_ADDR_LO 0).toNat + (regGet s .PLT_CMD_ADDR_HI 0).toNat * pow2 32) 16) 0 8) (544 * pow2 ((leField (hbmBytes s ((regGet s .PLT_CMD_ADDR_LO 0).toNat + (regGet s .PLT_CMD_ADDR_HI 0).toNat * pow2 32) 16) 8 1) + 1)) = true →
      ueIn s (leField (hbmBytes s ((regGet s .PLT_CMD_ADDR_LO 0).toNat + (regGet s .PLT_CMD_ADDR_HI 0).toNat * pow2 32) 16) 0 8) (544 * pow2 ((leField (hbmBytes s ((regGet s .PLT_CMD_ADDR_LO 0).toNat + (regGet s .PLT_CMD_ADDR_HI 0).toNat * pow2 32) 16) 8 1) + 1)) = none →
      Completes (.pltLoad req k) s (fun t => t.plt.busy = true ∧ t.plt.op = 1 ∧ t.plt.slot = k % 256 ∧ t.plt.dim = (leField (hbmBytes s ((regGet s .PLT_CMD_ADDR_LO 0).toNat + (regGet s .PLT_CMD_ADDR_HI 0).toNat * pow2 32) 16) 8 1) ∧ t.plt.image = some (hbmBytes s (leField (hbmBytes s ((regGet s .PLT_CMD_ADDR_LO 0).toNat + (regGet s .PLT_CMD_ADDR_HI 0).toNat * pow2 32) 16) 0 8) (544 * pow2 ((leField (hbmBytes s ((regGet s .PLT_CMD_ADDR_LO 0).toNat + (regGet s .PLT_CMD_ADDR_HI 0).toNat * pow2 32) 16) 8 1) + 1))) ∧ t.plt.next = 0 ∧
        cbGet t (k % 256) = { cbGet s (k % 256) with state := .loading } ∧ (∀ m, m ≠ k % 256 → cbGet t m = cbGet s m) ∧ OnlyChanges [.events, .counters, .irq, .outbox, .plt] s t)) ∧
  (∀ (s : State) (req : Requester) (k : Nat),
      Arrives s req .PLT_CMD 0 = true →
      s.plt.busy = false →
      codebookRef s (k % 256) = 0 →
      inQuota s pfView ((regGet s .PLT_CMD_ADDR_LO 0).toNat + (regGet s .PLT_CMD_ADDR_HI 0).toNat * pow2 32) 16 = false →
      Completes (.pltLoad req k) s (fun t => t = { s with plt := { s.plt with busy := true, op := 1, slot := k % 256, image := none, next := 1 } })) ∧
  (∀ (s : State) (img : List Byte),
      Canon s →
      s.plt.busy = true →
      s.plt.op = 1 →
      s.plt.image = some img →
      imageOk s.plt.dim img = true →
      s.plt.next = 0 →
      Completes .pltCmdDone s (fun t => cbGet t s.plt.slot = ⟨.valid, (cbGet s s.plt.slot).gen + 1, s.plt.dim, crc32c (img ++ [BitVec.ofNat 8 s.plt.dim]),
          (readElems 2 (272 * pow2 (s.plt.dim + 1)) img).map (fun w => if w = 0x8000 then 0 else w)⟩ ∧ (∀ m, m ≠ s.plt.slot → cbGet t m = cbGet s m) ∧
        t.plt.busy = false ∧ t.plt.result = 0 ∧ Happened s t .PLT_EVENT 0 0 ∧ t.mem = { s.mem with ue := t.mem.ue } ∧ (∀ b ∈ t.mem.ue, b ∈ s.mem.ue) ∧
        OnlyChanges [.events, .counters, .irq, .outbox, .fresh, .mem, .plt] s t)) ∧
  (∀ (s : State) (img : List Byte),
      Canon s →
      s.plt.busy = true →
      s.plt.op = 1 →
      s.plt.image = some img →
      imageOk s.plt.dim img = false →
      Completes .pltCmdDone s (fun t => cbGet t s.plt.slot = ⟨.empty, (cbGet s s.plt.slot).gen, 0, 0, []⟩ ∧ (∀ m, m ≠ s.plt.slot → cbGet t m = cbGet s m) ∧
        t.plt.busy = false ∧ t.plt.result = 1 ∧ (evGet t .PLT_EVENT 0).bits.getLsbD 3 = true ∧ (evGet t .PLT_EVENT 0).bits.getLsbD 0 = true ∧ OnlyChanges [.events, .irq, .outbox, .plt] s t)) ∧
  (∀ (s : State),
      Canon s →
      s.plt.busy = true →
      s.plt.op = 2 →
      s.plt.image = none →
      s.plt.next = 0 →
      Completes .pltCmdDone s (fun t => cbGet t s.plt.slot = ⟨.empty, (cbGet s s.plt.slot).gen, 0, 0, []⟩ ∧ (∀ m, m ≠ s.plt.slot → cbGet t m = cbGet s m) ∧
        t.plt.busy = false ∧ t.plt.result = 0 ∧ Happened s t .PLT_EVENT 0 0 ∧ OnlyChanges [.events, .irq, .outbox, .plt] s t)) ∧
  (∀ (s : State),
      Canon s →
      s.plt.busy = true →
      s.plt.image = none →
      s.plt.next ≠ 0 →
      Completes .pltCmdDone s (fun t => t.plt = { s.plt with busy := false, image := none, result := s.plt.next } ∧ (s.plt.next ≠ 1 → Happened s t .PLT_EVENT 0 0) ∧
        (s.plt.next = 1 → (evGet t .PLT_EVENT 0).bits.getLsbD 3 = true ∧ (evGet t .PLT_EVENT 0).bits.getLsbD 0 = true) ∧ OnlyChanges [.events, .irq, .outbox, .plt] s t)) ∧
  (∀ (s : State),
      s.plt.busy = false →
      Completes .pltCmdDone s (fun t => t = s)) ∧
  (∀ (s : State) (k : Nat) (q : EncReq) (x : Inv) (b : Bolt),
      Canon s →
      s.plt.enc[k]? = some q →
      k < 16 →
      domOn s 17 = true →
      runOf s q.slot = some x →
      x.num = q.inv →
      boltGet s x.bolt = some b →
      Completes (.pleatBlockReturn k) s (fun t =>
        (let o := encodeBlock (cbGet s q.cb) q.ftz q.resFp32 q.vals
         (∃ y, runOf t q.slot = some y ∧ invReg y q.dst = ⟨(o.bytes.drop 2).map (fun b => BitVec.ofNat 32 b.toNat), []⟩ ∧ y.out.pleat = x.out.pleat.set q.place (some o.bytes) ∧
           y.pend = x.pend.erase q.dst ∧ y.plt = x.plt - 1 ∧ y.pc = x.pc ∧ y.emits = x.emits) ∧
         boltGet t x.bolt = some { b with flags := b.flags ||| o.flags }) ∧
        t.plt = { s.plt with enc := s.plt.enc.eraseIdx k } ∧ (∀ j, j ≠ q.slot → slotGet t j = slotGet s j) ∧ (∀ j, j ≠ x.bolt → boltGet t j = boltGet s j) ∧
        ctrGet t .PLT_CNT_ENC_BLK 0 = ctrGet s .PLT_CNT_ENC_BLK 0 + 1 ∧
        t.seam.remq = s.seam.remq ++ (match q.rem with
          | some (addr, n) => if b.state = .aborting then [] else
              (let data := ((encodeBlock (cbGet s q.cb) q.ftz q.resFp32 q.vals).resid.take n).flatMap (fun w => leBytes (if q.resFp32 then 4 else 2) w.toNat); [⟨q.slot, q.inv, true, q.vec, addr, data, data.length⟩])
          | none => []) ∧
        OnlyChanges [.counters, .seam, .plt] s t)) ∧
  (∀ (s : State) (k : Nat) (q : EncReq),
      Canon s →
      s.plt.enc[k]? = some q →
      k < 16 →
      domOn s 17 = true →
      (∀ x, runOf s q.slot = some x → x.num ≠ q.inv) →
      Completes (.pleatBlockReturn k) s (fun t => t.plt = { s.plt with enc := s.plt.enc.eraseIdx k } ∧ ctrGet t .PLT_CNT_ENC_BLK 0 = ctrGet s .PLT_CNT_ENC_BLK 0 + 1 ∧ OnlyChanges [.counters, .plt] s t)) ∧
  (∀ (s : State) (k : Nat),
      s.plt.enc[k]? = none ∨ 16 ≤ k ∨ domOn s 17 = false →
      Completes (.pleatBlockReturn k) s (fun t => t = s)) ∧
  (∀ (s : State) (g n : Nat) (d : DecJob) (b : Bolt) (m : Msg),
      Canon s →
      s.plt.dec.find? (fun d => d.group == g && d.block % 16 == n) = some d →
      domOn s 17 = true →
      boltGet s d.bolt = some b →
      b.msgs.find? (fun m => m.index == d.index) = some m →
      m.dbob.isSome = true →
      bobUse s 0x24 m.dbob (1024 * d.block) = (true, s) →
      Completes (.pleatDecodeDone g n) s (fun t =>
        (let vals := match decodeBlock (cbGet s d.cb) d.bytes with | some l => l | none => (freeWords 256 s).1
         boltGet t d.bolt = some { b with msgs := b.msgs.map (fun m => if m.index = d.index then
           (let raw := m.data.raw.take (256 * d.block) ++ vals ++ m.data.raw.drop (256 * (d.block + 1))
            { m with decode := m.decode - 1, data := { m.data with raw := if m.decode ≤ 1 then raw.take m.elems else raw } }) else m) }) ∧
        t.plt = { s.plt with dec := s.plt.dec.erase d } ∧ (∀ j, j ≠ d.bolt → boltGet t j = boltGet s j) ∧
        ctrGet t .PLT_CNT_DEC_BLK 0 = ctrGet s .PLT_CNT_DEC_BLK 0 + 1 ∧ ((decodeBlock (cbGet s d.cb) d.bytes).isSome = true → t.fresh = s.fresh) ∧ OnlyChanges [.counters, .fresh, .seam, .plt] s t)) ∧
  (∀ (s u : State) (g n : Nat) (d : DecJob) (b : Bolt) (m : Msg),
      s.plt.dec.find? (fun d => d.group == g && d.block % 16 == n) = some d →
      domOn s 17 = true →
      boltGet s d.bolt = some b →
      b.msgs.find? (fun m => m.index == d.index) = some m →
      m.dbob = none ∧ u = s ∨ m.dbob.isSome = true ∧ bobUse s 0x24 m.dbob (1024 * d.block) = (false, u) →
      Completes (.pleatDecodeDone g n) s (fun t => t = u)) ∧
  (∀ (s : State) (g n : Nat),
      s.plt.dec.find? (fun d => d.group == g && d.block % 16 == n) = none ∨ domOn s 17 = false →
      Completes (.pleatDecodeDone g n) s (fun t => t = s))

/-- Safe state ends only when PORST_N is asserted. From every state in safe state whose straps have been sampled, every step but one that takes
PORST_N_ASSERT answers a state in safe state, with the same cause and the straps sampled. (R415) -/
def Obligations.SafeStateLasts : Prop :=
  ∀ s t : State, s.boot.stage = 15 → 3 ≤ s.boot.samples.length → s.pending.head? ≠ some .porstNAssert → step s = .next t →
    t.boot.stage = 15 ∧ 3 ≤ t.boot.samples.length ∧ t.boot.safeCause = s.boot.safeCause

/-- The minimum image version never falls. From every state in which a raise in progress is not below the minimum version, every step, a reset,
a device recovery and an image application included, answers a state with at least that minimum version, in which the same holds of a raise
in progress. (R421, R423, R424, R478) -/
def Obligations.MinimumVersionNeverFalls : Prop :=
  ∀ s t : State, (s.boot.secBusy = true → s.boot.minver.toNat ≤ s.boot.secValue.toNat) → step s = .next t →
    s.boot.minver.toNat ≤ t.boot.minver.toNat ∧ (t.boot.secBusy = true → t.boot.minver.toNat ≤ t.boot.secValue.toNat)

/-- SCP headers, tack words and stitch words read back what was written, and every one is the encoding of what it reads as. An SCP header whose
fields are within their bits and that has nothing reserved set takes 64 bytes and parses to itself; 64 bytes with nothing reserved set are
the encoding of what they parse to. The same holds of the 256-bit tack word, and of the 64-bit stitch word. (R88, R120, R121, R122, R245) -/
def Obligations.ScpHeaderRoundTrip : Prop :=
  (∀ h : ScpHdr, h.inRange = true → (scpEncode h).length = 64 ∧ scpParse (scpEncode h) = h) ∧
  (∀ bs : List Byte, bs.length = 64 → (scpParse bs).resv = true → scpEncode (scpParse bs) = bs) ∧
  (∀ t : Tack, tackParse (tackEncode t) = t) ∧ (∀ w : BitVec 256, tackEncode (tackParse w) = w) ∧
  (∀ t : Stitch, t.inRange = true → stitchOf (stitchWord t) = t) ∧ (∀ w : Dword, stitchWord (stitchOf w) = w)

/-- IOTA writes 256v + i into lane i, with BUCKET the chunk index times the nominal count added. An IOTA that issues writes into its destination
register, for vector v of the chunk, the value 256v + i in each lane i of the vector; with BUCKET set (IMM bit 20) it adds the chunk index
times the nominal chunk element count. It changes no other register, no chunk and no scratch area. (R94) -/
def Obligations.IotaIndexes : Prop :=
  (∀ (s : State) (eng slot : Nat) (v : Env),
      Canon s →
      Issues s eng slot 5 v →
      tabWf ⟨[], []⟩ v.x.v = true →
      regsReady v.x [v.t.dst] = true →
      immBf v.t 20 20 = 0 →
      Completes (.stitchIota eng slot) s (fun t => ∃ x : Inv, Stitched s t v x (v.x.pc + 1) (if vecLen v.b.elems (vaFirst v) = 0 then 0 else 1) ∧
        (∀ r, r ≠ v.t.dst → invReg x r = invReg v.x r) ∧ (invReg x v.t.dst).lanes.length = vecLen v.b.elems (vaFirst v) ∧
        (∀ i, i < vecLen v.b.elems (vaFirst v) → (invReg x v.t.dst).lanes[i]? = some (BitVec.ofNat 32 (256 * vaFirst v + i))) ∧ SeamKept s t)) ∧
  (∀ (s : State) (eng slot : Nat) (v : Env) (c : Coll),
      Canon s →
      Issues s eng slot 5 v →
      tabWf ⟨[], []⟩ v.x.v = true →
      regsReady v.x [v.t.dst] = true →
      immBf v.t 20 20 = 1 →
      collFind s v.b.panel v.b.coll = some c →
      Completes (.stitchIota eng slot) s (fun t => ∃ x : Inv, Stitched s t v x (v.x.pc + 1) (if vecLen v.b.elems (vaFirst v) = 0 then 0 else 1) ∧
        (∀ r, r ≠ v.t.dst → invReg x r = invReg v.x r) ∧ (invReg x v.t.dst).lanes.length = vecLen v.b.elems (vaFirst v) ∧
        (∀ i, i < vecLen v.b.elems (vaFirst v) → (invReg x v.t.dst).lanes[i]? = some (BitVec.ofNat 32 (v.b.chunk * c.chunkElems + 256 * vaFirst v + i))) ∧ SeamKept s t))

/-- A write to SW_LIMIT or SW_PFC that leaves XON below 0, or XOFF below 36 cells, is not accepted. With XOFF the limit less the headroom and
XON that less the hysteresis, as the write would leave them, a write that arrives at SW_LIMIT or SW_PFC and leaves XON below 0 or XOFF below
36 changes neither register and sets SW_EVENT bit 0, LIMIT_REFUSED. (R229) -/
def Obligations.LimitWrites : Prop :=
  (∀ (s : State) (req : Requester) (p c : Nat) (v : Word),
      Arrives s req .SW_LIMIT (pc p c) = true →
      (bf (acceptWord .SW_LIMIT (regGet s .SW_LIMIT (pc p c)) v) 18 0 : Int) - bf (regGet s .SW_PFC (pc p c)) 11 0 - bf (regGet s .SW_PFC (pc p c)) 27 16 < 0 ∨ (bf (acceptWord .SW_LIMIT (regGet s .SW_LIMIT (pc p c)) v) 18 0 : Int) - bf (regGet s .SW_PFC (pc p c)) 11 0 < 36 →
      Completes (.swLimitWrite req false p c v) s (fun t => regGet t .SW_LIMIT (pc p c) = regGet s .SW_LIMIT (pc p c) ∧ Happened s t .SW_EVENT 0 0 ∧
        OnlyChanges [.events, .irq, .outbox] s t)) ∧
  (∀ (s : State) (req : Requester) (p c : Nat) (v : Word),
      Arrives s req .SW_PFC (pc p c) = true →
      (bf (regGet s .SW_LIMIT (pc p c)) 18 0 : Int) - bf (acceptWord .SW_PFC (regGet s .SW_PFC (pc p c)) v) 11 0 - bf (acceptWord .SW_PFC (regGet s .SW_PFC (pc p c)) v) 27 16 < 0 ∨ (bf (regGet s .SW_LIMIT (pc p c)) 18 0 : Int) - bf (acceptWord .SW_PFC (regGet s .SW_PFC (pc p c)) v) 11 0 < 36 →
      Completes (.swLimitWrite req true p c v) s (fun t => regGet t .SW_PFC (pc p c) = regGet s .SW_PFC (pc p c) ∧ Happened s t .SW_EVENT 0 0 ∧
        OnlyChanges [.events, .irq, .outbox] s t))

/-- A write to FPORT_QD_MODE is ignored while the quadrant is in use, and retrains every lane otherwise. While a port of the quadrant has EN
set, or a lane of it belongs to a basting circuit or receiver, the write that arrives changes nothing and sets FPORT_EVENT bit 2,
MODE_REFUSED. Otherwise a mode of the three that exist is taken, the link of every port of the quadrant is down and every port that the mode
gives trains; no other port and no other register changes. The fourth mode does not exist, and its write changes nothing. (R217) -/
def Obligations.QuadrantMode : Prop :=
  (∀ (s : State) (req : Requester) (q : Nat) (v : Word),
      Arrives s req .FPORT_QD_MODE q = true →
      ((∃ k, k < 32 ∧ portEn s (32 * q + k) = true) ∨ (∃ j, j < 64 ∧ laneBasting s (64 * q + j) = true)) →
      Completes (.fportQdModeWrite req q v) s (fun t => regGet t .FPORT_QD_MODE q = regGet s .FPORT_QD_MODE q ∧ Happened s t .FPORT_EVENT 0 2 ∧
        OnlyChanges [.events, .irq, .outbox] s t)) ∧
  (∀ (s : State) (req : Requester) (q : Nat) (v : Word),
      Canon s →
      Arrives s req .FPORT_QD_MODE q = true →
      (∀ k, k < 32 → portEn s (32 * q + k) = false) →
      (∀ j, j < 64 → laneBasting s (64 * q + j) = false) →
      bf v 1 0 ≠ 3 →
      Completes (.fportQdModeWrite req q v) s (fun t => regGet t .FPORT_QD_MODE q = BitVec.ofNat 32 (bf v 1 0) ∧
        (∀ r i, r ≠ .FPORT_QD_MODE ∨ i ≠ q → regGet t r i = regGet s r i) ∧
        (∀ k, k < 32 → (fabPort t (32 * q + k)).link = false ∧ (fabPort t (32 * q + k)).training = portImpl t (32 * q + k)) ∧
        (∀ p, p / 32 ≠ q → fabPort t p = fabPort s p) ∧ t.fab.frames = s.fab.frames ∧ OnlyChanges [.regs, .events, .irq, .outbox, .fab] s t)) ∧
  (∀ (s : State) (req : Requester) (q : Nat) (v : Word),
      Arrives s req .FPORT_QD_MODE q = true →
      (∀ k, k < 32 → portEn s (32 * q + k) = false) →
      (∀ j, j < 64 → laneBasting s (64 * q + j) = false) →
      bf v 1 0 = 3 →
      Completes (.fportQdModeWrite req q v) s (fun t => t = s))
end

