-- ==== Sys2Proof/Laws/Arith.lean ====
section
/-! SUPPORT. The checks of R73 and R74 pass every right result. -/

namespace Sys2Proof.Machine

/-- The bytes of a number are congruent to it modulo 255. -/
theorem leBytes_sum (n v : Nat) (h : v < 256 ^ n) : ((leBytes n v).map (fun b => b.toNat)).sum % 255 = v % 255 := by
  induction n generalizing v with
  | zero => simp only [Nat.pow_zero] at h; simp [leBytes]; omega
  | succ n ih =>
    have h' : v / 256 < 256 ^ n := by rw [Nat.div_lt_iff_lt_mul (by decide)]; rw [Nat.pow_succ] at h; exact h
    have := ih (v / 256) h'
    simp only [leBytes, List.map_cons, List.sum_cons, BitVec.toNat_ofNat]
    omega

/-- A word's residue is its value modulo 255. -/
theorem residue255_eq (a : BitVec 320) : residue255 a = a.toNat % 255 :=
  leBytes_sum 40 a.toNat (by rw [show (256 : Nat) = 2 ^ 8 from rfl, ← Nat.pow_mul]; exact a.isLt)

/-- A right 320-bit sum passes the check (R73). -/
theorem residueOk_add (a b : BitVec 320) : residueOk a b (a + b) = true := by
  have ha := a.isLt
  have hb := b.isLt
  have hs := BitVec.toNat_add a b
  have hr : 2 ^ (8 * 40) % 255 = 1 := by rw [Nat.pow_mul, Nat.pow_mod]
  simp only [residueOk, residuePredict, residue255_eq, beq_iff_eq, hs, pow2]
  change _ < 2 ^ (8 * 40) at ha
  change _ < 2 ^ (8 * 40) at hb
  change (_ % 2 ^ (8 * 40)) % 255 % 255 = (_ % 255 + _ % 255 + 255 - (if 2 ^ (8 * 40) ≤ _ then 1 else 0)) % 255
  generalize 2 ^ (8 * 40) = q at *
  generalize a.toNat = x at *
  generalize b.toNat = y at *
  by_cases hc : q ≤ x + y
  · have h : (x + y) % q = x + y - q := by rw [Nat.mod_eq_sub_mod hc, Nat.mod_eq_of_lt (by omega)]
    rw [if_pos hc, h]
    omega
  · rw [if_neg hc, Nat.mod_eq_of_lt (Nat.lt_of_not_le hc)]
    omega

/-- A right product passes the check (R74). -/
theorem productOk_mul (a b : Nat) : productOk a b (a * b) = true := by
  simp [productOk, Nat.mul_mod]

end Sys2Proof.Machine
end

