-- ==== Sys2Proof/Laws/State.lean ====
section
/-! SUPPORT. What each update of the state leaves as it was, field by field. -/

namespace Sys2Proof.Machine

/-! ### regSet: every field but `regs` -/
@[simp] theorem regSet_pending (s : State) (r : Rid) (i : Nat) (v : Word) : (regSet s r i v).pending = s.pending := rfl
@[simp] theorem regSet_held (s : State) (r : Rid) (i : Nat) (v : Word) : (regSet s r i v).held = s.held := rfl
@[simp] theorem regSet_events (s : State) (r : Rid) (i : Nat) (v : Word) : (regSet s r i v).events = s.events := rfl
@[simp] theorem regSet_counters (s : State) (r : Rid) (i : Nat) (v : Word) : (regSet s r i v).counters = s.counters := rfl
@[simp] theorem regSet_latches (s : State) (r : Rid) (i : Nat) (v : Word) : (regSet s r i v).latches = s.latches := rfl
@[simp] theorem regSet_irq (s : State) (r : Rid) (i : Nat) (v : Word) : (regSet s r i v).irq = s.irq := rfl
@[simp] theorem regSet_glbBusErr (s : State) (r : Rid) (i : Nat) (v : Word) : (regSet s r i v).glbBusErr = s.glbBusErr := rfl
@[simp] theorem regSet_pnlBusErr (s : State) (r : Rid) (i : Nat) (v : Word) : (regSet s r i v).pnlBusErr = s.pnlBusErr := rfl
@[simp] theorem regSet_timeLatch (s : State) (r : Rid) (i : Nat) (v : Word) : (regSet s r i v).timeLatch = s.timeLatch := rfl
@[simp] theorem regSet_response (s : State) (r : Rid) (i : Nat) (v : Word) : (regSet s r i v).response = s.response := rfl
@[simp] theorem regSet_outbox (s : State) (r : Rid) (i : Nat) (v : Word) : (regSet s r i v).outbox = s.outbox := rfl
@[simp] theorem regSet_fresh (s : State) (r : Rid) (i : Nat) (v : Word) : (regSet s r i v).fresh = s.fresh := rfl
@[simp] theorem regSet_localUs (s : State) (r : Rid) (i : Nat) (v : Word) : (regSet s r i v).localUs = s.localUs := rfl
@[simp] theorem regSet_boot (s : State) (r : Rid) (i : Nat) (v : Word) : (regSet s r i v).boot = s.boot := rfl
@[simp] theorem regSet_flash (s : State) (r : Rid) (i : Nat) (v : Word) : (regSet s r i v).flash = s.flash := rfl
@[simp] theorem regSet_pins (s : State) (r : Rid) (i : Nat) (v : Word) : (regSet s r i v).pins = s.pins := rfl
@[simp] theorem regSet_panels (s : State) (r : Rid) (i : Nat) (v : Word) : (regSet s r i v).panels = s.panels := rfl
@[simp] theorem regSet_pwr (s : State) (r : Rid) (i : Nat) (v : Word) : (regSet s r i v).pwr = s.pwr := rfl
@[simp] theorem regSet_health (s : State) (r : Rid) (i : Nat) (v : Word) : (regSet s r i v).health = s.health := rfl
@[simp] theorem regSet_obs (s : State) (r : Rid) (i : Nat) (v : Word) : (regSet s r i v).obs = s.obs := rfl
@[simp] theorem regSet_bist (s : State) (r : Rid) (i : Nat) (v : Word) : (regSet s r i v).bist = s.bist := rfl
@[simp] theorem regSet_bob (s : State) (r : Rid) (i : Nat) (v : Word) : (regSet s r i v).bob = s.bob := rfl
@[simp] theorem regSet_mem (s : State) (r : Rid) (i : Nat) (v : Word) : (regSet s r i v).mem = s.mem := rfl
@[simp] theorem regSet_time (s : State) (r : Rid) (i : Nat) (v : Word) : (regSet s r i v).time = s.time := rfl
@[simp] theorem regSet_thm (s : State) (r : Rid) (i : Nat) (v : Word) : (regSet s r i v).thm = s.thm := rfl
@[simp] theorem regSet_selv (s : State) (r : Rid) (i : Nat) (v : Word) : (regSet s r i v).selv = s.selv := rfl
@[simp] theorem regSet_spw (s : State) (r : Rid) (i : Nat) (v : Word) : (regSet s r i v).spw = s.spw := rfl
@[simp] theorem regSet_cco (s : State) (r : Rid) (i : Nat) (v : Word) : (regSet s r i v).cco = s.cco := rfl
@[simp] theorem regSet_seam (s : State) (r : Rid) (i : Nat) (v : Word) : (regSet s r i v).seam = s.seam := rfl
@[simp] theorem regSet_plt (s : State) (r : Rid) (i : Nat) (v : Word) : (regSet s r i v).plt = s.plt := rfl
@[simp] theorem regSet_fab (s : State) (r : Rid) (i : Nat) (v : Word) : (regSet s r i v).fab = s.fab := rfl
@[simp] theorem regSet_bast (s : State) (r : Rid) (i : Nat) (v : Word) : (regSet s r i v).bast = s.bast := rfl
@[simp] theorem regSet_line (s : State) (r : Rid) (i : Nat) (v : Word) : (regSet s r i v).line = s.line := rfl
@[simp] theorem regSet_opt (s : State) (r : Rid) (i : Nat) (v : Word) : (regSet s r i v).opt = s.opt := rfl

/-! ### heldSet: every field but `held` -/
@[simp] theorem heldSet_pending (s : State) (r : Rid) (i : Nat) (v : Option Word) : (heldSet s r i v).pending = s.pending := rfl
@[simp] theorem heldSet_regs (s : State) (r : Rid) (i : Nat) (v : Option Word) : (heldSet s r i v).regs = s.regs := rfl
@[simp] theorem heldSet_events (s : State) (r : Rid) (i : Nat) (v : Option Word) : (heldSet s r i v).events = s.events := rfl
@[simp] theorem heldSet_counters (s : State) (r : Rid) (i : Nat) (v : Option Word) : (heldSet s r i v).counters = s.counters := rfl
@[simp] theorem heldSet_latches (s : State) (r : Rid) (i : Nat) (v : Option Word) : (heldSet s r i v).latches = s.latches := rfl
@[simp] theorem heldSet_irq (s : State) (r : Rid) (i : Nat) (v : Option Word) : (heldSet s r i v).irq = s.irq := rfl
@[simp] theorem heldSet_glbBusErr (s : State) (r : Rid) (i : Nat) (v : Option Word) : (heldSet s r i v).glbBusErr = s.glbBusErr := rfl
@[simp] theorem heldSet_pnlBusErr (s : State) (r : Rid) (i : Nat) (v : Option Word) : (heldSet s r i v).pnlBusErr = s.pnlBusErr := rfl
@[simp] theorem heldSet_timeLatch (s : State) (r : Rid) (i : Nat) (v : Option Word) : (heldSet s r i v).timeLatch = s.timeLatch := rfl
@[simp] theorem heldSet_response (s : State) (r : Rid) (i : Nat) (v : Option Word) : (heldSet s r i v).response = s.response := rfl
@[simp] theorem heldSet_outbox (s : State) (r : Rid) (i : Nat) (v : Option Word) : (heldSet s r i v).outbox = s.outbox := rfl
@[simp] theorem heldSet_fresh (s : State) (r : Rid) (i : Nat) (v : Option Word) : (heldSet s r i v).fresh = s.fresh := rfl
@[simp] theorem heldSet_localUs (s : State) (r : Rid) (i : Nat) (v : Option Word) : (heldSet s r i v).localUs = s.localUs := rfl
@[simp] theorem heldSet_boot (s : State) (r : Rid) (i : Nat) (v : Option Word) : (heldSet s r i v).boot = s.boot := rfl
@[simp] theorem heldSet_flash (s : State) (r : Rid) (i : Nat) (v : Option Word) : (heldSet s r i v).flash = s.flash := rfl
@[simp] theorem heldSet_pins (s : State) (r : Rid) (i : Nat) (v : Option Word) : (heldSet s r i v).pins = s.pins := rfl
@[simp] theorem heldSet_panels (s : State) (r : Rid) (i : Nat) (v : Option Word) : (heldSet s r i v).panels = s.panels := rfl
@[simp] theorem heldSet_pwr (s : State) (r : Rid) (i : Nat) (v : Option Word) : (heldSet s r i v).pwr = s.pwr := rfl
@[simp] theorem heldSet_health (s : State) (r : Rid) (i : Nat) (v : Option Word) : (heldSet s r i v).health = s.health := rfl
@[simp] theorem heldSet_obs (s : State) (r : Rid) (i : Nat) (v : Option Word) : (heldSet s r i v).obs = s.obs := rfl
@[simp] theorem heldSet_bist (s : State) (r : Rid) (i : Nat) (v : Option Word) : (heldSet s r i v).bist = s.bist := rfl
@[simp] theorem heldSet_bob (s : State) (r : Rid) (i : Nat) (v : Option Word) : (heldSet s r i v).bob = s.bob := rfl
@[simp] theorem heldSet_mem (s : State) (r : Rid) (i : Nat) (v : Option Word) : (heldSet s r i v).mem = s.mem := rfl
@[simp] theorem heldSet_time (s : State) (r : Rid) (i : Nat) (v : Option Word) : (heldSet s r i v).time = s.time := rfl
@[simp] theorem heldSet_thm (s : State) (r : Rid) (i : Nat) (v : Option Word) : (heldSet s r i v).thm = s.thm := rfl
@[simp] theorem heldSet_selv (s : State) (r : Rid) (i : Nat) (v : Option Word) : (heldSet s r i v).selv = s.selv := rfl
@[simp] theorem heldSet_spw (s : State) (r : Rid) (i : Nat) (v : Option Word) : (heldSet s r i v).spw = s.spw := rfl
@[simp] theorem heldSet_cco (s : State) (r : Rid) (i : Nat) (v : Option Word) : (heldSet s r i v).cco = s.cco := rfl
@[simp] theorem heldSet_seam (s : State) (r : Rid) (i : Nat) (v : Option Word) : (heldSet s r i v).seam = s.seam := rfl
@[simp] theorem heldSet_plt (s : State) (r : Rid) (i : Nat) (v : Option Word) : (heldSet s r i v).plt = s.plt := rfl
@[simp] theorem heldSet_fab (s : State) (r : Rid) (i : Nat) (v : Option Word) : (heldSet s r i v).fab = s.fab := rfl
@[simp] theorem heldSet_bast (s : State) (r : Rid) (i : Nat) (v : Option Word) : (heldSet s r i v).bast = s.bast := rfl
@[simp] theorem heldSet_line (s : State) (r : Rid) (i : Nat) (v : Option Word) : (heldSet s r i v).line = s.line := rfl
@[simp] theorem heldSet_opt (s : State) (r : Rid) (i : Nat) (v : Option Word) : (heldSet s r i v).opt = s.opt := rfl

/-! ### evSet: every field but `events` -/
@[simp] theorem evSet_pending (s : State) (r : Rid) (i : Nat) (e : EvReg) : (evSet s r i e).pending = s.pending := rfl
@[simp] theorem evSet_regs (s : State) (r : Rid) (i : Nat) (e : EvReg) : (evSet s r i e).regs = s.regs := rfl
@[simp] theorem evSet_held (s : State) (r : Rid) (i : Nat) (e : EvReg) : (evSet s r i e).held = s.held := rfl
@[simp] theorem evSet_counters (s : State) (r : Rid) (i : Nat) (e : EvReg) : (evSet s r i e).counters = s.counters := rfl
@[simp] theorem evSet_latches (s : State) (r : Rid) (i : Nat) (e : EvReg) : (evSet s r i e).latches = s.latches := rfl
@[simp] theorem evSet_irq (s : State) (r : Rid) (i : Nat) (e : EvReg) : (evSet s r i e).irq = s.irq := rfl
@[simp] theorem evSet_glbBusErr (s : State) (r : Rid) (i : Nat) (e : EvReg) : (evSet s r i e).glbBusErr = s.glbBusErr := rfl
@[simp] theorem evSet_pnlBusErr (s : State) (r : Rid) (i : Nat) (e : EvReg) : (evSet s r i e).pnlBusErr = s.pnlBusErr := rfl
@[simp] theorem evSet_timeLatch (s : State) (r : Rid) (i : Nat) (e : EvReg) : (evSet s r i e).timeLatch = s.timeLatch := rfl
@[simp] theorem evSet_response (s : State) (r : Rid) (i : Nat) (e : EvReg) : (evSet s r i e).response = s.response := rfl
@[simp] theorem evSet_outbox (s : State) (r : Rid) (i : Nat) (e : EvReg) : (evSet s r i e).outbox = s.outbox := rfl
@[simp] theorem evSet_fresh (s : State) (r : Rid) (i : Nat) (e : EvReg) : (evSet s r i e).fresh = s.fresh := rfl
@[simp] theorem evSet_localUs (s : State) (r : Rid) (i : Nat) (e : EvReg) : (evSet s r i e).localUs = s.localUs := rfl
@[simp] theorem evSet_boot (s : State) (r : Rid) (i : Nat) (e : EvReg) : (evSet s r i e).boot = s.boot := rfl
@[simp] theorem evSet_flash (s : State) (r : Rid) (i : Nat) (e : EvReg) : (evSet s r i e).flash = s.flash := rfl
@[simp] theorem evSet_pins (s : State) (r : Rid) (i : Nat) (e : EvReg) : (evSet s r i e).pins = s.pins := rfl
@[simp] theorem evSet_panels (s : State) (r : Rid) (i : Nat) (e : EvReg) : (evSet s r i e).panels = s.panels := rfl
@[simp] theorem evSet_pwr (s : State) (r : Rid) (i : Nat) (e : EvReg) : (evSet s r i e).pwr = s.pwr := rfl
@[simp] theorem evSet_health (s : State) (r : Rid) (i : Nat) (e : EvReg) : (evSet s r i e).health = s.health := rfl
@[simp] theorem evSet_obs (s : State) (r : Rid) (i : Nat) (e : EvReg) : (evSet s r i e).obs = s.obs := rfl
@[simp] theorem evSet_bist (s : State) (r : Rid) (i : Nat) (e : EvReg) : (evSet s r i e).bist = s.bist := rfl
@[simp] theorem evSet_bob (s : State) (r : Rid) (i : Nat) (e : EvReg) : (evSet s r i e).bob = s.bob := rfl
@[simp] theorem evSet_mem (s : State) (r : Rid) (i : Nat) (e : EvReg) : (evSet s r i e).mem = s.mem := rfl
@[simp] theorem evSet_time (s : State) (r : Rid) (i : Nat) (e : EvReg) : (evSet s r i e).time = s.time := rfl
@[simp] theorem evSet_thm (s : State) (r : Rid) (i : Nat) (e : EvReg) : (evSet s r i e).thm = s.thm := rfl
@[simp] theorem evSet_selv (s : State) (r : Rid) (i : Nat) (e : EvReg) : (evSet s r i e).selv = s.selv := rfl
@[simp] theorem evSet_spw (s : State) (r : Rid) (i : Nat) (e : EvReg) : (evSet s r i e).spw = s.spw := rfl
@[simp] theorem evSet_cco (s : State) (r : Rid) (i : Nat) (e : EvReg) : (evSet s r i e).cco = s.cco := rfl
@[simp] theorem evSet_seam (s : State) (r : Rid) (i : Nat) (e : EvReg) : (evSet s r i e).seam = s.seam := rfl
@[simp] theorem evSet_plt (s : State) (r : Rid) (i : Nat) (e : EvReg) : (evSet s r i e).plt = s.plt := rfl
@[simp] theorem evSet_fab (s : State) (r : Rid) (i : Nat) (e : EvReg) : (evSet s r i e).fab = s.fab := rfl
@[simp] theorem evSet_bast (s : State) (r : Rid) (i : Nat) (e : EvReg) : (evSet s r i e).bast = s.bast := rfl
@[simp] theorem evSet_line (s : State) (r : Rid) (i : Nat) (e : EvReg) : (evSet s r i e).line = s.line := rfl
@[simp] theorem evSet_opt (s : State) (r : Rid) (i : Nat) (e : EvReg) : (evSet s r i e).opt = s.opt := rfl

/-! ### ctrAdd: every field but `counters` -/
@[simp] theorem ctrAdd_pending (s : State) (r : Rid) (i n : Nat) : (ctrAdd s r i n).pending = s.pending := rfl
@[simp] theorem ctrAdd_regs (s : State) (r : Rid) (i n : Nat) : (ctrAdd s r i n).regs = s.regs := rfl
@[simp] theorem ctrAdd_held (s : State) (r : Rid) (i n : Nat) : (ctrAdd s r i n).held = s.held := rfl
@[simp] theorem ctrAdd_events (s : State) (r : Rid) (i n : Nat) : (ctrAdd s r i n).events = s.events := rfl
@[simp] theorem ctrAdd_latches (s : State) (r : Rid) (i n : Nat) : (ctrAdd s r i n).latches = s.latches := rfl
@[simp] theorem ctrAdd_irq (s : State) (r : Rid) (i n : Nat) : (ctrAdd s r i n).irq = s.irq := rfl
@[simp] theorem ctrAdd_glbBusErr (s : State) (r : Rid) (i n : Nat) : (ctrAdd s r i n).glbBusErr = s.glbBusErr := rfl
@[simp] theorem ctrAdd_pnlBusErr (s : State) (r : Rid) (i n : Nat) : (ctrAdd s r i n).pnlBusErr = s.pnlBusErr := rfl
@[simp] theorem ctrAdd_timeLatch (s : State) (r : Rid) (i n : Nat) : (ctrAdd s r i n).timeLatch = s.timeLatch := rfl
@[simp] theorem ctrAdd_response (s : State) (r : Rid) (i n : Nat) : (ctrAdd s r i n).response = s.response := rfl
@[simp] theorem ctrAdd_outbox (s : State) (r : Rid) (i n : Nat) : (ctrAdd s r i n).outbox = s.outbox := rfl
@[simp] theorem ctrAdd_fresh (s : State) (r : Rid) (i n : Nat) : (ctrAdd s r i n).fresh = s.fresh := rfl
@[simp] theorem ctrAdd_localUs (s : State) (r : Rid) (i n : Nat) : (ctrAdd s r i n).localUs = s.localUs := rfl
@[simp] theorem ctrAdd_boot (s : State) (r : Rid) (i n : Nat) : (ctrAdd s r i n).boot = s.boot := rfl
@[simp] theorem ctrAdd_flash (s : State) (r : Rid) (i n : Nat) : (ctrAdd s r i n).flash = s.flash := rfl
@[simp] theorem ctrAdd_pins (s : State) (r : Rid) (i n : Nat) : (ctrAdd s r i n).pins = s.pins := rfl
@[simp] theorem ctrAdd_panels (s : State) (r : Rid) (i n : Nat) : (ctrAdd s r i n).panels = s.panels := rfl
@[simp] theorem ctrAdd_pwr (s : State) (r : Rid) (i n : Nat) : (ctrAdd s r i n).pwr = s.pwr := rfl
@[simp] theorem ctrAdd_health (s : State) (r : Rid) (i n : Nat) : (ctrAdd s r i n).health = s.health := rfl
@[simp] theorem ctrAdd_obs (s : State) (r : Rid) (i n : Nat) : (ctrAdd s r i n).obs = s.obs := rfl
@[simp] theorem ctrAdd_bist (s : State) (r : Rid) (i n : Nat) : (ctrAdd s r i n).bist = s.bist := rfl
@[simp] theorem ctrAdd_bob (s : State) (r : Rid) (i n : Nat) : (ctrAdd s r i n).bob = s.bob := rfl
@[simp] theorem ctrAdd_mem (s : State) (r : Rid) (i n : Nat) : (ctrAdd s r i n).mem = s.mem := rfl
@[simp] theorem ctrAdd_time (s : State) (r : Rid) (i n : Nat) : (ctrAdd s r i n).time = s.time := rfl
@[simp] theorem ctrAdd_thm (s : State) (r : Rid) (i n : Nat) : (ctrAdd s r i n).thm = s.thm := rfl
@[simp] theorem ctrAdd_selv (s : State) (r : Rid) (i n : Nat) : (ctrAdd s r i n).selv = s.selv := rfl
@[simp] theorem ctrAdd_spw (s : State) (r : Rid) (i n : Nat) : (ctrAdd s r i n).spw = s.spw := rfl
@[simp] theorem ctrAdd_cco (s : State) (r : Rid) (i n : Nat) : (ctrAdd s r i n).cco = s.cco := rfl
@[simp] theorem ctrAdd_seam (s : State) (r : Rid) (i n : Nat) : (ctrAdd s r i n).seam = s.seam := rfl
@[simp] theorem ctrAdd_plt (s : State) (r : Rid) (i n : Nat) : (ctrAdd s r i n).plt = s.plt := rfl
@[simp] theorem ctrAdd_fab (s : State) (r : Rid) (i n : Nat) : (ctrAdd s r i n).fab = s.fab := rfl
@[simp] theorem ctrAdd_bast (s : State) (r : Rid) (i n : Nat) : (ctrAdd s r i n).bast = s.bast := rfl
@[simp] theorem ctrAdd_line (s : State) (r : Rid) (i n : Nat) : (ctrAdd s r i n).line = s.line := rfl
@[simp] theorem ctrAdd_opt (s : State) (r : Rid) (i n : Nat) : (ctrAdd s r i n).opt = s.opt := rfl

/-! ### vecSet: every field but `irq` -/
@[simp] theorem vecSet_pending (s : State) (fn vec : Nat) (v : VecSt) : (vecSet s fn vec v).pending = s.pending := rfl
@[simp] theorem vecSet_regs (s : State) (fn vec : Nat) (v : VecSt) : (vecSet s fn vec v).regs = s.regs := rfl
@[simp] theorem vecSet_held (s : State) (fn vec : Nat) (v : VecSt) : (vecSet s fn vec v).held = s.held := rfl
@[simp] theorem vecSet_events (s : State) (fn vec : Nat) (v : VecSt) : (vecSet s fn vec v).events = s.events := rfl
@[simp] theorem vecSet_counters (s : State) (fn vec : Nat) (v : VecSt) : (vecSet s fn vec v).counters = s.counters := rfl
@[simp] theorem vecSet_latches (s : State) (fn vec : Nat) (v : VecSt) : (vecSet s fn vec v).latches = s.latches := rfl
@[simp] theorem vecSet_glbBusErr (s : State) (fn vec : Nat) (v : VecSt) : (vecSet s fn vec v).glbBusErr = s.glbBusErr := rfl
@[simp] theorem vecSet_pnlBusErr (s : State) (fn vec : Nat) (v : VecSt) : (vecSet s fn vec v).pnlBusErr = s.pnlBusErr := rfl
@[simp] theorem vecSet_timeLatch (s : State) (fn vec : Nat) (v : VecSt) : (vecSet s fn vec v).timeLatch = s.timeLatch := rfl
@[simp] theorem vecSet_response (s : State) (fn vec : Nat) (v : VecSt) : (vecSet s fn vec v).response = s.response := rfl
@[simp] theorem vecSet_outbox (s : State) (fn vec : Nat) (v : VecSt) : (vecSet s fn vec v).outbox = s.outbox := rfl
@[simp] theorem vecSet_fresh (s : State) (fn vec : Nat) (v : VecSt) : (vecSet s fn vec v).fresh = s.fresh := rfl
@[simp] theorem vecSet_localUs (s : State) (fn vec : Nat) (v : VecSt) : (vecSet s fn vec v).localUs = s.localUs := rfl
@[simp] theorem vecSet_boot (s : State) (fn vec : Nat) (v : VecSt) : (vecSet s fn vec v).boot = s.boot := rfl
@[simp] theorem vecSet_flash (s : State) (fn vec : Nat) (v : VecSt) : (vecSet s fn vec v).flash = s.flash := rfl
@[simp] theorem vecSet_pins (s : State) (fn vec : Nat) (v : VecSt) : (vecSet s fn vec v).pins = s.pins := rfl
@[simp] theorem vecSet_panels (s : State) (fn vec : Nat) (v : VecSt) : (vecSet s fn vec v).panels = s.panels := rfl
@[simp] theorem vecSet_pwr (s : State) (fn vec : Nat) (v : VecSt) : (vecSet s fn vec v).pwr = s.pwr := rfl
@[simp] theorem vecSet_health (s : State) (fn vec : Nat) (v : VecSt) : (vecSet s fn vec v).health = s.health := rfl
@[simp] theorem vecSet_obs (s : State) (fn vec : Nat) (v : VecSt) : (vecSet s fn vec v).obs = s.obs := rfl
@[simp] theorem vecSet_bist (s : State) (fn vec : Nat) (v : VecSt) : (vecSet s fn vec v).bist = s.bist := rfl
@[simp] theorem vecSet_bob (s : State) (fn vec : Nat) (v : VecSt) : (vecSet s fn vec v).bob = s.bob := rfl
@[simp] theorem vecSet_mem (s : State) (fn vec : Nat) (v : VecSt) : (vecSet s fn vec v).mem = s.mem := rfl
@[simp] theorem vecSet_time (s : State) (fn vec : Nat) (v : VecSt) : (vecSet s fn vec v).time = s.time := rfl
@[simp] theorem vecSet_thm (s : State) (fn vec : Nat) (v : VecSt) : (vecSet s fn vec v).thm = s.thm := rfl
@[simp] theorem vecSet_selv (s : State) (fn vec : Nat) (v : VecSt) : (vecSet s fn vec v).selv = s.selv := rfl
@[simp] theorem vecSet_spw (s : State) (fn vec : Nat) (v : VecSt) : (vecSet s fn vec v).spw = s.spw := rfl
@[simp] theorem vecSet_cco (s : State) (fn vec : Nat) (v : VecSt) : (vecSet s fn vec v).cco = s.cco := rfl
@[simp] theorem vecSet_seam (s : State) (fn vec : Nat) (v : VecSt) : (vecSet s fn vec v).seam = s.seam := rfl
@[simp] theorem vecSet_plt (s : State) (fn vec : Nat) (v : VecSt) : (vecSet s fn vec v).plt = s.plt := rfl
@[simp] theorem vecSet_fab (s : State) (fn vec : Nat) (v : VecSt) : (vecSet s fn vec v).fab = s.fab := rfl
@[simp] theorem vecSet_bast (s : State) (fn vec : Nat) (v : VecSt) : (vecSet s fn vec v).bast = s.bast := rfl
@[simp] theorem vecSet_line (s : State) (fn vec : Nat) (v : VecSt) : (vecSet s fn vec v).line = s.line := rfl
@[simp] theorem vecSet_opt (s : State) (fn vec : Nat) (v : VecSt) : (vecSet s fn vec v).opt = s.opt := rfl

/-! ### send: every field but `outbox` -/
@[simp] theorem send_pending (s : State) (o : Out) : (send s o).pending = s.pending := rfl
@[simp] theorem send_regs (s : State) (o : Out) : (send s o).regs = s.regs := rfl
@[simp] theorem send_held (s : State) (o : Out) : (send s o).held = s.held := rfl
@[simp] theorem send_events (s : State) (o : Out) : (send s o).events = s.events := rfl
@[simp] theorem send_counters (s : State) (o : Out) : (send s o).counters = s.counters := rfl
@[simp] theorem send_latches (s : State) (o : Out) : (send s o).latches = s.latches := rfl
@[simp] theorem send_irq (s : State) (o : Out) : (send s o).irq = s.irq := rfl
@[simp] theorem send_glbBusErr (s : State) (o : Out) : (send s o).glbBusErr = s.glbBusErr := rfl
@[simp] theorem send_pnlBusErr (s : State) (o : Out) : (send s o).pnlBusErr = s.pnlBusErr := rfl
@[simp] theorem send_timeLatch (s : State) (o : Out) : (send s o).timeLatch = s.timeLatch := rfl
@[simp] theorem send_response (s : State) (o : Out) : (send s o).response = s.response := rfl
@[simp] theorem send_fresh (s : State) (o : Out) : (send s o).fresh = s.fresh := rfl
@[simp] theorem send_localUs (s : State) (o : Out) : (send s o).localUs = s.localUs := rfl
@[simp] theorem send_boot (s : State) (o : Out) : (send s o).boot = s.boot := rfl
@[simp] theorem send_flash (s : State) (o : Out) : (send s o).flash = s.flash := rfl
@[simp] theorem send_pins (s : State) (o : Out) : (send s o).pins = s.pins := rfl
@[simp] theorem send_panels (s : State) (o : Out) : (send s o).panels = s.panels := rfl
@[simp] theorem send_pwr (s : State) (o : Out) : (send s o).pwr = s.pwr := rfl
@[simp] theorem send_health (s : State) (o : Out) : (send s o).health = s.health := rfl
@[simp] theorem send_obs (s : State) (o : Out) : (send s o).obs = s.obs := rfl
@[simp] theorem send_bist (s : State) (o : Out) : (send s o).bist = s.bist := rfl
@[simp] theorem send_bob (s : State) (o : Out) : (send s o).bob = s.bob := rfl
@[simp] theorem send_mem (s : State) (o : Out) : (send s o).mem = s.mem := rfl
@[simp] theorem send_time (s : State) (o : Out) : (send s o).time = s.time := rfl
@[simp] theorem send_thm (s : State) (o : Out) : (send s o).thm = s.thm := rfl
@[simp] theorem send_selv (s : State) (o : Out) : (send s o).selv = s.selv := rfl
@[simp] theorem send_spw (s : State) (o : Out) : (send s o).spw = s.spw := rfl
@[simp] theorem send_cco (s : State) (o : Out) : (send s o).cco = s.cco := rfl
@[simp] theorem send_seam (s : State) (o : Out) : (send s o).seam = s.seam := rfl
@[simp] theorem send_plt (s : State) (o : Out) : (send s o).plt = s.plt := rfl
@[simp] theorem send_fab (s : State) (o : Out) : (send s o).fab = s.fab := rfl
@[simp] theorem send_bast (s : State) (o : Out) : (send s o).bast = s.bast := rfl
@[simp] theorem send_line (s : State) (o : Out) : (send s o).line = s.line := rfl
@[simp] theorem send_opt (s : State) (o : Out) : (send s o).opt = s.opt := rfl

/-! ### panelSet: every field but `panels` -/
@[simp] theorem panelSet_pending (s : State) (n : Nat) (p : Panel) : (panelSet s n p).pending = s.pending := rfl
@[simp] theorem panelSet_regs (s : State) (n : Nat) (p : Panel) : (panelSet s n p).regs = s.regs := rfl
@[simp] theorem panelSet_held (s : State) (n : Nat) (p : Panel) : (panelSet s n p).held = s.held := rfl
@[simp] theorem panelSet_events (s : State) (n : Nat) (p : Panel) : (panelSet s n p).events = s.events := rfl
@[simp] theorem panelSet_counters (s : State) (n : Nat) (p : Panel) : (panelSet s n p).counters = s.counters := rfl
@[simp] theorem panelSet_latches (s : State) (n : Nat) (p : Panel) : (panelSet s n p).latches = s.latches := rfl
@[simp] theorem panelSet_irq (s : State) (n : Nat) (p : Panel) : (panelSet s n p).irq = s.irq := rfl
@[simp] theorem panelSet_glbBusErr (s : State) (n : Nat) (p : Panel) : (panelSet s n p).glbBusErr = s.glbBusErr := rfl
@[simp] theorem panelSet_pnlBusErr (s : State) (n : Nat) (p : Panel) : (panelSet s n p).pnlBusErr = s.pnlBusErr := rfl
@[simp] theorem panelSet_timeLatch (s : State) (n : Nat) (p : Panel) : (panelSet s n p).timeLatch = s.timeLatch := rfl
@[simp] theorem panelSet_response (s : State) (n : Nat) (p : Panel) : (panelSet s n p).response = s.response := rfl
@[simp] theorem panelSet_outbox (s : State) (n : Nat) (p : Panel) : (panelSet s n p).outbox = s.outbox := rfl
@[simp] theorem panelSet_fresh (s : State) (n : Nat) (p : Panel) : (panelSet s n p).fresh = s.fresh := rfl
@[simp] theorem panelSet_localUs (s : State) (n : Nat) (p : Panel) : (panelSet s n p).localUs = s.localUs := rfl
@[simp] theorem panelSet_boot (s : State) (n : Nat) (p : Panel) : (panelSet s n p).boot = s.boot := rfl
@[simp] theorem panelSet_flash (s : State) (n : Nat) (p : Panel) : (panelSet s n p).flash = s.flash := rfl
@[simp] theorem panelSet_pins (s : State) (n : Nat) (p : Panel) : (panelSet s n p).pins = s.pins := rfl
@[simp] theorem panelSet_pwr (s : State) (n : Nat) (p : Panel) : (panelSet s n p).pwr = s.pwr := rfl
@[simp] theorem panelSet_health (s : State) (n : Nat) (p : Panel) : (panelSet s n p).health = s.health := rfl
@[simp] theorem panelSet_obs (s : State) (n : Nat) (p : Panel) : (panelSet s n p).obs = s.obs := rfl
@[simp] theorem panelSet_bist (s : State) (n : Nat) (p : Panel) : (panelSet s n p).bist = s.bist := rfl
@[simp] theorem panelSet_bob (s : State) (n : Nat) (p : Panel) : (panelSet s n p).bob = s.bob := rfl
@[simp] theorem panelSet_mem (s : State) (n : Nat) (p : Panel) : (panelSet s n p).mem = s.mem := rfl
@[simp] theorem panelSet_time (s : State) (n : Nat) (p : Panel) : (panelSet s n p).time = s.time := rfl
@[simp] theorem panelSet_thm (s : State) (n : Nat) (p : Panel) : (panelSet s n p).thm = s.thm := rfl
@[simp] theorem panelSet_selv (s : State) (n : Nat) (p : Panel) : (panelSet s n p).selv = s.selv := rfl
@[simp] theorem panelSet_spw (s : State) (n : Nat) (p : Panel) : (panelSet s n p).spw = s.spw := rfl
@[simp] theorem panelSet_cco (s : State) (n : Nat) (p : Panel) : (panelSet s n p).cco = s.cco := rfl
@[simp] theorem panelSet_seam (s : State) (n : Nat) (p : Panel) : (panelSet s n p).seam = s.seam := rfl
@[simp] theorem panelSet_plt (s : State) (n : Nat) (p : Panel) : (panelSet s n p).plt = s.plt := rfl
@[simp] theorem panelSet_fab (s : State) (n : Nat) (p : Panel) : (panelSet s n p).fab = s.fab := rfl
@[simp] theorem panelSet_bast (s : State) (n : Nat) (p : Panel) : (panelSet s n p).bast = s.bast := rfl
@[simp] theorem panelSet_line (s : State) (n : Nat) (p : Panel) : (panelSet s n p).line = s.line := rfl
@[simp] theorem panelSet_opt (s : State) (n : Nat) (p : Panel) : (panelSet s n p).opt = s.opt := rfl

/-! ### domSet: every field but `pwr` -/
@[simp] theorem domSet_pending (s : State) (d : Nat) (p : PwrDom) : (domSet s d p).pending = s.pending := rfl
@[simp] theorem domSet_regs (s : State) (d : Nat) (p : PwrDom) : (domSet s d p).regs = s.regs := rfl
@[simp] theorem domSet_held (s : State) (d : Nat) (p : PwrDom) : (domSet s d p).held = s.held := rfl
@[simp] theorem domSet_events (s : State) (d : Nat) (p : PwrDom) : (domSet s d p).events = s.events := rfl
@[simp] theorem domSet_counters (s : State) (d : Nat) (p : PwrDom) : (domSet s d p).counters = s.counters := rfl
@[simp] theorem domSet_latches (s : State) (d : Nat) (p : PwrDom) : (domSet s d p).latches = s.latches := rfl
@[simp] theorem domSet_irq (s : State) (d : Nat) (p : PwrDom) : (domSet s d p).irq = s.irq := rfl
@[simp] theorem domSet_glbBusErr (s : State) (d : Nat) (p : PwrDom) : (domSet s d p).glbBusErr = s.glbBusErr := rfl
@[simp] theorem domSet_pnlBusErr (s : State) (d : Nat) (p : PwrDom) : (domSet s d p).pnlBusErr = s.pnlBusErr := rfl
@[simp] theorem domSet_timeLatch (s : State) (d : Nat) (p : PwrDom) : (domSet s d p).timeLatch = s.timeLatch := rfl
@[simp] theorem domSet_response (s : State) (d : Nat) (p : PwrDom) : (domSet s d p).response = s.response := rfl
@[simp] theorem domSet_outbox (s : State) (d : Nat) (p : PwrDom) : (domSet s d p).outbox = s.outbox := rfl
@[simp] theorem domSet_fresh (s : State) (d : Nat) (p : PwrDom) : (domSet s d p).fresh = s.fresh := rfl
@[simp] theorem domSet_localUs (s : State) (d : Nat) (p : PwrDom) : (domSet s d p).localUs = s.localUs := rfl
@[simp] theorem domSet_boot (s : State) (d : Nat) (p : PwrDom) : (domSet s d p).boot = s.boot := rfl
@[simp] theorem domSet_flash (s : State) (d : Nat) (p : PwrDom) : (domSet s d p).flash = s.flash := rfl
@[simp] theorem domSet_pins (s : State) (d : Nat) (p : PwrDom) : (domSet s d p).pins = s.pins := rfl
@[simp] theorem domSet_panels (s : State) (d : Nat) (p : PwrDom) : (domSet s d p).panels = s.panels := rfl
@[simp] theorem domSet_health (s : State) (d : Nat) (p : PwrDom) : (domSet s d p).health = s.health := rfl
@[simp] theorem domSet_obs (s : State) (d : Nat) (p : PwrDom) : (domSet s d p).obs = s.obs := rfl
@[simp] theorem domSet_bist (s : State) (d : Nat) (p : PwrDom) : (domSet s d p).bist = s.bist := rfl
@[simp] theorem domSet_bob (s : State) (d : Nat) (p : PwrDom) : (domSet s d p).bob = s.bob := rfl
@[simp] theorem domSet_mem (s : State) (d : Nat) (p : PwrDom) : (domSet s d p).mem = s.mem := rfl
@[simp] theorem domSet_time (s : State) (d : Nat) (p : PwrDom) : (domSet s d p).time = s.time := rfl
@[simp] theorem domSet_thm (s : State) (d : Nat) (p : PwrDom) : (domSet s d p).thm = s.thm := rfl
@[simp] theorem domSet_selv (s : State) (d : Nat) (p : PwrDom) : (domSet s d p).selv = s.selv := rfl
@[simp] theorem domSet_spw (s : State) (d : Nat) (p : PwrDom) : (domSet s d p).spw = s.spw := rfl
@[simp] theorem domSet_cco (s : State) (d : Nat) (p : PwrDom) : (domSet s d p).cco = s.cco := rfl
@[simp] theorem domSet_seam (s : State) (d : Nat) (p : PwrDom) : (domSet s d p).seam = s.seam := rfl
@[simp] theorem domSet_plt (s : State) (d : Nat) (p : PwrDom) : (domSet s d p).plt = s.plt := rfl
@[simp] theorem domSet_fab (s : State) (d : Nat) (p : PwrDom) : (domSet s d p).fab = s.fab := rfl
@[simp] theorem domSet_bast (s : State) (d : Nat) (p : PwrDom) : (domSet s d p).bast = s.bast := rfl
@[simp] theorem domSet_line (s : State) (d : Nat) (p : PwrDom) : (domSet s d p).line = s.line := rfl
@[simp] theorem domSet_opt (s : State) (d : Nat) (p : PwrDom) : (domSet s d p).opt = s.opt := rfl

/-! ### answer: every field but `response` -/
@[simp] theorem answer_pending (s : State) (w : Word) : (answer s w).pending = s.pending := rfl
@[simp] theorem answer_regs (s : State) (w : Word) : (answer s w).regs = s.regs := rfl
@[simp] theorem answer_held (s : State) (w : Word) : (answer s w).held = s.held := rfl
@[simp] theorem answer_events (s : State) (w : Word) : (answer s w).events = s.events := rfl
@[simp] theorem answer_counters (s : State) (w : Word) : (answer s w).counters = s.counters := rfl
@[simp] theorem answer_latches (s : State) (w : Word) : (answer s w).latches = s.latches := rfl
@[simp] theorem answer_irq (s : State) (w : Word) : (answer s w).irq = s.irq := rfl
@[simp] theorem answer_glbBusErr (s : State) (w : Word) : (answer s w).glbBusErr = s.glbBusErr := rfl
@[simp] theorem answer_pnlBusErr (s : State) (w : Word) : (answer s w).pnlBusErr = s.pnlBusErr := rfl
@[simp] theorem answer_timeLatch (s : State) (w : Word) : (answer s w).timeLatch = s.timeLatch := rfl
@[simp] theorem answer_outbox (s : State) (w : Word) : (answer s w).outbox = s.outbox := rfl
@[simp] theorem answer_fresh (s : State) (w : Word) : (answer s w).fresh = s.fresh := rfl
@[simp] theorem answer_localUs (s : State) (w : Word) : (answer s w).localUs = s.localUs := rfl
@[simp] theorem answer_boot (s : State) (w : Word) : (answer s w).boot = s.boot := rfl
@[simp] theorem answer_flash (s : State) (w : Word) : (answer s w).flash = s.flash := rfl
@[simp] theorem answer_pins (s : State) (w : Word) : (answer s w).pins = s.pins := rfl
@[simp] theorem answer_panels (s : State) (w : Word) : (answer s w).panels = s.panels := rfl
@[simp] theorem answer_pwr (s : State) (w : Word) : (answer s w).pwr = s.pwr := rfl
@[simp] theorem answer_health (s : State) (w : Word) : (answer s w).health = s.health := rfl
@[simp] theorem answer_obs (s : State) (w : Word) : (answer s w).obs = s.obs := rfl
@[simp] theorem answer_bist (s : State) (w : Word) : (answer s w).bist = s.bist := rfl
@[simp] theorem answer_bob (s : State) (w : Word) : (answer s w).bob = s.bob := rfl
@[simp] theorem answer_mem (s : State) (w : Word) : (answer s w).mem = s.mem := rfl
@[simp] theorem answer_time (s : State) (w : Word) : (answer s w).time = s.time := rfl
@[simp] theorem answer_thm (s : State) (w : Word) : (answer s w).thm = s.thm := rfl
@[simp] theorem answer_selv (s : State) (w : Word) : (answer s w).selv = s.selv := rfl
@[simp] theorem answer_spw (s : State) (w : Word) : (answer s w).spw = s.spw := rfl
@[simp] theorem answer_cco (s : State) (w : Word) : (answer s w).cco = s.cco := rfl
@[simp] theorem answer_seam (s : State) (w : Word) : (answer s w).seam = s.seam := rfl
@[simp] theorem answer_plt (s : State) (w : Word) : (answer s w).plt = s.plt := rfl
@[simp] theorem answer_fab (s : State) (w : Word) : (answer s w).fab = s.fab := rfl
@[simp] theorem answer_bast (s : State) (w : Word) : (answer s w).bast = s.bast := rfl
@[simp] theorem answer_line (s : State) (w : Word) : (answer s w).line = s.line := rfl
@[simp] theorem answer_opt (s : State) (w : Word) : (answer s w).opt = s.opt := rfl

/-! ### satMark: every field but `obs` -/
@[simp] theorem satMark_pending (s : State) (k : Nat) : (satMark s k).pending = s.pending := rfl
@[simp] theorem satMark_regs (s : State) (k : Nat) : (satMark s k).regs = s.regs := rfl
@[simp] theorem satMark_held (s : State) (k : Nat) : (satMark s k).held = s.held := rfl
@[simp] theorem satMark_events (s : State) (k : Nat) : (satMark s k).events = s.events := rfl
@[simp] theorem satMark_counters (s : State) (k : Nat) : (satMark s k).counters = s.counters := rfl
@[simp] theorem satMark_latches (s : State) (k : Nat) : (satMark s k).latches = s.latches := rfl
@[simp] theorem satMark_irq (s : State) (k : Nat) : (satMark s k).irq = s.irq := rfl
@[simp] theorem satMark_glbBusErr (s : State) (k : Nat) : (satMark s k).glbBusErr = s.glbBusErr := rfl
@[simp] theorem satMark_pnlBusErr (s : State) (k : Nat) : (satMark s k).pnlBusErr = s.pnlBusErr := rfl
@[simp] theorem satMark_timeLatch (s : State) (k : Nat) : (satMark s k).timeLatch = s.timeLatch := rfl
@[simp] theorem satMark_response (s : State) (k : Nat) : (satMark s k).response = s.response := rfl
@[simp] theorem satMark_outbox (s : State) (k : Nat) : (satMark s k).outbox = s.outbox := rfl
@[simp] theorem satMark_fresh (s : State) (k : Nat) : (satMark s k).fresh = s.fresh := rfl
@[simp] theorem satMark_localUs (s : State) (k : Nat) : (satMark s k).localUs = s.localUs := rfl
@[simp] theorem satMark_boot (s : State) (k : Nat) : (satMark s k).boot = s.boot := rfl
@[simp] theorem satMark_flash (s : State) (k : Nat) : (satMark s k).flash = s.flash := rfl
@[simp] theorem satMark_pins (s : State) (k : Nat) : (satMark s k).pins = s.pins := rfl
@[simp] theorem satMark_panels (s : State) (k : Nat) : (satMark s k).panels = s.panels := rfl
@[simp] theorem satMark_pwr (s : State) (k : Nat) : (satMark s k).pwr = s.pwr := rfl
@[simp] theorem satMark_health (s : State) (k : Nat) : (satMark s k).health = s.health := rfl
@[simp] theorem satMark_bist (s : State) (k : Nat) : (satMark s k).bist = s.bist := rfl
@[simp] theorem satMark_bob (s : State) (k : Nat) : (satMark s k).bob = s.bob := rfl
@[simp] theorem satMark_mem (s : State) (k : Nat) : (satMark s k).mem = s.mem := rfl
@[simp] theorem satMark_time (s : State) (k : Nat) : (satMark s k).time = s.time := rfl
@[simp] theorem satMark_thm (s : State) (k : Nat) : (satMark s k).thm = s.thm := rfl
@[simp] theorem satMark_selv (s : State) (k : Nat) : (satMark s k).selv = s.selv := rfl
@[simp] theorem satMark_spw (s : State) (k : Nat) : (satMark s k).spw = s.spw := rfl
@[simp] theorem satMark_cco (s : State) (k : Nat) : (satMark s k).cco = s.cco := rfl
@[simp] theorem satMark_seam (s : State) (k : Nat) : (satMark s k).seam = s.seam := rfl
@[simp] theorem satMark_plt (s : State) (k : Nat) : (satMark s k).plt = s.plt := rfl
@[simp] theorem satMark_fab (s : State) (k : Nat) : (satMark s k).fab = s.fab := rfl
@[simp] theorem satMark_bast (s : State) (k : Nat) : (satMark s k).bast = s.bast := rfl
@[simp] theorem satMark_line (s : State) (k : Nat) : (satMark s k).line = s.line := rfl
@[simp] theorem satMark_opt (s : State) (k : Nat) : (satMark s k).opt = s.opt := rfl

@[simp] theorem send_outbox (s : State) (o : Out) : (send s o).outbox = s.outbox ++ [o] := rfl
@[simp] theorem answer_response (s : State) (w : Word) : (answer s w).response = .word w := rfl

/-! ### Interrupts and events -/

/-- Raising an interrupt changes the vectors and the messages sent, and nothing else (R409). -/
theorem irqRaise_eq (s : State) (fn vec : Nat) : ∃ q o, irqRaise s fn vec = { s with irq := q, outbox := o } := by
  unfold irqRaise
  dsimp only
  split
  · exact ⟨s.irq, s.outbox, rfl⟩
  · split
    · exact ⟨_, s.outbox, rfl⟩
    · exact ⟨_, _, rfl⟩

/-- Raising interrupts one after another changes the vectors and the messages sent, and nothing else. -/
theorem irqRaise_foldl_eq (l : List (Nat × Nat)) (s : State) :
    ∃ q o, l.foldl (fun s v => irqRaise s v.1 v.2) s = { s with irq := q, outbox := o } := by
  induction l generalizing s with
  | nil => exact ⟨s.irq, s.outbox, rfl⟩
  | cons v l ih =>
    obtain ⟨q, o, h⟩ := irqRaise_eq s v.1 v.2
    obtain ⟨q', o', h'⟩ := ih (irqRaise s v.1 v.2)
    exact ⟨q', o', by rw [List.foldl_cons, h', h]⟩

/-- An event changes its own register, the vectors and the messages sent, and nothing else (R401). -/
theorem raiseEv_eq (s : State) (r : Rid) (i b : Nat) :
    ∃ q o, raiseEv s r i b =
      { evSet s r i ⟨(evGet s r i).seq + 1, (evGet s r i).bits ||| BitVec.ofNat 24 (pow2 b)⟩ with irq := q, outbox := o } :=
  irqRaise_foldl_eq _ _

@[simp] theorem irqRaise_pending (s : State) (fn vec : Nat) : (irqRaise s fn vec).pending = s.pending := by
  obtain ⟨q, o, h⟩ := irqRaise_eq s fn vec; rw [h]
@[simp] theorem irqRaise_regs (s : State) (fn vec : Nat) : (irqRaise s fn vec).regs = s.regs := by
  obtain ⟨q, o, h⟩ := irqRaise_eq s fn vec; rw [h]
@[simp] theorem irqRaise_held (s : State) (fn vec : Nat) : (irqRaise s fn vec).held = s.held := by
  obtain ⟨q, o, h⟩ := irqRaise_eq s fn vec; rw [h]
@[simp] theorem irqRaise_events (s : State) (fn vec : Nat) : (irqRaise s fn vec).events = s.events := by
  obtain ⟨q, o, h⟩ := irqRaise_eq s fn vec; rw [h]
@[simp] theorem irqRaise_counters (s : State) (fn vec : Nat) : (irqRaise s fn vec).counters = s.counters := by
  obtain ⟨q, o, h⟩ := irqRaise_eq s fn vec; rw [h]
@[simp] theorem irqRaise_latches (s : State) (fn vec : Nat) : (irqRaise s fn vec).latches = s.latches := by
  obtain ⟨q, o, h⟩ := irqRaise_eq s fn vec; rw [h]
@[simp] theorem irqRaise_glbBusErr (s : State) (fn vec : Nat) : (irqRaise s fn vec).glbBusErr = s.glbBusErr := by
  obtain ⟨q, o, h⟩ := irqRaise_eq s fn vec; rw [h]
@[simp] theorem irqRaise_pnlBusErr (s : State) (fn vec : Nat) : (irqRaise s fn vec).pnlBusErr = s.pnlBusErr := by
  obtain ⟨q, o, h⟩ := irqRaise_eq s fn vec; rw [h]
@[simp] theorem irqRaise_timeLatch (s : State) (fn vec : Nat) : (irqRaise s fn vec).timeLatch = s.timeLatch := by
  obtain ⟨q, o, h⟩ := irqRaise_eq s fn vec; rw [h]
@[simp] theorem irqRaise_response (s : State) (fn vec : Nat) : (irqRaise s fn vec).response = s.response := by
  obtain ⟨q, o, h⟩ := irqRaise_eq s fn vec; rw [h]
@[simp] theorem irqRaise_fresh (s : State) (fn vec : Nat) : (irqRaise s fn vec).fresh = s.fresh := by
  obtain ⟨q, o, h⟩ := irqRaise_eq s fn vec; rw [h]
@[simp] theorem irqRaise_localUs (s : State) (fn vec : Nat) : (irqRaise s fn vec).localUs = s.localUs := by
  obtain ⟨q, o, h⟩ := irqRaise_eq s fn vec; rw [h]
@[simp] theorem irqRaise_boot (s : State) (fn vec : Nat) : (irqRaise s fn vec).boot = s.boot := by
  obtain ⟨q, o, h⟩ := irqRaise_eq s fn vec; rw [h]
@[simp] theorem irqRaise_flash (s : State) (fn vec : Nat) : (irqRaise s fn vec).flash = s.flash := by
  obtain ⟨q, o, h⟩ := irqRaise_eq s fn vec; rw [h]
@[simp] theorem irqRaise_pins (s : State) (fn vec : Nat) : (irqRaise s fn vec).pins = s.pins := by
  obtain ⟨q, o, h⟩ := irqRaise_eq s fn vec; rw [h]
@[simp] theorem irqRaise_panels (s : State) (fn vec : Nat) : (irqRaise s fn vec).panels = s.panels := by
  obtain ⟨q, o, h⟩ := irqRaise_eq s fn vec; rw [h]
@[simp] theorem irqRaise_pwr (s : State) (fn vec : Nat) : (irqRaise s fn vec).pwr = s.pwr := by
  obtain ⟨q, o, h⟩ := irqRaise_eq s fn vec; rw [h]
@[simp] theorem irqRaise_health (s : State) (fn vec : Nat) : (irqRaise s fn vec).health = s.health := by
  obtain ⟨q, o, h⟩ := irqRaise_eq s fn vec; rw [h]
@[simp] theorem irqRaise_obs (s : State) (fn vec : Nat) : (irqRaise s fn vec).obs = s.obs := by
  obtain ⟨q, o, h⟩ := irqRaise_eq s fn vec; rw [h]
@[simp] theorem irqRaise_bist (s : State) (fn vec : Nat) : (irqRaise s fn vec).bist = s.bist := by
  obtain ⟨q, o, h⟩ := irqRaise_eq s fn vec; rw [h]
@[simp] theorem irqRaise_bob (s : State) (fn vec : Nat) : (irqRaise s fn vec).bob = s.bob := by
  obtain ⟨q, o, h⟩ := irqRaise_eq s fn vec; rw [h]
@[simp] theorem irqRaise_mem (s : State) (fn vec : Nat) : (irqRaise s fn vec).mem = s.mem := by
  obtain ⟨q, o, h⟩ := irqRaise_eq s fn vec; rw [h]
@[simp] theorem irqRaise_time (s : State) (fn vec : Nat) : (irqRaise s fn vec).time = s.time := by
  obtain ⟨q, o, h⟩ := irqRaise_eq s fn vec; rw [h]
@[simp] theorem irqRaise_thm (s : State) (fn vec : Nat) : (irqRaise s fn vec).thm = s.thm := by
  obtain ⟨q, o, h⟩ := irqRaise_eq s fn vec; rw [h]
@[simp] theorem irqRaise_selv (s : State) (fn vec : Nat) : (irqRaise s fn vec).selv = s.selv := by
  obtain ⟨q, o, h⟩ := irqRaise_eq s fn vec; rw [h]
@[simp] theorem irqRaise_spw (s : State) (fn vec : Nat) : (irqRaise s fn vec).spw = s.spw := by
  obtain ⟨q, o, h⟩ := irqRaise_eq s fn vec; rw [h]
@[simp] theorem irqRaise_cco (s : State) (fn vec : Nat) : (irqRaise s fn vec).cco = s.cco := by
  obtain ⟨q, o, h⟩ := irqRaise_eq s fn vec; rw [h]
@[simp] theorem irqRaise_seam (s : State) (fn vec : Nat) : (irqRaise s fn vec).seam = s.seam := by
  obtain ⟨q, o, h⟩ := irqRaise_eq s fn vec; rw [h]
@[simp] theorem irqRaise_plt (s : State) (fn vec : Nat) : (irqRaise s fn vec).plt = s.plt := by
  obtain ⟨q, o, h⟩ := irqRaise_eq s fn vec; rw [h]
@[simp] theorem irqRaise_fab (s : State) (fn vec : Nat) : (irqRaise s fn vec).fab = s.fab := by
  obtain ⟨q, o, h⟩ := irqRaise_eq s fn vec; rw [h]
@[simp] theorem irqRaise_bast (s : State) (fn vec : Nat) : (irqRaise s fn vec).bast = s.bast := by
  obtain ⟨q, o, h⟩ := irqRaise_eq s fn vec; rw [h]
@[simp] theorem irqRaise_line (s : State) (fn vec : Nat) : (irqRaise s fn vec).line = s.line := by
  obtain ⟨q, o, h⟩ := irqRaise_eq s fn vec; rw [h]
@[simp] theorem irqRaise_opt (s : State) (fn vec : Nat) : (irqRaise s fn vec).opt = s.opt := by
  obtain ⟨q, o, h⟩ := irqRaise_eq s fn vec; rw [h]
@[simp] theorem raiseEv_pending (s : State) (r : Rid) (i b : Nat) : (raiseEv s r i b).pending = s.pending := by
  obtain ⟨q, o, h⟩ := raiseEv_eq s r i b; rw [h]; rfl
@[simp] theorem raiseEv_regs (s : State) (r : Rid) (i b : Nat) : (raiseEv s r i b).regs = s.regs := by
  obtain ⟨q, o, h⟩ := raiseEv_eq s r i b; rw [h]; rfl
@[simp] theorem raiseEv_held (s : State) (r : Rid) (i b : Nat) : (raiseEv s r i b).held = s.held := by
  obtain ⟨q, o, h⟩ := raiseEv_eq s r i b; rw [h]; rfl
@[simp] theorem raiseEv_counters (s : State) (r : Rid) (i b : Nat) : (raiseEv s r i b).counters = s.counters := by
  obtain ⟨q, o, h⟩ := raiseEv_eq s r i b; rw [h]; rfl
@[simp] theorem raiseEv_latches (s : State) (r : Rid) (i b : Nat) : (raiseEv s r i b).latches = s.latches := by
  obtain ⟨q, o, h⟩ := raiseEv_eq s r i b; rw [h]; rfl
@[simp] theorem raiseEv_glbBusErr (s : State) (r : Rid) (i b : Nat) : (raiseEv s r i b).glbBusErr = s.glbBusErr := by
  obtain ⟨q, o, h⟩ := raiseEv_eq s r i b; rw [h]; rfl
@[simp] theorem raiseEv_pnlBusErr (s : State) (r : Rid) (i b : Nat) : (raiseEv s r i b).pnlBusErr = s.pnlBusErr := by
  obtain ⟨q, o, h⟩ := raiseEv_eq s r i b; rw [h]; rfl
@[simp] theorem raiseEv_timeLatch (s : State) (r : Rid) (i b : Nat) : (raiseEv s r i b).timeLatch = s.timeLatch := by
  obtain ⟨q, o, h⟩ := raiseEv_eq s r i b; rw [h]; rfl
@[simp] theorem raiseEv_response (s : State) (r : Rid) (i b : Nat) : (raiseEv s r i b).response = s.response := by
  obtain ⟨q, o, h⟩ := raiseEv_eq s r i b; rw [h]; rfl
@[simp] theorem raiseEv_fresh (s : State) (r : Rid) (i b : Nat) : (raiseEv s r i b).fresh = s.fresh := by
  obtain ⟨q, o, h⟩ := raiseEv_eq s r i b; rw [h]; rfl
@[simp] theorem raiseEv_localUs (s : State) (r : Rid) (i b : Nat) : (raiseEv s r i b).localUs = s.localUs := by
  obtain ⟨q, o, h⟩ := raiseEv_eq s r i b; rw [h]; rfl
@[simp] theorem raiseEv_boot (s : State) (r : Rid) (i b : Nat) : (raiseEv s r i b).boot = s.boot := by
  obtain ⟨q, o, h⟩ := raiseEv_eq s r i b; rw [h]; rfl
@[simp] theorem raiseEv_flash (s : State) (r : Rid) (i b : Nat) : (raiseEv s r i b).flash = s.flash := by
  obtain ⟨q, o, h⟩ := raiseEv_eq s r i b; rw [h]; rfl
@[simp] theorem raiseEv_pins (s : State) (r : Rid) (i b : Nat) : (raiseEv s r i b).pins = s.pins := by
  obtain ⟨q, o, h⟩ := raiseEv_eq s r i b; rw [h]; rfl
@[simp] theorem raiseEv_panels (s : State) (r : Rid) (i b : Nat) : (raiseEv s r i b).panels = s.panels := by
  obtain ⟨q, o, h⟩ := raiseEv_eq s r i b; rw [h]; rfl
@[simp] theorem raiseEv_pwr (s : State) (r : Rid) (i b : Nat) : (raiseEv s r i b).pwr = s.pwr := by
  obtain ⟨q, o, h⟩ := raiseEv_eq s r i b; rw [h]; rfl
@[simp] theorem raiseEv_health (s : State) (r : Rid) (i b : Nat) : (raiseEv s r i b).health = s.health := by
  obtain ⟨q, o, h⟩ := raiseEv_eq s r i b; rw [h]; rfl
@[simp] theorem raiseEv_obs (s : State) (r : Rid) (i b : Nat) : (raiseEv s r i b).obs = s.obs := by
  obtain ⟨q, o, h⟩ := raiseEv_eq s r i b; rw [h]; rfl
@[simp] theorem raiseEv_bist (s : State) (r : Rid) (i b : Nat) : (raiseEv s r i b).bist = s.bist := by
  obtain ⟨q, o, h⟩ := raiseEv_eq s r i b; rw [h]; rfl
@[simp] theorem raiseEv_bob (s : State) (r : Rid) (i b : Nat) : (raiseEv s r i b).bob = s.bob := by
  obtain ⟨q, o, h⟩ := raiseEv_eq s r i b; rw [h]; rfl
@[simp] theorem raiseEv_mem (s : State) (r : Rid) (i b : Nat) : (raiseEv s r i b).mem = s.mem := by
  obtain ⟨q, o, h⟩ := raiseEv_eq s r i b; rw [h]; rfl
@[simp] theorem raiseEv_time (s : State) (r : Rid) (i b : Nat) : (raiseEv s r i b).time = s.time := by
  obtain ⟨q, o, h⟩ := raiseEv_eq s r i b; rw [h]; rfl
@[simp] theorem raiseEv_thm (s : State) (r : Rid) (i b : Nat) : (raiseEv s r i b).thm = s.thm := by
  obtain ⟨q, o, h⟩ := raiseEv_eq s r i b; rw [h]; rfl
@[simp] theorem raiseEv_selv (s : State) (r : Rid) (i b : Nat) : (raiseEv s r i b).selv = s.selv := by
  obtain ⟨q, o, h⟩ := raiseEv_eq s r i b; rw [h]; rfl
@[simp] theorem raiseEv_spw (s : State) (r : Rid) (i b : Nat) : (raiseEv s r i b).spw = s.spw := by
  obtain ⟨q, o, h⟩ := raiseEv_eq s r i b; rw [h]; rfl
@[simp] theorem raiseEv_cco (s : State) (r : Rid) (i b : Nat) : (raiseEv s r i b).cco = s.cco := by
  obtain ⟨q, o, h⟩ := raiseEv_eq s r i b; rw [h]; rfl
@[simp] theorem raiseEv_seam (s : State) (r : Rid) (i b : Nat) : (raiseEv s r i b).seam = s.seam := by
  obtain ⟨q, o, h⟩ := raiseEv_eq s r i b; rw [h]; rfl
@[simp] theorem raiseEv_plt (s : State) (r : Rid) (i b : Nat) : (raiseEv s r i b).plt = s.plt := by
  obtain ⟨q, o, h⟩ := raiseEv_eq s r i b; rw [h]; rfl
@[simp] theorem raiseEv_fab (s : State) (r : Rid) (i b : Nat) : (raiseEv s r i b).fab = s.fab := by
  obtain ⟨q, o, h⟩ := raiseEv_eq s r i b; rw [h]; rfl
@[simp] theorem raiseEv_bast (s : State) (r : Rid) (i b : Nat) : (raiseEv s r i b).bast = s.bast := by
  obtain ⟨q, o, h⟩ := raiseEv_eq s r i b; rw [h]; rfl
@[simp] theorem raiseEv_line (s : State) (r : Rid) (i b : Nat) : (raiseEv s r i b).line = s.line := by
  obtain ⟨q, o, h⟩ := raiseEv_eq s r i b; rw [h]; rfl
@[simp] theorem raiseEv_opt (s : State) (r : Rid) (i b : Nat) : (raiseEv s r i b).opt = s.opt := by
  obtain ⟨q, o, h⟩ := raiseEv_eq s r i b; rw [h]; rfl

end Sys2Proof.Machine
end

