-- ==== Sys2Proof/Laws/Tab.lean ====
section
/-! SUPPORT. What writing a sparse table does: the key written, the other keys, the canonical form. -/

namespace Sys2Proof.Machine

/-- A write leaves every other key as it was. -/
theorem tabGet_tabSet_other {α : Type} [DecidableEq α] (d : α) (t : Tab α) {i j : Nat} (v : α) (h : j ≠ i) :
    tabGet d (tabSet d t i v) j = tabGet d t j := by
  induction t with
  | nil => unfold tabSet; split <;> simp [tabGet, h]
  | cons e t ih =>
    obtain ⟨k, w⟩ := e
    unfold tabSet
    split
    · split <;> simp [tabGet, h]
    · split
      · subst_vars; split <;> simp [tabGet, h]
      · simp only [tabGet, ih]

/-- A value other than the default reads back. -/
theorem tabGet_tabSet_ne {α : Type} [DecidableEq α] (d : α) (t : Tab α) (i : Nat) {v : α} (h : v ≠ d) :
    tabGet d (tabSet d t i v) i = v := by
  induction t with
  | nil => simp [tabSet, h, tabGet]
  | cons e t ih =>
    obtain ⟨k, w⟩ := e
    unfold tabSet
    split
    · simp [tabGet]
    · split
      · simp [tabGet]
      · rename_i hik; simp [tabGet, hik, ih]

/-- Below the first key of a canonical table nothing is listed. -/
theorem tabGet_of_wfFrom {α : Type} [DecidableEq α] (d : α) (t : Tab α) {lo i : Nat} (h : tabWfFrom d lo t) (hi : i < lo) :
    tabGet d t i = d := by
  induction t generalizing lo with
  | nil => rfl
  | cons e t ih =>
    obtain ⟨k, w⟩ := e
    simp only [tabWfFrom, Bool.and_eq_true, decide_eq_true_eq] at h
    have : i ≠ k := by omega
    simp only [tabGet, this, if_false]
    exact ih h.2 (by omega)

/-- In a canonical table every value written reads back. -/
theorem tabGet_tabSet_same {α : Type} [DecidableEq α] (d : α) (t : Tab α) (i : Nat) (v : α) {lo : Nat} (h : tabWfFrom d lo t) :
    tabGet d (tabSet d t i v) i = v := by
  by_cases hv : v = d
  · subst hv
    induction t generalizing lo with
    | nil => simp [tabSet, tabGet]
    | cons e t ih =>
      obtain ⟨k, w⟩ := e
      simp only [tabWfFrom, Bool.and_eq_true, decide_eq_true_eq] at h
      unfold tabSet
      split
      · rename_i hik
        have : i ≠ k := by omega
        simp only [if_true, tabGet, this, if_false]
        exact tabGet_of_wfFrom _ t h.2 (by omega)
      · split
        · rename_i hik
          rw [if_pos rfl]
          exact tabGet_of_wfFrom _ t h.2 (by omega)
        · rename_i hik; simp only [tabGet, hik, if_false]; exact ih h.2
  · exact tabGet_tabSet_ne d t i hv

/-- The canonical form above a bound is one above any lower bound. -/
theorem tabWfFrom_mono {α : Type} [DecidableEq α] (d : α) (t : Tab α) {lo lo' : Nat} (h : tabWfFrom d lo t) (hl : lo' ≤ lo) :
    tabWfFrom d lo' t := by
  cases t with
  | nil => rfl
  | cons e t =>
    obtain ⟨k, w⟩ := e
    simp only [tabWfFrom, Bool.and_eq_true, decide_eq_true_eq] at h ⊢
    exact ⟨⟨by omega, h.1.2⟩, h.2⟩

/-- A write keeps the canonical form above a bound. -/
theorem tabWfFrom_tabSet {α : Type} [DecidableEq α] (d : α) (t : Tab α) (i : Nat) (v : α) {lo : Nat} (h : tabWfFrom d lo t) (hi : lo ≤ i) :
    tabWfFrom d lo (tabSet d t i v) := by
  induction t generalizing lo with
  | nil => unfold tabSet; split <;> simp_all [tabWfFrom]
  | cons e t ih =>
    obtain ⟨k, w⟩ := e
    have h' := h
    simp only [tabWfFrom, Bool.and_eq_true, decide_eq_true_eq] at h
    unfold tabSet
    split
    · split
      · exact h'
      · rename_i hik hv
        simp only [tabWfFrom, Bool.and_eq_true, decide_eq_true_eq]
        exact ⟨⟨hi, hv⟩, ⟨⟨by omega, h.1.2⟩, h.2⟩⟩
    · split
      · split
        · exact tabWfFrom_mono d t h.2 (by omega)
        · rename_i hik hv
          simp only [tabWfFrom, Bool.and_eq_true, decide_eq_true_eq]
          exact ⟨⟨hi, hv⟩, by subst hik; exact h.2⟩
      · simp only [tabWfFrom, Bool.and_eq_true, decide_eq_true_eq]
        exact ⟨⟨by omega, h.1.2⟩, ih h.2 (by omega)⟩

/-- A write keeps the canonical form of a table. -/
theorem tabWf_tabSet {α : Type} [DecidableEq α] (d : α) (t : Tab α) (i : Nat) (v : α) (h : tabWf d t) : tabWf d (tabSet d t i v) :=
  tabWfFrom_tabSet d t i v h (Nat.zero_le i)

end Sys2Proof.Machine
end

