-- ==== Sys2Proof/Laws/Ops.lean ====
section
/-! SUPPORT. What the shared operations do, once: tables of tables, registers, events, counters, guarded accesses. -/

namespace Sys2Proof.Machine

/-! ### Tables of tables -/

/-- Element `i` of table `k`. -/
theorem tabsGet_set_ne {α : Type} [DecidableEq α] (d : α) (t : Tab (Tab α)) (k i : Nat) {v : α} (h : v ≠ d) :
    tabGet d (tabGet [] (tabSet [] t k (tabSet d (tabGet [] t k) i v)) k) i = v := by
  have hin : tabGet d (tabSet d (tabGet [] t k) i v) i = v := tabGet_tabSet_ne _ _ _ h
  have hne : tabSet d (tabGet [] t k) i v ≠ [] := by
    intro h0; rw [h0] at hin; exact h hin.symm
  rw [tabGet_tabSet_ne _ _ _ hne, hin]

/-- Writing a value other than the default leaves every other element. -/
theorem tabsGet_set_ne_other {α : Type} [DecidableEq α] (d d' : α) (t : Tab (Tab α)) {k i k' i' : Nat} {v : α} (h : v ≠ d)
    (ho : k' ≠ k ∨ (i' ≠ i ∧ d' = d)) :
    tabGet d' (tabGet [] (tabSet [] t k (tabSet d (tabGet [] t k) i v)) k') i' = tabGet d' (tabGet [] t k') i' := by
  by_cases hk : k' = k
  · subst hk
    obtain ⟨hi, rfl⟩ := ho.resolve_left (fun h => h rfl)
    have hin : tabGet d' (tabSet d' (tabGet [] t k') i v) i = v := tabGet_tabSet_ne _ _ _ h
    have hne : tabSet d' (tabGet [] t k') i v ≠ [] := by
      intro h0; rw [h0] at hin; exact h hin.symm
    rw [tabGet_tabSet_ne _ _ _ hne]
    exact tabGet_tabSet_other _ _ _ hi
  · rw [tabGet_tabSet_other _ _ _ hk]

/-- A table listed in a canonical table of tables is canonical. -/
theorem tabWf_of_tabsWf {α : Type} [DecidableEq α] {d : Nat → α} {t : Tab (Tab α)} (h : tabsWf d t) (k : Nat) :
    tabWf (d k) (tabGet [] t k) := by
  have h2 : ∀ e ∈ t, tabWf (d e.1) e.2 = true := by
    simp only [tabsWf, Bool.and_eq_true, List.all_eq_true] at h; exact h.2
  clear h
  induction t with
  | nil => rfl
  | cons e t ih =>
    obtain ⟨k', w⟩ := e
    unfold tabGet
    split
    · rename_i hk; subst hk; exact h2 _ (List.mem_cons_self ..)
    · exact ih (fun e he => h2 e (List.mem_cons_of_mem _ he))

/-- In canonical tables every value written reads back. -/
theorem tabsGet_set {α : Type} [DecidableEq α] {d : Nat → α} {t : Tab (Tab α)} (h : tabsWf d t) (k i : Nat) (v : α) :
    tabGet (d k) (tabGet [] (tabSet [] t k (tabSet (d k) (tabGet [] t k) i v)) k) i = v := by
  have h1 : tabWf [] t = true := by simp only [tabsWf, Bool.and_eq_true] at h; exact h.1
  rw [tabGet_tabSet_same [] t k _ (lo := 0) h1]
  exact tabGet_tabSet_same _ _ i v (lo := 0) (tabWf_of_tabsWf h k)

/-- In canonical tables a write leaves every other element. -/
theorem tabsGet_set_other {α : Type} [DecidableEq α] {d : Nat → α} {t : Tab (Tab α)} (h : tabsWf d t) {k i k' i' : Nat} (v : α)
    (ho : k' ≠ k ∨ i' ≠ i) :
    tabGet (d k') (tabGet [] (tabSet [] t k (tabSet (d k) (tabGet [] t k) i v)) k') i' = tabGet (d k') (tabGet [] t k') i' := by
  have h1 : tabWf [] t = true := by simp only [tabsWf, Bool.and_eq_true] at h; exact h.1
  by_cases hk : k' = k
  · subst hk
    have hi : i' ≠ i := ho.resolve_left (fun h => h rfl)
    rw [tabGet_tabSet_same [] t k' _ (lo := 0) h1]
    exact tabGet_tabSet_other _ _ _ hi
  · rw [tabGet_tabSet_other _ _ _ hk]

/-- What a write to a table lists is what it listed or the value written. -/
theorem mem_tabSet {α : Type} [DecidableEq α] (d : α) (t : Tab α) (i : Nat) (v : α) {e : Nat × α} (h : e ∈ tabSet d t i v) :
    e ∈ t ∨ e = (i, v) := by
  induction t with
  | nil =>
    unfold tabSet at h
    split at h
    · cases h
    · exact .inr (List.mem_singleton.1 h)
  | cons x t ih =>
    obtain ⟨k, w⟩ := x
    unfold tabSet at h
    split at h
    · split at h
      · exact .inl h
      · rcases List.mem_cons.1 h with h | h
        · exact .inr h
        · exact .inl h
    · split at h
      · split at h
        · exact .inl (List.mem_cons_of_mem _ h)
        · rcases List.mem_cons.1 h with h | h
          · exact .inr h
          · exact .inl (List.mem_cons_of_mem _ h)
      · rcases List.mem_cons.1 h with h | h
        · exact .inl (h ▸ List.mem_cons_self ..)
        · rcases ih h with h | h
          · exact .inl (List.mem_cons_of_mem _ h)
          · exact .inr h

/-- A write keeps the canonical form of tables of tables. -/
theorem tabsWf_set {α : Type} [DecidableEq α] {d : Nat → α} {t : Tab (Tab α)} (h : tabsWf d t) (k i : Nat) (v : α) :
    tabsWf d (tabSet [] t k (tabSet (d k) (tabGet [] t k) i v)) := by
  have hk := tabWf_of_tabsWf h k
  simp only [tabsWf, Bool.and_eq_true, List.all_eq_true] at h ⊢
  refine ⟨tabWf_tabSet [] t k _ h.1, fun e he => ?_⟩
  rcases mem_tabSet [] t k _ he with he | he
  · exact h.2 e he
  · subst he; exact tabWf_tabSet _ _ i v hk

/-! ### Registers -/

/-- Two registers do not share storage. -/
theorem ridNum_inj {a b : Rid} (h : ridNum a = ridNum b) : a = b := by
  have := congrArg Rid.ofNat h
  simpa [ridNum, Rid.ofNat_ctorIdx] using this

/-- The register a storage number names. -/
@[simp] theorem ofNat_ridNum (r : Rid) : Rid.ofNat (ridNum r) = r := Rid.ofNat_ctorIdx r

/-- The value put in effect is read. -/
theorem regGet_regSet (s : State) (h : Canon s) (r : Rid) (i : Nat) (v : Word) : regGet (regSet s r i v) r i = v := by
  have := tabsGet_set h.regs (ridNum r) i v
  simp only [ofNat_ridNum] at this
  exact this

/-- Putting a value in effect leaves every other register and element. -/
theorem regGet_regSet_other (s : State) (h : Canon s) {r r' : Rid} {i i' : Nat} (v : Word) (ho : r' ≠ r ∨ i' ≠ i) :
    regGet (regSet s r i v) r' i' = regGet s r' i' := by
  have := tabsGet_set_other h.regs (k := ridNum r) (i := i) (k' := ridNum r') (i' := i') v
    (ho.imp (fun h hn => h (ridNum_inj hn)) id)
  simp only [ofNat_ridNum] at this
  exact this

/-- The held write is read. -/
theorem heldGet_heldSet (s : State) (h : Canon s) (r : Rid) (i : Nat) (v : Option Word) : heldGet (heldSet s r i v) r i = v :=
  tabsGet_set h.held (ridNum r) i v

/-- Holding a write leaves every other held write. -/
theorem heldGet_heldSet_other (s : State) (h : Canon s) {r r' : Rid} {i i' : Nat} (v : Option Word) (ho : r' ≠ r ∨ i' ≠ i) :
    heldGet (heldSet s r i v) r' i' = heldGet s r' i' :=
  tabsGet_set_other h.held v (ho.imp (fun h hn => h (ridNum_inj hn)) id)

/-- A write that is held is read, whatever the tables list. -/
theorem heldGet_heldSet_some (s : State) (r : Rid) (i : Nat) (v : Word) : heldGet (heldSet s r i (some v)) r i = some v :=
  tabsGet_set_ne none s.held (ridNum r) i (by simp)

/-! ### Counters (R398) -/

/-- Counting adds to the counter, modulo 2 ^ 64. -/
theorem ctrGet_ctrAdd (s : State) (h : Canon s) (r : Rid) (i n : Nat) :
    ctrGet (ctrAdd s r i n) r i = ctrGet s r i + BitVec.ofNat 64 n :=
  tabsGet_set h.counters (ridNum r) i _

/-- Counting leaves every other counter. -/
theorem ctrGet_ctrAdd_other (s : State) (h : Canon s) {r r' : Rid} {i i' : Nat} (n : Nat) (ho : r' ≠ r ∨ i' ≠ i) :
    ctrGet (ctrAdd s r i n) r' i' = ctrGet s r' i' :=
  tabsGet_set_other h.counters _ (ho.imp (fun h hn => h (ridNum_inj hn)) id)

/-! ### Events (R18, R401) -/

/-- A single bit of an event register is not zero. -/
theorem evBit_ne_zero {b : Nat} (hb : b < 24) (w : BitVec 24) : w ||| BitVec.ofNat 24 (pow2 b) ≠ 0 := by
  have h24 : (BitVec.ofNat 24 (pow2 b)).getLsbD b = true := by
    revert b; decide
  intro h
  have e : (w ||| BitVec.ofNat 24 (pow2 b)).getLsbD b = false := by rw [h]; exact BitVec.getLsbD_zero
  rw [BitVec.getLsbD_or, h24, Bool.or_true] at e
  cases e

/-- What an event leaves in an event register. -/
def evNext (e : EvReg) (b : Nat) : EvReg := ⟨e.seq + 1, e.bits ||| BitVec.ofNat 24 (pow2 b)⟩

/-- It is never the reset value. -/
theorem evNext_ne {b : Nat} (hb : b < 24) (e : EvReg) : evNext e b ≠ ⟨0, 0⟩ := fun h => evBit_ne_zero hb e.bits (congrArg EvReg.bits h)

/-- An event register after an event of its own. -/
theorem happened_raiseEv (s : State) (r : Rid) (i : Nat) {b : Nat} (hb : b < 24) : Happened s (raiseEv s r i b) r i b := by
  obtain ⟨q, o, h⟩ := raiseEv_eq s r i b
  rw [h]
  exact tabsGet_set_ne ⟨0, 0⟩ s.events (ridNum r) i (evNext_ne hb (evGet s r i))

/-- An event leaves every other event register. -/
theorem evGet_raiseEv_other (s : State) {r r' : Rid} {i i' : Nat} {b : Nat} (hb : b < 24) (ho : r' ≠ r ∨ i' ≠ i) :
    evGet (raiseEv s r i b) r' i' = evGet s r' i' := by
  obtain ⟨q, o, h⟩ := raiseEv_eq s r i b
  rw [h]
  exact tabsGet_set_ne_other ⟨0, 0⟩ ⟨0, 0⟩ s.events (evNext_ne hb (evGet s r i))
    (ho.imp (fun h hn => h (ridNum_inj hn)) (fun h => ⟨h, rfl⟩))

/-- An event seen from a state with the same event registers. -/
theorem happened_of_events {s s' t : State} {r : Rid} {i b : Nat} (he : s'.events = s.events) (h : Happened s' t r i b) :
    Happened s t r i b := by
  unfold Happened evGet at *
  rw [he] at h
  exact h

/-- Nothing but the listed parts changed along two changes. -/
theorem OnlyChanges.trans {ps : List Part} {s t u : State} (h : OnlyChanges ps s t) (h' : OnlyChanges ps t u) : OnlyChanges ps s u := by
  intro p
  rcases h p with h | h
  · exact .inl h
  · rcases h' p with h' | h'
    · exact .inl h'
    · right; cases p <;> simp only [Part.same] at * <;> rw [h', h]

/-- A longer list of parts allows as much. -/
theorem OnlyChanges.mono {ps qs : List Part} {s t : State} (h : OnlyChanges ps s t) (hs : ∀ p ∈ ps, p ∈ qs) : OnlyChanges qs s t :=
  fun p => (h p).imp (hs p) id

/-- Changes made one after another, each within the listed parts, stay within them. -/
theorem onlyChanges_foldl {α : Type} {ps : List Part} (f : State → α → State) (hf : ∀ s a, OnlyChanges ps s (f s a)) (l : List α) (s : State) :
    OnlyChanges ps s (l.foldl f s) := by
  induction l generalizing s with
  | nil => intro p; right; cases p <;> rfl
  | cons a l ih => exact (hf s a).trans (ih _)

/-- An event changes its register, the vectors and the messages sent. -/
theorem onlyChanges_raiseEv (s : State) (r : Rid) (i b : Nat) : OnlyChanges [.events, .irq, .outbox] s (raiseEv s r i b) := by
  intro p
  cases p <;> simp [Part.same]

/-! ### Guarded accesses (R394-R397) -/

/-- A write that arrives has its effect. -/
theorem guardWrite_of_arrives {s : State} {req : Requester} {r : Rid} {i : Nat} (h : Arrives s req r i) (f : State → State) :
    guardWrite s req r i f = f s := by
  obtain ⟨h1, h2⟩ := (Bool.and_eq_true _ _).mp h
  rw [guardWrite, h1, h2]
  rfl

/-- A read that arrives has its effect. -/
theorem guardRead_of_arrives {s : State} {req : Requester} {r : Rid} {i : Nat} (h : Arrives s req r i) (f : State → State) :
    guardRead s req r i f = f s := by
  obtain ⟨h1, h2⟩ := (Bool.and_eq_true _ _).mp h
  rw [guardRead, h1, h2]
  rfl

/-- A command's meaning that is a next state completes. -/
theorem completes_of {c : Instr} {s t : State} {P : State → Prop} (h : exec c s = .next t) (hp : P t) : Completes c s P := ⟨t, h, hp⟩

end Sys2Proof.Machine
end

