-- ==== Sys2Proof/Laws/Credit.lean ====
section
/-! SUPPORT. What extending credit changes: reservations, announcements and their counts, and nothing else (R142, R143). -/

namespace Sys2Proof.Machine

/-- The parts of the state that credit reaches. -/
abbrev creditParts : List Part := [.counters, .outbox, .obs, .cco, .seam, .bast, .fab]

theorem sendTack_only (s : State) (ip typ cause panel : Nat) (hold : Bool) (coll : Word) (epoch : Nat) (aux : Word) :
    OnlyChanges [.bast, .counters, .outbox] s (sendTack s ip typ cause panel hold coll epoch aux) := by
  unfold sendTack
  refine onlyChanges_foldl _ (fun s n => ?_) _ _
  dsimp only
  split <;> (intro p; cases p <;> simp [Part.same, ctrInc, circSet])

/-- A message of the gateway's own joins the frames of the switch, or is counted as without an entry (R222, R223). -/
theorem emitNet_only (s : State) (panel ip cls : Nat) (body : List Byte) (out : Out) :
    OnlyChanges [.counters, .fab] s (emitNet s panel ip cls body out none) := by
  unfold emitNet
  dsimp only
  split
  · intro p; cases p <;> simp [Part.same]
  · intro p; cases p <;> simp [Part.same, frameFree, cellsFree, ctrInc]

/-- A protocol message without result cells joins the frames of the switch, unless its gateway is halted (R119, R133). -/
theorem scpSend_only (s : State) (panel ip port tc : Nat) (body : List Byte) : OnlyChanges [.counters, .fab] s (scpSend s panel ip port tc body none) := by
  unfold scpSend
  split
  · intro p; right; cases p <;> rfl
  · exact emitNet_only _ _ _ _ _ _

theorem toChild_only (s : State) (c : Coll) (st : Nat) (x : RmapEnt) (h : ScpHdr) : OnlyChanges creditParts s (toChild s c st x h) := by
  unfold toChild
  dsimp only
  split <;> exact (scpSend_only _ _ _ _ _ _).mono (by decide)

theorem tackStage_only (s : State) (c : Coll) (st typ e : Nat) : OnlyChanges creditParts s (tackStage s c st typ e) := by
  unfold tackStage
  refine onlyChanges_foldl _ (fun s x => ?_) _ _
  dsimp only
  split
  · exact toChild_only _ _ _ _ _
  · split
    · unfold tackChild
      exact ((sendTack_only _ _ _ _ _ _ _ _ _).mono (qs := creditParts) (by decide)).trans (toChild_only _ _ _ _ _)
    · intro p; right; cases p <;> rfl

theorem reserveOne_only {s t : State} {c : Coll} {st e chunk : Nat} (h : reserveOne s c st e chunk = some t) : OnlyChanges creditParts s t := by
  unfold reserveOne at h
  split at h
  · cases h; intro p; right; cases p <;> rfl
  · split at h
    · cases h; intro p; cases p <;> simp [Part.same, boltSet]
    · cases h

theorem reserveChunk_only {s t : State} {c : Coll} {e chunk : Nat} (h : reserveChunk s c e chunk = some t) : OnlyChanges creditParts s t := by
  unfold reserveChunk at h
  have key : ∀ (l : List Nat) (a : Option State), (∀ u, a = some u → OnlyChanges creditParts s u) →
      ∀ t, l.foldl (fun a st => match a with
        | some s => reserveOne s c st e chunk
        | none => none) a = some t → OnlyChanges creditParts s t := by
    intro l
    induction l with
    | nil => intro a ha t ht; exact ha t ht
    | cons st l ih =>
      intro a ha t ht
      refine ih _ ?_ t ht
      intro u hu
      cases a with
      | none => cases hu
      | some v => exact (ha v rfl).trans (reserveOne_only hu)
  exact key _ _ (fun u hu => by cases hu; intro p; right; cases p <;> rfl) t h

theorem creditStep_only (p : Nat) (id : Word) (n : Nat) (s : State) : OnlyChanges creditParts s (creditStep p id n s) := by
  induction n generalizing s with
  | zero => intro q; right; cases q <;> rfl
  | succ n ih =>
    unfold creditStep
    split
    · intro q; right; cases q <;> rfl
    · dsimp only
      split
      · intro q; right; cases q <;> rfl
      · split
        · split
          · rename_i u hu
            refine (reserveChunk_only hu).trans (OnlyChanges.trans ?_ (ih _))
            intro q; cases q <;> simp [Part.same, collMod]
          · intro q; cases q <;> simp [Part.same]
        · split
          · refine OnlyChanges.trans ?_ (ih _)
            intro q; cases q <;> simp [Part.same, collMod]
          · intro q; right; cases q <;> rfl

theorem tackCredit_only (s : State) (c : Coll) (e : Nat) : OnlyChanges creditParts s (tackCredit s c e) :=
  (tackStage_only _ _ _ _ _).trans (tackStage_only _ _ _ _ _)

/-- Raising the credit of a collective. -/
theorem creditRaise_only (s : State) (p : Nat) (id : Word) : OnlyChanges creditParts s (creditRaise s p id) := by
  unfold creditRaise
  split
  · intro q; right; cases q <;> rfl
  · rename_i c hc
    dsimp only
    have h := creditStep_only p id 400 s
    split
    · exact h
    · rename_i c' hc'
      have h1 : OnlyChanges creditParts s (if c.credit.1 < c'.credit.1 ∧ c.credit.2 < c.bucketChunks then tackCredit (creditStep p id 400 s) c' c.credit.1
          else creditStep p id 400 s) := by
        split
        · exact h.trans (tackCredit_only _ _ _)
        · exact h
      split
      · exact h1
      · exact h1.trans (tackCredit_only _ _ _)

/-- Raising the credit of every collective. -/
theorem creditAll_only (s : State) : OnlyChanges creditParts s (creditAll s) := by
  unfold creditAll
  exact onlyChanges_foldl _ (fun s c => creditRaise_only _ _ _) _ _

end Sys2Proof.Machine
end

