-- ==== Sys2Proof/Laws/Hbm.lean ====
section
/-! SUPPORT. What reading and writing HBM does: the bytes stored, every other byte, the canonical form, and what stays as it was. -/

namespace Sys2Proof.Machine

/-! ### Runs of a table -/

/-- A run written leaves every other key. -/
theorem tabGet_tabSetList_other {α : Type} [DecidableEq α] (d : α) (l : List α) (t : Tab α) (i j : Nat) (h : j < i ∨ i + l.length ≤ j) :
    tabGet d (tabSetList d t i l) j = tabGet d t j := by
  induction l generalizing t i with
  | nil => rfl
  | cons v l ih =>
    simp only [List.length_cons] at h
    simp only [tabSetList]
    rw [ih _ _ (by omega)]
    exact tabGet_tabSet_other _ _ _ (by omega)

/-- A run written keeps the canonical form. -/
theorem tabWf_tabSetList {α : Type} [DecidableEq α] (d : α) (l : List α) (t : Tab α) (i : Nat) (h : tabWf d t) : tabWf d (tabSetList d t i l) := by
  induction l generalizing t i with
  | nil => exact h
  | cons v l ih => exact ih _ _ (tabWf_tabSet d t i v h)

/-- A run written reads back. -/
theorem tabGetList_tabSetList {α : Type} [DecidableEq α] (d : α) (l : List α) (t : Tab α) (i : Nat) (h : tabWf d t) :
    tabGetList d (tabSetList d t i l) i l.length = l := by
  induction l generalizing t i with
  | nil => rfl
  | cons v l ih =>
    simp only [tabSetList, List.length_cons, tabGetList]
    have hw := tabWf_tabSet d t i v h
    rw [ih _ _ hw, tabGet_tabSetList_other _ _ _ _ _ (by omega), tabGet_tabSet_same _ _ _ _ (lo := 0) h]

/-! ### Byte counters -/

/-- Counting bytes moved changes the counters alone. -/
theorem countBytes_only (r : Rid) (k : Nat) (s : State) (a n : Nat) : OnlyChanges [.counters] s (countBytes r k s a n) := by
  induction k generalizing s a n with
  | zero => intro p; right; cases p <;> rfl
  | succ k ih =>
    unfold countBytes
    split
    · intro p; right; cases p <;> rfl
    · exact OnlyChanges.trans (by intro p; cases p <;> simp [Part.same]) (ih _ _ _)

@[simp] theorem countBytes_mem (r : Rid) (k : Nat) (s : State) (a n : Nat) : (countBytes r k s a n).mem = s.mem := by
  have h := countBytes_only r k s a n .mem
  simpa [Part.same] using h

/-! ### Reads -/

/-- A read that corrects again counts and reports, and changes nothing else (R267). -/
theorem readCorrected_only (s : State) (a n : Nat) : OnlyChanges [.counters, .events, .irq, .outbox] s (readCorrected s a n) := by
  unfold readCorrected
  split
  · intro p; right; cases p <;> rfl
  · refine onlyChanges_foldl _ (fun s b => ?_) _ _
    intro p; cases p <;> simp [Part.same, ctrInc]

@[simp] theorem readCorrected_mem (s : State) (a n : Nat) : (readCorrected s a n).mem = s.mem := by
  have h := readCorrected_only s a n .mem
  simpa [Part.same] using h

/-- A read with no uncorrectable block answers the bytes and counts them (R267, R277). -/
theorem hbmRead_of_good (s : State) (a n : Nat) (h : ueIn s a n = none) :
    hbmRead s a n = (some (hbmBytes s a n), readCorrected (countBytes .MEM_CNT_RD_BYTES (n / 256 + 2) s a n) a n) := by
  have h' : ueIn (readCorrected (countBytes .MEM_CNT_RD_BYTES (n / 256 + 2) s a n) a n) a n = none := by
    simpa [ueIn] using h
  simp [hbmRead, h', hbmBytes]

/-- A read changes memory's error record, counters and events alone. -/
theorem hbmRead_only (s : State) (a n : Nat) : OnlyChanges [.mem, .counters, .events, .irq, .outbox] s (hbmRead s a n).2 := by
  have h := ((countBytes_only .MEM_CNT_RD_BYTES (n / 256 + 2) s a n).mono (qs := [.mem, .counters, .events, .irq, .outbox]) (by decide)).trans
    ((readCorrected_only _ a n).mono (by decide))
  unfold hbmRead
  dsimp only
  split
  · exact h.trans (by intro p; cases p <;> simp [Part.same, recordUe, ctrInc])
  · exact h

/-- A read leaves the bytes. -/
theorem hbmRead_cells (s : State) (a n : Nat) : (hbmRead s a n).2.mem.cells = s.mem.cells := by
  unfold hbmRead
  dsimp only
  split <;> simp [recordUe, ctrInc]

/-! ### Writes -/

/-- A write of a block's part changes memory, counters and events alone. -/
theorem hbmWriteBlock_only (s : State) (a : Nat) (bs : List Byte) :
    OnlyChanges [.mem, .counters, .events, .irq, .outbox] s (hbmWriteBlock s a bs) := by
  unfold hbmWriteBlock
  dsimp only
  split <;> (try split) <;> (try split) <;> (try split) <;> (intro p; cases p <;> simp [Part.same, recordUe, ctrInc])

/-- A write of a block's part keeps the canonical form of memory. -/
theorem hbmWriteBlock_wf (s : State) (a : Nat) (bs : List Byte) (h : tabWf hbmBlank s.mem.cells) :
    tabWf hbmBlank (hbmWriteBlock s a bs).mem.cells := by
  unfold hbmWriteBlock
  dsimp only
  split <;> (try split) <;> (try split) <;> (try split) <;> simp [recordUe, ctrInc] <;> first | exact h | exact tabWf_tabSetList _ _ _ _ h

/-- A write of a block's part leaves every byte outside it. -/
theorem hbmWriteBlock_other (s : State) (a : Nat) (bs : List Byte) (j : Nat) (h : j < a ∨ a + bs.length ≤ j) :
    hbmByte (hbmWriteBlock s a bs) j = hbmByte s j := by
  unfold hbmWriteBlock hbmByte
  dsimp only
  split <;> (try split) <;> (try split) <;> (try split) <;> simp [recordUe, ctrInc] <;> exact tabGet_tabSetList_other _ _ _ _ _ h

theorem hbmWriteFuel_only (k : Nat) (s : State) (a : Nat) (bs : List Byte) :
    OnlyChanges [.mem, .counters, .events, .irq, .outbox] s (hbmWriteFuel k s a bs) := by
  induction k generalizing s a bs with
  | zero => intro p; right; cases p <;> rfl
  | succ k ih =>
    cases bs with
    | nil => intro p; right; cases p <;> rfl
    | cons b bs => exact (hbmWriteBlock_only _ _ _).trans (ih _ _ _)

theorem hbmWriteFuel_wf (k : Nat) (s : State) (a : Nat) (bs : List Byte) (h : tabWf hbmBlank s.mem.cells) :
    tabWf hbmBlank (hbmWriteFuel k s a bs).mem.cells := by
  induction k generalizing s a bs with
  | zero => exact h
  | succ k ih =>
    cases bs with
    | nil => exact h
    | cons b bs => exact ih _ _ _ (hbmWriteBlock_wf _ _ _ h)

theorem hbmWriteFuel_other (k : Nat) (s : State) (a : Nat) (bs : List Byte) (j : Nat) (h : j < a ∨ a + bs.length ≤ j) :
    hbmByte (hbmWriteFuel k s a bs) j = hbmByte s j := by
  induction k generalizing s a bs with
  | zero => rfl
  | succ k ih =>
    cases bs with
    | nil => rfl
    | cons b bs =>
      unfold hbmWriteFuel
      dsimp only
      rw [ih _ _ _ (by simp only [List.length_drop]; omega)]
      exact hbmWriteBlock_other _ _ _ _ (by simp only [List.length_take]; omega)

/-- A write changes memory, counters and events alone (R267, R277). -/
theorem hbmWrite_only (s : State) (a : Nat) (bs : List Byte) : OnlyChanges [.mem, .counters, .events, .irq, .outbox] s (hbmWrite s a bs) := by
  unfold hbmWrite
  exact ((countBytes_only _ _ _ _ _).mono (by decide)).trans (hbmWriteFuel_only _ _ _ _)

/-- A write keeps the canonical form of memory. -/
theorem hbmWrite_wf (s : State) (a : Nat) (bs : List Byte) (h : tabWf hbmBlank s.mem.cells) : tabWf hbmBlank (hbmWrite s a bs).mem.cells := by
  unfold hbmWrite
  exact hbmWriteFuel_wf _ _ _ _ (by simpa using h)

/-- A write leaves every byte outside the bytes stored. -/
theorem hbmWrite_other (s : State) (a : Nat) (bs : List Byte) (j : Nat) (h : j < a ∨ a + bs.length ≤ j) :
    hbmByte (hbmWrite s a bs) j = hbmByte s j := by
  unfold hbmWrite
  dsimp only
  rw [hbmWriteFuel_other _ _ _ _ _ h]
  simp [hbmByte]

/-- An aligned word written to a good block is stored, and changes memory and counters alone. -/
theorem hbmWrite_word (s : State) (a : Nat) (w : Word) (ha : a % 4 = 0) (hu : s.mem.ue.contains (a / 32) = false)
    (hw : tabWf hbmBlank s.mem.cells) :
    hbmBytes (hbmWrite s a (wordBytes w)) a 4 = wordBytes w ∧ OnlyChanges [.mem, .counters] s (hbmWrite s a (wordBytes w)) := by
  have hl : (wordBytes w).length = 4 := rfl
  have htake : (wordBytes w).take (32 - a % 32) = wordBytes w := List.take_of_length_le (by omega)
  have hdrop : (wordBytes w).drop (32 - a % 32) = [] := List.drop_eq_nil_of_le (by omega)
  generalize hc : countBytes .MEM_CNT_WR_BYTES 2 s a 4 = c
  have hcm : c.mem = s.mem := by rw [← hc]; simp
  have e : hbmWrite s a (wordBytes w) = hbmWriteBlock c a (wordBytes w) := by
    unfold hbmWrite
    rw [hl]
    show hbmWriteFuel 2 (countBytes .MEM_CNT_WR_BYTES 2 s a 4) a (wordBytes w) = _
    rw [hc]
    conv => lhs; unfold hbmWriteFuel
    show hbmWriteFuel 1 (hbmWriteBlock c a ((wordBytes w).take (32 - a % 32))) _ ((wordBytes w).drop (32 - a % 32)) = _
    rw [htake, hdrop]
    rfl
  have ho : OnlyChanges [.mem, .counters] s c := by rw [← hc]; exact (countBytes_only _ _ _ _ _).mono (by decide)
  have hb : (∃ m : Mem, hbmWriteBlock c a (wordBytes w) = { c with mem := { m with cells := tabSetList hbmBlank s.mem.cells a (wordBytes w) } }) := by
    unfold hbmWriteBlock
    dsimp only
    split
    · split
      · rw [if_neg (by show ¬ c.mem.ue.contains _ = true; rw [hcm, hu]; decide)]
        exact ⟨{ c.mem with scrubWb := none }, by rw [hcm]⟩
      · rw [if_neg (by rw [hcm, hu]; decide)]
        exact ⟨c.mem, by rw [hcm]⟩
    · rw [if_neg (by rw [hcm, hu]; decide)]
      exact ⟨c.mem, by rw [hcm]⟩
  obtain ⟨m, hb⟩ := hb
  rw [e, hb]
  refine ⟨?_, ho.trans (by intro p; cases p <;> simp [Part.same])⟩
  have := tabGetList_tabSetList hbmBlank (wordBytes w) s.mem.cells a hw
  rw [hl] at this
  exact this

end Sys2Proof.Machine
end

