-- ==== Sys2Proof/Laws/Scp.lean ====
section
/-! SUPPORT. What a message does with the frame it came in (R223). -/

namespace Sys2Proof.Machine

/-- A message whose frame waits in no VOQ leaves what it did itself. -/
theorem scpTaken_of_idle {s : State} {d : Datagram} (h : scpWaiting s d.port d.frame = 0) (t : State) : scpTaken s d t = t :=
  if_pos (Or.inl h)

/-- A message that has kept its frame leaves what it did itself. -/
theorem scpTaken_of_kept {s t : State} {d : Datagram} (h : scpWaiting t d.port d.frame ≠ scpWaiting s d.port d.frame) : scpTaken s d t = t :=
  if_pos (Or.inr h)

/-- Taking a frame is all that a message does beyond its own effect. -/
theorem scpTaken_cases (s : State) (d : Datagram) (t : State) : scpTaken s d t = t ∨ scpTaken s d t = scpDone t d.port d.frame := by
  unfold scpTaken
  split
  · exact .inl rfl
  · exact .inr rfl

/-- With no frame in any VOQ, nothing waits for the array. -/
theorem scpWaiting_of_none {s : State} (h : s.fab.frames = []) (p : Nat) (data : List Byte) : scpWaiting s p data = 0 := by
  simp [scpWaiting, h]

end Sys2Proof.Machine
end

