-- ==== Sys2Proof/Laws/Stitches.lean ====
section
/-! SUPPORT. What the issue of a stitch comes to: the stitch is tried, and one that takes effect moves its invocation on and is charged to its
panel (R80, R112). -/

namespace Sys2Proof.Machine

/-- Where a stitch may issue, it is tried. -/
theorem issueOp_of_issues {s : State} {eng slot op : Nat} {v : Env} (h : Issues s eng slot op v) :
    issueOp s eng slot op none = settle s v (stitchDo op v s) := by
  obtain ⟨h1, h2, h3, h4, h5, h6, h7⟩ := h
  unfold issueOp
  simp only [h1]
  rw [if_neg (by rw [h3, h4, h5, h6]; simp [h2]; omega)]
  simp [attempt, h2]

/-- The environment of a slot names the slot. -/
theorem envOf_i {s : State} {i : Nat} {v : Env} (h : envOf s i = some v) : v.i = i := by
  unfold envOf at h
  split at h
  · cases h
  · split at h
    · cases h
    · cases h; rfl

/-- Setting the invocation of a slot is read back. -/
theorem runOf_runSet (s : State) (i : Nat) (x : Inv) : runOf (runSet s i (some x)) i = some x := by
  unfold runOf runSet
  show (tabGet slotReset (tabSet slotReset s.seam.slots i _) i).run = _
  rw [tabGet_tabSet_ne]
  intro h
  have := congrArg StageSlot.run h
  cases this

/-- It leaves every other slot. -/
theorem slotGet_runSet_other (s : State) {i j : Nat} (x : Option Inv) (h : j ≠ i) : slotGet (runSet s i x) j = slotGet s j :=
  tabGet_tabSet_other _ _ _ h

/-- Charging a panel leaves the slots. -/
theorem charge_slots (s : State) (e p n : Nat) : (charge s e p n).seam.slots = s.seam.slots := rfl

/-- Charging a panel counts the engine's issue cycles. -/
theorem charge_count (s : State) (h : Canon s) (e p n : Nat) :
    ctrGet (charge s e p n) .SEAM_CNT_ISSUE e = ctrGet s .SEAM_CNT_ISSUE e + BitVec.ofNat 64 n :=
  tabsGet_set h.counters (ridNum .SEAM_CNT_ISSUE) e _

/-- Charging a panel raises its tally. -/
theorem charge_used (s : State) (e p n : Nat) (hn : 0 < n) :
    tabGet 0 (engGet (charge s e p n) e).used p = tabGet 0 (engGet s e).used p + n := by
  have hu : tabGet 0 (tabMod 0 (engGet s e).used p (· + n)) p = tabGet 0 (engGet s e).used p + n := by
    unfold tabMod
    rw [tabGet_tabSet_ne]
    show _ + n ≠ 0
    omega
  have he : engGet (charge s e p n) e = { engGet s e with used := tabMod 0 (engGet s e).used p (· + n) } := by
    show tabGet _ (tabSet _ s.seam.engines e _) e = _
    rw [tabGet_tabSet_ne]
    intro h
    have h2 : tabMod 0 (engGet s e).used p (· + n) = [] := congrArg Engine.used h
    rw [h2] at hu
    simp only [tabGet] at hu
    omega
  rw [he]
  exact hu

/-- A stitch that takes effect on its invocation alone. -/
theorem stitched_of_go (s : State) (h : Canon s) (v : Env) (x : Inv) (cost next : Nat) :
    let t := charge (runSet s v.i (some { x with pc := next, stall := false })) (v.i / 8) v.b.panel cost
    Stitched s t v x next cost ∧ SeamKept s t := by
  dsimp only
  refine ⟨⟨runOf_runSet _ _ _, fun j hj => slotGet_runSet_other _ _ hj, fun hc => charge_used _ _ _ _ hc, ?_⟩, rfl, rfl, rfl, rfl, ?_⟩
  · exact tabsGet_set (d := fun _ => 0) h.counters (ridNum .SEAM_CNT_ISSUE) (v.i / 8) _
  · intro p; cases p <;> simp [Part.same, charge, ctrAdd, engSet, runSet, slotSet]

/-- A stitch other than END and EMIT that takes effect. -/
theorem settle_go (s s' : State) (v : Env) (x : Inv) (cost next : Nat) (h1 : v.t.op ≠ 0x01) (h2 : v.t.op ≠ 0x21) :
    settle s v (.go s' x cost next) = charge (runSet s' v.i (some { x with pc := next, stall := false })) (v.i / 8) v.b.panel cost := by
  simp [settle, h1, h2]

/-- A stitch that issues and takes effect on its invocation alone: where the machine then is. -/
theorem stitched_of_issues {s : State} (hc : Canon s) {eng slot op : Nat} {v : Env} (h : Issues s eng slot op v) {x : Inv} {cost next : Nat}
    (h1 : op ≠ 0x01) (h2 : op ≠ 0x21) (hd : stitchDo op v s = .go s x cost next) :
    Stitched s (issueOp s eng slot op none) v x next cost ∧ SeamKept s (issueOp s eng slot op none) := by
  rw [issueOp_of_issues h, hd, settle_go _ _ _ _ _ _ (by rw [h.2.1]; exact h1) (by rw [h.2.1]; exact h2)]
  exact stitched_of_go s hc v x cost next

end Sys2Proof.Machine
end

