-- ==== Sys2Proof/Machine/Balls.lean ====
section
/-! DEFINITION. The ball array (17_electrical_and_mechanical, R471-R474): where lanes and rails meet the board. -/

namespace Sys2Proof.Machine

/-- A ball: its row from the north edge and column from the west edge, 1 to 116 (R471). -/
structure Ball where
  row : Nat
  col : Nat
  deriving DecidableEq, Repr

/-- A quarter turn clockwise about the array centre (R472). -/
def Ball.turn (b : Ball) : Ball := ⟨b.col, 117 - b.row⟩

/-- `n` quarter turns. -/
def ballTurns : Nat → Ball → Ball
  | 0, b => b
  | n + 1, b => ballTurns n b.turn

/-- The ball of a lane: `rx` for its receive pair, `neg` for the negative side (R473).  Lane 128 d + j lies where lane j does after d turns. -/
def laneBall (lane : Nat) (rx neg : Bool) : Ball :=
  let j := lane % 128
  ballTurns (lane / 128) ⟨4 * (j / 32) + 1 + (if rx then 2 else 0), 27 + 2 * (j % 32) + (if neg then 1 else 0)⟩

/-- What a zone of the array holds (R472). -/
inductive BallZone where
  | fabric (die : Nat)
  | rail (name : String)
  | management
  deriving DecidableEq, Repr

/-- The die of each corner, by the turns that bring it to the north-west: LD0, LD2, LD3, LD1 (R472). -/
def cornerDie : Nat → Nat
  | 0 => 0
  | 1 => 2
  | 2 => 3
  | _ => 1

/-- The zones of the north side and the north-west corner. -/
def northZone (t : Nat) (b : Ball) : Option BallZone :=
  if 27 ≤ b.col ∧ b.col ≤ 90 then
    if b.row ≤ 16 then some (.fabric t)
    else if b.row ≤ 18 then some (.rail "VDDT_SER")
    else if b.row ≤ 26 then some (.rail "VDDA_SER")
    else none
  else if b.col ≤ 26 ∧ b.row ≤ 26 then
    let die := toString (cornerDie t)
    some (.rail ((if b.row ≤ 4 then "VLAS_LD" else if b.row ≤ 12 then "VDDA_LD" else "VDD_LD") ++ die))
  else none

/-- The rail of an HBM strip at a distance from its outer row (R472). -/
def hbmRail (d : Nat) (west : Bool) : BallZone :=
  .rail ((if d < 2 then "VPP_HBM" else if d < 7 then "VDDC_HBM" else "VDDQ_HBM") ++ (if west then "0" else "1"))

/-- The zone a ball lies in (R472).  A side after t turns is the north side of the array turned back by t. -/
def ballZone (b : Ball) : Option BallZone :=
  let side := (List.range 4).findSome? (fun t => northZone t (ballTurns ((4 - t) % 4) b))
  match side with
  | some z => some z
  | none =>
    if 27 ≤ b.col ∧ b.col ≤ 90 ∧ 27 ≤ b.row ∧ b.row ≤ 90 then
      if b.row ≤ 38 then some (hbmRail (b.row - 27) (decide (b.col ≤ 58)))
      else if 79 ≤ b.row then some (hbmRail (90 - b.row) (decide (b.col ≤ 58)))
      else if 53 ≤ b.row ∧ b.row ≤ 64 ∧ 53 ≤ b.col ∧ b.col ≤ 64 then some .management
      else some (.rail "VDD_CORE")
    else none

/-- In a power zone a position is the rail where row + column is even, and VSS where it is odd (R472). -/
def powerBall (b : Ball) : Option String :=
  match ballZone b with
  | some (.rail r) => some (if (b.row + b.col) % 2 = 0 then r else "VSS")
  | _ => none

end Sys2Proof.Machine
end

