-- ==== Sys2Proof/WellFormed.lean ====
section
/-! DEFINITION. Which commands name things that exist: the ranges of R15 and of the register tables.  A command outside them is no command of
the gateway's surroundings; the meanings are total all the same. -/

namespace Sys2Proof

/-- A requester: one of the sixteen virtual functions, where it is one (R406). -/
def wfReq : Requester → Bool
  | .vf n => decide (n < 16)
  | _ => true

/-- A word of a requester's BAR0: 16 MiB of a virtual function, 512 MiB otherwise (R394, R396, R406). -/
def wfAddr (req : Requester) (a : Nat) : Bool :=
  decide (a % 4 = 0) && (match req with
    | .vf _ => decide (a < 0x1000000)
    | _ => decide (a < 0x20000000))

/-- A word of the physical function's BAR0. -/
def wfBar0 (a : Nat) : Bool := wfAddr .pf a

/-- A laser bias in 0.1 % of its ceiling. -/
def wfBias (n : Nat) : Bool := decide (n ≤ 1000)

/-- A cause of an alarm. -/
def wfCause (n : Nat) : Bool := decide (n < 6)

/-- A line channel. -/
def wfCh (n : Nat) : Bool := decide (n < 64)

/-- A basting circuit. -/
def wfCirc (n : Nat) : Bool := decide (n < 32)

/-- A traffic class. -/
def wfCls (n : Nat) : Bool := decide (n < 8)

/-- An SMBus command code. -/
def wfCode (n : Nat) : Bool := decide (n < 256)

/-- A codebook slot. -/
def wfCodebook (n : Nat) : Bool := decide (n < 256)

/-- A context of the array, 16 × engine + context. -/
def wfCtx (n : Nat) : Bool := decide (n < 512)

/-- A port or an internal destination. -/
def wfDest (n : Nat) : Bool := decide (n < 0x400)

/-- A line die or an IO die. -/
def wfDie (n : Nat) : Bool := decide (n < 4)

/-- A power domain. -/
def wfDom (n : Nat) : Bool := decide (n < 24)

/-- A Seam engine. -/
def wfEng (n : Nat) : Bool := decide (n < 32)

/-- A PCIe function. -/
def wfFn (n : Nat) : Bool := decide (n < 17)

/-- A key-load group. -/
def wfKeyGroup (n : Nat) : Bool := decide (n < 17)

/-- A line group. -/
def wfLineGroup (n : Nat) : Bool := decide (n < 64)

/-- A voltage in mV. -/
def wfMv (n : Nat) : Bool := decide (n < 65536)

/-- A stage slot of the array, 8 × engine + slot. -/
def wfPageSlot (n : Nat) : Bool := decide (n < 256)

/-- A panel. -/
def wfPanel (n : Nat) : Bool := decide (n < 16)

/-- A time within a microsecond, in 2^-16 ns. -/
def wfPhase (n : Nat) : Bool := decide (n < 65536000)

/-- A fabric port. -/
def wfPort (n : Nat) : Bool := decide (n < 256)

/-- A port quadrant. -/
def wfQuad (n : Nat) : Bool := decide (n < 8)

/-- A monitored rail. -/
def wfRail (n : Nat) : Bool := decide (n < 4)

/-- A policer or shaper register. -/
def wfReg (n : Nat) : Bool := decide (n < 3)

/-- A tack receiver. -/
def wfRx (n : Nat) : Bool := decide (n < 32)

/-- A die with a temperature sensor: two core dies and four IO dies. -/
def wfSensorDie (n : Nat) : Bool := decide (n < 6)

/-- A session. -/
def wfSess (n : Nat) : Bool := decide (n < 4096)

/-- A site of a span. -/
def wfSite (n : Nat) : Bool := decide (n < 16)

/-- A spool. -/
def wfSpool (n : Nat) : Bool := decide (n < 6)

/-- A stage slot of an engine. -/
def wfStageSlot (n : Nat) : Bool := decide (n < 8)

/-- An MSI-X vector. -/
def wfVec (n : Nat) : Bool := decide (n < 64)

/-- A panel view or the physical function. -/
def wfView (n : Nat) : Bool := decide (n < 17)

/-- A span window. -/
def wfWin (n : Nat) : Bool := decide (n < 16)

/-- Every operand of a command names something that exists. -/
def Instr.wf : Instr → Bool
  | .porstNRelease => true
  | .porstNAssert => true
  | .perstNAssert => true
  | .strapSample _ => true
  | .lifecycleRead _ => true
  | .postDone _ => true
  | .patternCheckDone _ _ _ => true
  | .hbmTrainingDone _ => true
  | .fabricReady => true
  | .longhaulReady => true
  | .registerWrite req addr _ => wfReq req && wfAddr req addr
  | .malformedAccess req _ _ => wfReq req
  | .rwsWrite req addr _ => wfReq req && wfAddr req addr
  | .rwsApply addr => wfBar0 addr
  | .aliasRead req addr => wfReq req && wfAddr req addr
  | .sqcWrite req addr _ => wfReq req && wfAddr req addr
  | .counterLowRead req addr => wfReq req && wfAddr req addr
  | .counterHighRead req addr => wfReq req && wfAddr req addr
  | .timeNowRead req addr => wfReq req && wfAddr req addr
  | .irqHoldoffExpiry fn vec => wfFn fn && wfVec vec
  | .glbPanelCfgWrite req panel _ => wfReq req && wfPanel panel
  | .panelReset req panel => wfReq req && wfPanel panel
  | .panelResetDone panel => wfPanel panel
  | .smbusBlockRead code => wfCode code
  | .smbusSqcClear _ => true
  | .flashErase req => wfReq req
  | .flashProgram req => wfReq req
  | .flashRead req => wfReq req
  | .flashDone _ => true
  | .raiseMinver req => wfReq req
  | .alarm cause => wfCause cause
  | .stitchNop eng slot => wfEng eng && wfStageSlot slot
  | .stitchEnd eng slot => wfEng eng && wfStageSlot slot
  | .stitchSetl eng slot => wfEng eng && wfStageSlot slot
  | .stitchLoad eng slot _ => wfEng eng && wfStageSlot slot
  | .stitchStore eng slot _ => wfEng eng && wfStageSlot slot
  | .stitchIota eng slot => wfEng eng && wfStageSlot slot
  | .stitchUnpack eng slot => wfEng eng && wfStageSlot slot.num
  | .stitchPack eng slot _ => wfEng eng && wfStageSlot slot
  | .stitchWiden eng slot => wfEng eng && wfStageSlot slot.num
  | .stitchNarrow eng slot => wfEng eng && wfStageSlot slot.num
  | .stitchSum eng slot _ => wfEng eng && wfStageSlot slot
  | .stitchScale eng slot _ => wfEng eng && wfStageSlot slot
  | .stitchGather eng slot _ => wfEng eng && wfStageSlot slot
  | .stitchSort eng slot => wfEng eng && wfStageSlot slot
  | .stitchTopk eng slot => wfEng eng && wfStageSlot slot
  | .stitchFilter eng slot => wfEng eng && wfStageSlot slot
  | .stitchCheck eng slot => wfEng eng && wfStageSlot slot
  | .stitchEmit eng slot => wfEng eng && wfStageSlot slot
  | .stitchWait eng slot => wfEng eng && wfStageSlot slot
  | .stitchBranch eng slot => wfEng eng && wfStageSlot slot
  | .stitchStallRelease eng slot => wfEng eng && wfStageSlot slot.num
  | .arriveDispatch eng slot panel => wfEng eng && wfStageSlot slot && wfPanel panel
  | .doneDispatch eng slot panel => wfEng eng && wfStageSlot slot && wfPanel panel
  | .arriveResume eng slot => wfEng eng && wfStageSlot slot
  | .usedTallyHalving eng => wfEng eng
  | .ringTransferArrive _ => true
  | .remnantAccessDone => true
  | .spDataWrite req eng _ => wfReq req && wfEng eng.num
  | .spDataRead req eng => wfReq req && wfEng eng.num
  | .slotCommit req i => wfReq req && wfPageSlot i
  | .slotClear req i => wfReq req && wfPageSlot i
  | .slotCheckDone i => wfPageSlot i
  | .ctxBindApply k => wfCtx k
  | .contrib _ => true
  | .result _ => true
  | .nackMsg _ => true
  | .abortMsg _ => true
  | .closeMsg _ => true
  | .creditMsg _ => true
  | .barrierMsg _ => true
  | .releaseMsg _ => true
  | .resumeMsg _ => true
  | .missTimerExpiry _ => true
  | .openCommand req view => wfReq req && wfView view
  | .retireCommand req view => wfReq req && wfView view
  | .standinCommand req view => wfReq req && wfView view
  | .abortCommand req view => wfReq req && wfView view
  | .qpReset req view => wfReq req && wfView view
  | .resumeCommand req view => wfReq req && wfView view
  | .cmdDone view => wfView view
  | .rdmaAck _ _ => true
  | .rdmaNak _ _ _ => true
  | .rdmaAckTimeout _ => true
  | .rdmaIgnoredPacket port => wfPort port
  | .closeTackReceive panel _ site _ => wfPanel panel && wfSite site
  | .closeTackRepeat panel _ _ => wfPanel panel
  | .spanWindowOpen win => wfWin win
  | .spanWindowClose win => wfWin win
  | .pltLoad req slot => wfReq req && wfCodebook slot
  | .pltClear req slot => wfReq req && wfCodebook slot
  | .pltCmdDone => true
  | .pleatBlockReturn _ => true
  | .pleatDecodeDone _ _ => true
  | .frameReceive _ => true
  | .pfcReceive port _ => wfPort port
  | .frameTransmit port panel phase => wfDest port && wfPanel panel && wfPhase phase
  | .pfcRefresh port cls => wfPort port && wfCls cls
  | .frameAgeOut inp cls dest => wfDest inp && wfCls cls && wfDest dest
  | .linkUp port => wfPort port
  | .linkDown port => wfPort port
  | .fportQdModeWrite req q _ => wfReq req && wfQuad q
  | .fportCtrlWrite req port _ => wfReq req && wfPort port
  | .swLimitWrite req _ port cls _ => wfReq req && wfPort port && wfCls cls
  | .fdbWrite req => wfReq req
  | .fdbDelete req => wfReq req
  | .tmPolWrite req reg port cls _ => wfReq req && wfReg reg && wfPort port && wfCls cls
  | .tmShpWrite req reg port cls _ => wfReq req && wfReg reg && wfPort port && wfCls cls
  | .gclCommit req port => wfReq req && wfPort port
  | .gclStop req port => wfReq req && wfPort port
  | .gclSwap port => wfPort port
  | .gclEntryExpiry port => wfPort port
  | .bastCircCfgWrite req circ _ => wfReq req && wfCirc circ
  | .relockDone circ => wfCirc circ
  | .lossOfLock circ => wfCirc circ
  | .lockReturn circ => wfCirc circ
  | .bastRxCfgWrite req rx _ => wfReq req && wfRx rx
  | .tackWordReceive rx _ => wfRx rx
  | .tackRxAlign rx => wfRx rx
  | .tackRxAlignLoss rx => wfRx rx
  | .bobbinGrant => true
  | .ringRefillDone spool _ => wfSpool spool
  | .memPanelQuotaWrite req panel _ => wfReq req && wfPanel panel
  | .apertureRead req addr => wfReq req && wfAddr req addr
  | .apertureWrite req addr _ => wfReq req && wfAddr req addr
  | .scrubRead _ _ => true
  | .scrubPeriodExpiry => true
  | .segmentTransmit sess => wfSess sess
  | .dataSegment _ => true
  | .spanChunkDeliver sess => wfSess sess
  | .ackSegment _ => true
  | .ackTimerExpiry sess => wfSess sess
  | .rtxTimerExpiry sess _ => wfSess sess
  | .stallTimeout sess => wfSess sess
  | .packHoldExpiry sess => wfSess sess
  | .openSegment _ => true
  | .openAck _ => true
  | .closeSegment _ => true
  | .openRepeat sess => wfSess sess
  | .closeRepeat sess => wfSess sess
  | .sessionAdmit => true
  | .sessOpen req sess => wfReq req && wfSess sess
  | .sessClose req sess => wfReq req && wfSess sess
  | .selvSessCfgWrite req sess _ => wfReq req && wfSess sess
  | .twinCopyStart => true
  | .twinRecords _ _ => true
  | .twinCommit _ _ _ => true
  | .commitAck _ => true
  | .twinAutoTakeover => true
  | .takeover req => wfReq req
  | .lineFrameReceive ch _ => wfCh ch
  | .lineFrameTransmit group phase => wfLineGroup group && wfPhase phase
  | .controlCellReceive ch _ _ => wfCh ch
  | .cmCommit req group => wfReq req && wfLineGroup group
  | .cmClear req group => wfReq req && wfLineGroup group
  | .cmCheckDone group => wfLineGroup group
  | .memberAdd req ch => wfReq req && wfCh ch
  | .memberRemove req ch => wfReq req && wfCh ch
  | .lineChCfgWrite req ch _ => wfReq req && wfCh ch
  | .lineGrpCfgWrite req group _ => wfReq req && wfLineGroup group
  | .wtrExpiry group => wfLineGroup group
  | .optBandWrite req die _ => wfReq req && wfDie die
  | .refit req die => wfReq req && wfDie die
  | .fitCombLock die _ => wfDie die
  | .fitCombTimeout die => wfDie die
  | .fitSweepDone die _ => wfDie die
  | .fitDone die _ => wfDie die
  | .tuningPeriod die bias _ _ => wfDie die && wfBias bias
  | .ringLockLoss ch _ => wfCh ch
  | .rxLock ch => wfCh ch
  | .optChCtrlWrite req ch _ => wfReq req && wfCh ch
  | .launchRampDone ch => wfCh ch
  | .losSet ch _ _ => wfCh ch
  | .losCleared ch _ => wfCh ch
  | .optChLosThrWrite req ch _ => wfReq req && wfCh ch
  | .calCommand req ch => wfReq req && wfCh ch
  | .calPeriodExpiry ch => wfCh ch
  | .calStart die => wfDie die
  | .calForced ch => wfCh ch
  | .calPatternEnd ch => wfCh ch
  | .keySwitch req sess => wfReq req && wfSess sess
  | .clearRetired req sess => wfReq req && wfSess sess
  | .kldGo req group => wfReq req && wfKeyGroup group
  | .keyLoadComplete group _ => wfKeyGroup group
  | .ppsEdge phase => wfPhase phase
  | .todMessage _ => true
  | .ptpSync _ => true
  | .followUp port _ _ _ _ => wfPort port
  | .delayReq port _ _ _ phase => wfPort port && wfPhase phase
  | .delayResp port _ _ _ => wfPort port
  | .announce port _ _ => wfPort port
  | .ptpUnsupported port => wfPort port
  | .ptpSyncSend port phase => wfPort port && wfPhase phase
  | .refLost => true
  | .restep req => wfReq req
  | .timeCfgWrite req _ => wfReq req
  | .lineTimeAverage group => wfLineGroup group
  | .ctxWatchdogExpiry ctx => wfCtx ctx
  | .engineResetDone eng => wfEng eng
  | .trialTimeout eng => wfEng eng
  | .portStall port cls => wfPort port && wfCls cls
  | .txHang port => wfPort port
  | .ctlWdog => true
  | .devRecover req => wfReq req
  | .deviceRecoveryDone => true
  | .unfence req eng _ => wfReq req && wfEng eng
  | .domRecover req dom => wfReq req && wfDom dom
  | .domainOff req dom => wfReq req && wfDom dom
  | .domainOn req dom => wfReq req && wfDom dom
  | .drainTimeout dom => wfDom dom
  | .domainOnDone dom => wfDom dom
  | .swatchLogCopy _ _ => true
  | .obsRefresh => true
  | .satPeriodExpiry => true
  | .dbgPnlObsWrite req panel _ => wfReq req && wfPanel panel
  | .engTest req eng => wfReq req && wfEng eng
  | .bistExtended req => wfReq req
  | .bistDone _ => true
  | .thermAlertAssert die _ => wfSensorDie die
  | .thermAlertRelease _ => true
  | .vmonWarn rail mv => wfRail rail && wfMv mv
  | .serdesRefLoss die => wfDie die
  | .pfcPauseExpiry port cls => wfPort port && wfCls cls
  | .serdesRefReturn die => wfDie die
  | .perstNRelease => true
  | .delayReqSend port phase => wfPort port && wfPhase phase
  | .raiseMinverDone _ => true

end Sys2Proof
end

