-- ==== Sys2Proof/Tests/Slice0.lean ====
section
/-! SUPPORT. The model's own tests: states on which what each statement asks is met, ill-formed commands refused, worked examples of the spec. -/

set_option maxRecDepth 4000
set_option Elab.async false
set_option linter.unusedVariables false

open Sys2Proof Sys2Proof.Machine
namespace Sys2Proof.Machine

/-- A gateway that runs: start-up has ended, the link is up, every domain is on. -/
def up : State :=
  { State.reset with
    boot := { Boot.reset with porst := false, strap := 0x10, stage := 7 },
    pwr := (List.range 24).map (fun d => (d, ⟨.on, 0, false, none⟩)) }

/-- The same, at a stage of start-up. -/
def upAt (n : BitVec 4) : State := { up with boot := { up.boot with stage := n } }

/-- The bytes of a smallest image that is accepted: FIRMWARE of no bytes, MEMLAYOUT of zeros and SPOOLS. -/
def imgBytes : List Byte :=
  let lay := List.replicate 68 (0 : Byte)
  let spl := [393232, 196624, 78660, 23147, 64, 64].flatMap (fun n => leBytes 4 n ++ leBytes 4 16)
  let entry := fun (typ off len : Nat) (bs : List Byte) =>
    leBytes 2 typ ++ leBytes 2 0 ++ leBytes 4 off ++ leBytes 4 len ++ leBytes 4 (crc32c bs).toNat ++ List.replicate 16 0
  leBytes 4 0x50545A56 ++ leBytes 2 1 ++ leBytes 2 256 ++ leBytes 4 7795 ++ leBytes 4 3 ++ leBytes 4 9 ++ leBytes 2 0x72 ++ leBytes 2 0x3E ++
    leBytes 4 256 ++ leBytes 4 576 ++ leBytes 4 3168 ++ List.replicate 220 0 ++ entry 1 384 0 [] ++ entry 3 384 68 lay ++ entry 4 512 48 spl ++
    List.replicate 32 0 ++ lay ++ List.replicate 60 0 ++ spl

/-- A gateway whose flash holds that image in slot A, about to check it. -/
def withImage : State := { upAt 3 with flash := { Flash.reset with cells := (imgBytes.zipIdx).map (fun e => (e.2, e.1)) } }

theorem up_canon : Canon up := by constructor <;> decide
/-- An invocation that has just started. -/
def inv0 : Inv :=
  { num := 0, done := true, ctx := 0, bolt := 0, index := 0, pc := 0, v := [], loops := [], out := emptyStream, bobbin := none, bobWait := false,
    pend := [], plt := 0, resid := [], emits := [], flags := 0, stall := false, held := false }

/-- A gateway with two fabric ports of panel 0 that carry frames, room for their frames, and an entry that sends MAC 0 to port 1. -/
def sw : State :=
  let s := regSet (regSet (regSet up .FPORT_CTRL 0 0x80000000) .FPORT_CTRL 1 0x80000000) .SW_LIMIT 0 400
  { s with fab := { s.fab with
      ports := [(0, { FabPort.reset with link := true, fecLock := true }), (1, { FabPort.reset with link := true, fecLock := true })],
      fdb := [(0, some 1)] } }

/-- A frame of 60 bytes of zero that arrives on port 0. -/
def rxZeros : RxFrame := { port := 0, data := List.replicate 60 0, fcsOk := true, fecCorr := 0, fecUncorr := 0, toGateway := false }

/-- The same with that frame waiting for port 1. -/
def swHeld : State := { sw with fab := { sw.fab with frames := [⟨0, 0, [1], List.replicate 60 0, false, 0, none, 1, none, none⟩] } }

/-- Session 3 of panel 0 takes the frames of port number 0x105, and is open; such a frame waits. -/
def swSess : State :=
  let s := regSet sw .SELV_SESS_CFG 3 0x82000005
  { s with
    mem := { s.mem with rtxGiB := 1 }
    selv := { s.selv with sess := [(3, { SelvSess.reset with state := .open })] }
    fab := { s.fab with frames := [⟨0, 0, [261], List.replicate 60 0, false, 0, none, 1, none, none⟩] } }

/-- The time base has locked; on port 1 a gate list of two entries runs, and another is accepted. -/
def swGates : State :=
  let g : Gates := ⟨[0x3F000032, 0x01000032], 800, 0, 0, true, some ([0x3F000064], 800, 900), false, 0⟩
  let x : FabPort := { FabPort.reset with link := true, fecLock := true, gates := g }
  { sw with
    time := { sw.time with everLocked := true }
    fab := { sw.fab with ports := [(1, x)] } }

theorem tabGet_replicate_other {α : Type} (d v : α) (n k : Nat) {i : Nat} (h : i ≠ k) : tabGet d (List.replicate n (k, v)) i = d := by
  induction n with
  | zero => rfl
  | succ n ih => simp only [List.replicate_succ, tabGet]; rw [if_neg h]; exact ih

/-- Collective 77 of panel 0, its epoch 0 open, a gateway with a parent at address 5. -/
def coll0 : Coll :=
  { panel := 0, id := 77, firstEpoch := 0, chunkElems := 256, bucketChunks := 4, role := 1, cw := 2, tc := 1, holdOnMiss := false,
    parentIp := 5, parentPort := 0, upRank := 0, rmapAddr := 0, nrmap := 1, drecAddr := 0, ndrec := 1, ctx := [(0, 1)], span := none, subs := [],
    gens := [], epochs := [⟨0, .open, [], false, [], [], [], 0, [], [], false, false, false⟩], nextEpoch := 1, aborted := [], credit := (0, 0),
    parentCredit := none, parentGen := 0, resumed := [], up := [], results := [], retiring := false, stopped := false, paused := false, stoppedEpochs := [], ledgers := [],
    bank := 0, lastEpoch := 0 }

/-- The same as a site root of a span of two sites. -/
def collSpan : Coll :=
  { coll0 with span := some { sessBase := 0, nsites := 2, siteIdx := 0, fmt := 0, resFp32 := false, banks := 2, spw := 0, remClear := false, remAddr := 0 } }

/-- Tack receiver 3 is aligned, and the collective is open. -/
def rxUp : State :=
  let s := tackRxSet (regSet up .BAST_RX_CFG 3 0x80000000) 3 ⟨true, true, []⟩
  { s with cco := { s.cco with colls := [coll0] } }

/-- Channel 0 is the work channel of line group 0, and the span's collective is open. -/
def lineUp : State :=
  let s := regSet (regSet up .LINE_CH_CFG 0 0x80000000) .LINE_GRP_PROT 0 0x00000100
  { s with cco := { s.cco with colls := [collSpan] } }

/-- A DATA segment of session 3. -/
def dseg (slot : Nat) : DataSeg := ⟨0, 0, 0, 0, 0, 0, 1, [], List.replicate 64 0, slot, none, false⟩

/-- FRAME session 3 of panel 0 with a key, a line and free slots, whose fields are given. -/
def selUp (x : SelvSess) : State :=
  let s := regSet (regSet (regSet (regSet (regSet (regSet up .SELV_SESS_CFG 3 0x82000005) .LINE_CH_CFG 0 0x80000000) .SELV_SESS_WIN 3 16) .SELV_SESS_PEER 3 9)
    .SELV_SESS_STALL 3 0x00080000) .SELV_ACK_CFG 0 0x00080000
  let g : LineGrp := { LineGrp.reset with txActive := 1, txPage := [(0, 0x80000003)] }
  let q : KeySlot := { keySlotReset with state := .valid, key := 7 }
  { s with mem := { s.mem with rtxGiB := 1 }, selv := { s.selv with sess := [(3, x)] }, thm := { s.thm with slots := [(6, q)] }, line := { s.line with grps := [(0, g)] } }

/-- The header of a segment for session 3 of `selUp`, with the given type, SEQ and payload length. -/
def rxHdr (typ : Nat) (seq : Word) (n : Nat) : SegHdr :=
  { typ := typ, kind := 1, rtx := false, dst := 3, src := 9, gen := 0, seq := seq, txc := 0, cumAck := 0, rwndEnd := 0, plen := n, part := 0, npart := 1,
    fmt := 0, coll := 0, epoch := 0, firstChunk := 0, present := 0, cflags := [], resvOk := true }

/-- A segment of a header, which session 3 of `selUp` receives under its key. -/
def rxOf (h : SegHdr) (payload : List Byte) : RxSegment :=
  { head := segBytes h, payload := payload, cells := segCells payload.length, key := 7, salt := 0, tagOk := true }

/-- One with the given type, SEQ and payload. -/
def rxSeg (typ : Nat) (seq : Word) (payload : List Byte) : RxSegment := rxOf (rxHdr typ seq payload.length) payload

/-- The overhead of a frame with nothing in it. -/
def rxOh : LineOh :=
  { mfas := 1, fver := 1, mode := 0, gid := 0, mfc := 0, mid := 0, mstate := 0, txActive := 1, activeNext := 1, rdi := 0, rxOk := 1, ctlch := false,
    side := false, cmTxGen := 0, cmNextGen := 0, cmRxRdy := 4, txTime := 0, rxTime := 0, echoMfc := 0, echoMfas := 0, tti := [], slots := [] }

/-- A frame of an overhead as it arrives, with nothing in its slots. -/
def rxOhFrame (h : LineOh) : RxLineFrame := { fecCorr := 2, fecUncorr := 0, phase := 0, head := lineScramble (ohBytes h), slots := [] }

/-- One of `rxOh`, with the right FAS or with none. -/
def rxFrame (fas : Bool) : RxLineFrame := if fas then rxOhFrame rxOh else { rxOhFrame rxOh with head := [] }

/-- Line group 0 runs, its channel 0 is lit. -/
def lineLit : State :=
  let s := regSet lineUp .LINE_GRP_CFG 0 0x80000000
  { s with opt := { s.opt with chs := [(0, { OptCh.reset with light := .lit })] } }

/-- Line group 2 checks standby pages of zeros under generation 1. -/
def cmGood : State :=
  regSet (regSet (lineGrpSet up 2 { LineGrp.reset with checking := true }) .LINE_GRP_CM_SBGEN 2 1) .LINE_GRP_CM_SBCRC 2 0x23CFF348

theorem crc_512 (c d : Nat) (h : (List.replicate 512 (0 : Byte)).foldl crc32cByte c = d) (n : Nat) :
    (List.replicate (512 + n) (0 : Byte)).foldl crc32cByte c = (List.replicate n (0 : Byte)).foldl crc32cByte d := by
  rw [← List.replicate_append_replicate, List.foldl_append, h]

theorem crc_5120 : (List.replicate 5120 (0 : Byte)).foldl crc32cByte 0xFFFFFFFF = 3366762805 := by
  show (List.replicate (512 + (512 + (512 + (512 + (512 + (512 + (512 + (512 + (512 + 512))))))))) (0 : Byte)).foldl crc32cByte _ = _
  rw [crc_512 4294967295 3473084991 (by decide +kernel),
    crc_512 3473084991 290529667 (by decide +kernel),
    crc_512 290529667 175100626 (by decide +kernel),
    crc_512 175100626 1534491824 (by decide +kernel),
    crc_512 1534491824 1307576961 (by decide +kernel),
    crc_512 1307576961 3746741852 (by decide +kernel),
    crc_512 3746741852 4151263722 (by decide +kernel),
    crc_512 4151263722 1728495222 (by decide +kernel),
    crc_512 1728495222 3996248826 (by decide +kernel)]
  decide +kernel

theorem cmGood_page (r : Rid) (h : r = .LINE_CM_TX_SB ∨ r = .LINE_CM_RX_SB) : cmPageBytes cmGood r 2 = List.replicate 2560 0 := by
  have z : ∀ i, regGet cmGood r i = 0 := by
    intro i
    unfold regGet
    rcases h with rfl | rfl
    · rw [show tabGet [] cmGood.regs (ridNum .LINE_CM_TX_SB) = [] from by decide +kernel]; rfl
    · rw [show tabGet [] cmGood.regs (ridNum .LINE_CM_RX_SB) = [] from by decide +kernel]; rfl
  unfold cmPageBytes
  simp only [z]
  rw [show wordBytes 0 = List.replicate 4 0 from by decide]
  have f : ∀ l : List Nat, l.flatMap (fun _ => List.replicate 4 (0 : Byte)) = List.replicate (4 * l.length) 0 := by
    intro l
    induction l with
    | nil => rfl
    | cons a l ih => rw [List.flatMap_cons, ih, List.replicate_append_replicate, List.length_cons]; congr 1; omega
  rw [f, List.length_range]

theorem cmErr_zero (s : State) (g : Nat)
    (h1 : crc32c (cmPageBytes s .LINE_CM_TX_SB g ++ cmPageBytes s .LINE_CM_RX_SB g ++ wordBytes (regGet s .LINE_GRP_CM_SBGEN g)) = regGet s .LINE_GRP_CM_SBCRC g)
    (h2 : cmEntries s .LINE_CM_TX_SB g = []) (h3 : cmEntries s .LINE_CM_RX_SB g = []) (h4 : grpConcat s g = false)
    (h5 : bf (regGet s .LINE_GRP_CM_SBGEN g) 15 0 ≠ 0) : cmErr s g = 0 := by
  unfold cmErr
  dsimp only
  rw [h1]
  simp [h2, h3, h4, h5]

theorem cmErr_gen0 (s : State) (g : Nat) (h : bf (regGet s .LINE_GRP_CM_SBGEN g) 15 0 = 0) : cmErr s g ≠ 0 := by
  unfold cmErr
  dsimp only
  rw [if_pos h]
  split <;> (try decide)
  split <;> (try decide)
  split <;> (try decide)
  split <;> (try decide)
  split <;> (try decide)
  split <;> decide

theorem crc_append (a b : List Byte) : crc32c (a ++ b) = BitVec.ofNat 32 (Nat.xor (b.foldl crc32cByte (a.foldl crc32cByte 0xFFFFFFFF)) 0xFFFFFFFF) := by
  unfold crc32c; rw [List.foldl_append]

theorem cmGood_crc : crc32c (List.replicate 2560 0 ++ List.replicate 2560 0 ++ wordBytes 1) = 0x23CFF348 := by
  rw [List.replicate_append_replicate, crc_append]
  have : List.foldl crc32cByte 0xFFFFFFFF (List.replicate (2560 + 2560) 0) = 3366762805 := crc_5120
  rw [this]
  decide +kernel

theorem cmGood_err : cmErr cmGood 2 = 0 := by
  apply cmErr_zero
  · rw [cmGood_page _ (.inl rfl), cmGood_page _ (.inr rfl), show regGet cmGood .LINE_GRP_CM_SBGEN 2 = 1 from by decide +kernel,
      show regGet cmGood .LINE_GRP_CM_SBCRC 2 = 0x23CFF348 from by decide +kernel]
    exact cmGood_crc
  all_goals decide +kernel

/-- A gateway with die 0 in the given fitting state and channel 2 of it as given. -/
def optUp (f : FitState) (x : OptCh) : State :=
  { up with opt := { up.opt with dies := [(0, { OptDie.reset with fit := f })], chs := [(2, x)] } }

/-- Key slot 6 of session 3 is active, slot 7 holds what is given. -/
def keyUp (x : KeySlot) : State :=
  let s := regSet up .SELV_SESS_CFG 3 0x80000000
  { s with thm := { s.thm with slots := [(6, { keySlotReset with state := .valid, key := 7 }), (7, x)] } }

/-- Group 0 has a KEK and a load in progress. -/
def kldUp : State :=
  let g : KeyGroup := { keyGroup State.reset 0 with kek := some 1, busy := true }
  let s := keyUp { keySlotReset with state := .valid }
  { s with thm := { s.thm with groups := [(0, g)] } }

/-- A plaintext load for slot 7 of session 3: key of zeros, salts 1 and 2, sequence 1. -/
def kldPlain : List Byte := List.replicate 32 0 ++ [0, 0, 0, 1, 0, 0, 0, 2, 0, 3, 1, 0, 0, 0, 0, 1]

/-- A gateway whose time base is in the given mode with PTP on port 0 as its reference. -/
def ptpUp (m : TimeMode) : State :=
  let s := regSet (regSet (regSet up .TIME_CFG 0 0x00000002) .TIME_PORT_CFG 0 1) .TIME_PORT_CFG 1 1
  { s with time := { s.time with mode := m } }

/-- Engine 0 is in the given state with the given suspects, and an invocation of its context 5 runs. -/
def engUp (x : EngState) (l : List Nat) : State :=
  let i : Inv := { inv0 with ctx := 5 }
  let e : Engine := ⟨x, [], [], [7], l, none, [], [], 0⟩
  let q : StageSlot := { slotReset with run := some i }
  { up with seam := { up.seam with engines := [(0, e)], slots := [(0, q)] } }

/-- The same with context 5 under trial. -/
def engTrial (x : EngState) : State :=
  let e : Engine := ⟨x, [], [], [7], [], some 5, [], [], 0⟩
  { up with seam := { up.seam with engines := [(0, e)] } }

/-- A flash with a log, and one swatch written. -/
def upLog : State := { up with flash := { up.flash with sizeMiB := 65 }, health := { up.health with swatchSeq := 1 } }

/-- A chunk of two elements, open on context 0. -/
def stBolt : Bolt :=
  { panel := 0, coll := 77, stage := 0, epoch := 0, chunk := 0, state := .open, ctx := 0, elems := 2, fixed := false, want := [0, 1], mode := 0, fmt := 0, gen := 0,
    arith := 0, cb := 0, acc := [⟨0, 0, none⟩, ⟨0, 0, none⟩], flags := 0, msgs := [], counted := [], firstUs := 0, rounds := 0, lastIdx := 0,
    lastUs := 0, prevUs := 0, chalk := 0, done := false, age := 0 }

/-- An invocation of slot 0 is at the stitch of the given word. -/
def stUpB (w : Dword) (x : Inv) (b : Bolt) : State :=
  let q : StageSlot := { slotReset with run := some x, active := ⟨[(0, w)], 0, 0⟩ }
  let s := regSet up .SEAM_CTX_BIND 0 0x80000001
  { s with
    seam := { up.seam with slots := [(0, q)], bolts := [(0, some b)] }
    cco := { up.cco with colls := [coll0] } }

/-- The same on that chunk. -/
def stUp (w : Dword) (x : Inv) : State := stUpB w x stBolt

/-- What it works on. -/
def stEnv (w : Dword) (x : Inv) : Env := ⟨0, x, 0, stBolt, stitchOf w⟩

/-- An ARRIVE invocation, and the chunk with its contribution of two FP32 elements. -/
def stArr : Inv := { inv0 with done := false }
def stMsg : Msg :=
  { index := 0, rank := 0, ip := 0, port := 0, fmt := 0, elems := 2, hasIdx := false, standin := false, flags := 0, frags := [],
    data := ⟨0, [0x3F800000, 0x40000000], [], [], []⟩, decode := 0, dbob := none, handles := [], cells := 0, charges := [], whole := true, taken := true, parked := false, age := 0, us := 0 }
def stBoltM : Bolt := { stBolt with msgs := [stMsg] }

/-- Slot 0 of engine 0 checks a standby page of one END and zeros, with the CRC given. -/
def slotUp (crc : Word) : State :=
  let q : StageSlot := { slotReset with checking := true }
  slotSet (regSet (regSet up .SEAM_SLOT_SBCRC 0 crc) .SEAM_SB_PAGE 1 0x04000000) 0 q

theorem slotUp_crc (crc : Word) (h : standbyPage (slotUp crc) 0 = [(0, 0x0400000000000000)]) :
    crc32c (pageBytes (standbyPage (slotUp crc) 0) 0) = 0x2C660AD1 := by
  have z : ∀ (l : List Nat), (∀ i ∈ l, i ≠ 0) →
      l.flatMap (fun i => leBytes 8 (tabGet (0 : Dword) [(0, 0x0400000000000000)] i).toNat) = List.replicate (8 * l.length) 0 := by
    intro l
    induction l with
    | nil => intro _; rfl
    | cons a l ih =>
      intro h
      rw [List.flatMap_cons, ih (fun i hi => h i (by simp [hi])), show tabGet (0 : Dword) [(0, 0x0400000000000000)] a = 0 from by
        simp [tabGet, h a (by simp)]]
      rw [show leBytes 8 (0 : Dword).toNat = List.replicate 8 0 from by decide, List.replicate_append_replicate, List.length_cons, Nat.add_comm 8, ← Nat.mul_succ]
  have r : List.range 256 = 0 :: (List.range 255).map (· + 1) := by
    rw [show (256 : Nat) = 255 + 1 from rfl, List.range_succ_eq_map]
  rw [h]
  unfold pageBytes
  rw [r, List.flatMap_cons, z _ (by intro i hi; simp at hi; omega), List.length_map, List.length_range]
  rw [show wordBytes 0 = List.replicate 4 0 from by decide, List.append_assoc, List.replicate_append_replicate, crc_append]
  rw [show (leBytes 8 (tabGet (0 : Dword) [(0, 0x0400000000000000)] 0).toNat).foldl crc32cByte 0xFFFFFFFF = 3025001066 from by decide +kernel]
  rw [show 8 * 255 + 4 = 511 + (511 + (511 + 511)) from rfl]
  have c : ∀ (n c d m : Nat), (List.replicate n (0 : Byte)).foldl crc32cByte c = d →
      (List.replicate (n + m) (0 : Byte)).foldl crc32cByte c = (List.replicate m (0 : Byte)).foldl crc32cByte d := by
    intro n c d m h
    rw [← List.replicate_append_replicate, List.foldl_append, h]
  rw [c 511 3025001066 1231008574 _ (by decide +kernel), c 511 1231008574 3435767460 _ (by decide +kernel),
    c 511 3435767460 937818615 _ (by decide +kernel)]
  decide +kernel

theorem slotUp_verdict (crc : Word) (h : standbyPage (slotUp crc) 0 = [(0, 0x0400000000000000)])
    (hc : regGet (slotUp crc) .SEAM_SLOT_SBCFG 0 = 0) (hr : regGet (slotUp crc) .SEAM_SLOT_SBCRC 0 = crc) :
    slotVerdict (slotUp crc) 0 = if (0x2C660AD1 : Word) ≠ crc then (1, 0) else checkPage [(0, 0x0400000000000000)] 0 := by
  unfold slotVerdict
  dsimp only
  rw [hc, slotUp_crc crc h, hr, h]

theorem slotUp_taken : slotVerdict (slotUp 0x2C660AD1) 0 = (0, 0) := by
  rw [slotUp_verdict _ (by decide +kernel) (by decide +kernel) (by decide +kernel)]
  decide +kernel

theorem slotUp_refused : slotVerdict (slotUp 0) 0 = (1, 0) := by
  rw [slotUp_verdict _ (by decide +kernel) (by decide +kernel) (by decide +kernel)]
  decide +kernel

/-- Context 0 runs the Level 2 stage of a collective, and a stream of context 16 is on its way to it. -/
def ringUp : State :=
  let c : Coll := { coll0 with ctx := [(1, 0)] }
  let s := stUpB 0 inv0 { stBolt with stage := 1 }
  { s with
    cco := { s.cco with colls := [c] }
    mem := { s.mem with cells := [(3, 0x42)] }
    seam := { s.seam with ring := [⟨0, 77, 0, 0, 0, 16, 0, 0, ⟨some 0, [1, 2], [], [], [], []⟩, 0, 0⟩] } }

/-- Context 0 has a scratch area and is not bound; SEAM_SP_ADDR of engine 0 names its word 3. -/
def spUp : State := regSet (regSet up .SEAM_CTX_BIND 0 1) .SEAM_SP_ADDR 0 0x0000000C

/-- A datagram of the header and payload given, from address 9 on port 0. -/
def dg (h : ScpHdr) (payload : List Byte) : Datagram :=
  { port := 0, srcIp := 9, srcPort := 0, dstPort := 0xB810, hdrs := 3, off := 42, lenOk := true, udpLen := 72 + payload.length, udpCkOk := true,
    frame := List.replicate 42 0 ++ scpBytes { h with plen := payload.length } payload }

/-- A header for epoch 0 of collective 77 from its parent. -/
def dgHead (opc : Nat) : ScpHdr := { scpBlank with opc := opc, coll := 77, rank := rankNone }

/-- A collective whose parent is at address 9. -/
def collUp : Coll := { coll0 with credit := (0, 1), parentIp := 9, upRank := 8 }

/-- One whose contributors are at address 9, ranks 3 and 4. -/
def collDown : Coll := { coll0 with credit := (0, 1), nrmap := 2 }

/-- A gateway with a fabric port that carries, that collective, an open chunk of it, and its rank map. -/
def scpUp (c : Coll) : State :=
  let b : Bolt := { stBolt with want := [0, 1] }
  { sw with
    cco := { sw.cco with colls := [c] }
    mem := { sw.mem with cells := [(0, 3), (19, 9), (32, 4), (51, 9)] }
    seam := { sw.seam with bolts := [(0, some b)] } }

/-- The physical function's command window names a descriptor at the start of the panel area, of which the bytes are given; a collective is open. -/
def ccoUp (b : List Byte) (c : Coll) : State :=
  let s := regSet up .CCO_CMD_ADDR_HI 16 2
  { s with
    cco := { s.cco with colls := [c] }
    mem := { s.mem with cells := tabSetList hbmBlank [] 0x200000000 b } }

/-- A 16-byte descriptor for collective 77: epoch 0, rank 3, index given. -/
def ccoDesc (i : Nat) : List Byte := [77, 0, 0, 0, 0, 0, 0, 0, 0, 0, 3, 0, 0] ++ leBytes 2 i ++ [0]

/-- A command in progress in that window. -/
def ccoBusy : State := cmdSet up 16 ⟨true, none, 0, 0⟩

/-- The collective opens on context 0, its rank map at 0: rank 3 and a spare of its group. -/
def openDesc : List Byte :=
  leBytes 4 77 ++ List.replicate 6 0 ++ leBytes 2 256 ++ leBytes 4 4 ++ [1, 2, 1, 0] ++ List.replicate 28 0 ++ leBytes 8 0x200001000 ++ leBytes 2 2 ++
    List.replicate 18 0 ++ leBytes 2 0 ++ (List.replicate 15 [0x00, 0xC0]).flatten ++ List.replicate 20 0

def openUp : State :=
  let s := regSet (ccoUp openDesc coll0) .SEAM_CTX_BIND 0 0x80000000
  { s with cco := { s.cco with colls := [] } }

/-- Delivery queue pair 5 of that collective with one write of two packets outstanding. -/
def qpW (r : Nat) : RdmaWr := ⟨0, 77, 0, 0, 0, 10, 11, 0x40, [1, 2, 3, 4], false, r, 0, 1, 0⟩
def qpUp (r : Nat) : State :=
  let q : Qp := ⟨0, 77, 0, 9, 3, 3, 0, 0, 0, 0, 7, 7, 8, 12, false, [qpW r]⟩
  let s := scpUp coll0
  { s with cco := { s.cco with qps := [(5, some q)], cells := [(1, some ⟨1, 2, none⟩)] } }

/-- A SPAN segment of one chunk of two FP32 values. -/
def spanSeg : StoredSeg :=
  { seq := SelvSess.reset.rcvNxt, payload := [0, 0, 128, 63, 0, 0, 0, 64],
    hdr := { typ := 0, kind := 0, rtx := false, dst := 1, src := 1, gen := 0, seq := SelvSess.reset.rcvNxt, txc := 0, cumAck := 0, rwndEnd := 0, plen := 8, part := 0,
             npart := 1, fmt := 0, coll := 77, epoch := 0, firstChunk := 0, present := 1, cflags := [0], resvOk := true } }

/-- Session 1 has received it for the collective given, whose Level 3 chunk is open. -/
def spanUp (c : Coll) : State :=
  let s := regSet up .SELV_SESS_CFG 1 0x80000000
  let x : SelvSess := { SelvSess.reset with state := .open, store := [spanSeg] }
  let b : Bolt := { stBolt with stage := 2, want := [1] }
  { s with
    selv := { s.selv with sess := [(1, x)] }
    cco := { s.cco with colls := [c] }
    seam := { s.seam with bolts := [(0, some b)] } }

/-- A LOAD of codebook slot 1 with the image given is in progress. -/
def pltUp (img : List Byte) : State := { up with plt := { up.plt with busy := true, op := 1, slot := 1, dim := 0, image := some img } }

/-- The same slot is being cleared. -/
def pltClr : State :=
  let c : Codebook := ⟨.valid, 3, 0, 0, []⟩
  { up with plt := { up.plt with busy := true, op := 2, slot := 1, cbs := [(1, c)] } }

/-- A LOAD of a descriptor at the start of the panel area, whose image of dimension 2 is all zeros. -/
def pltLd : State :=
  let s := regSet up .PLT_CMD_ADDR_HI 0 2
  { s with mem := { s.mem with cells := tabSetList hbmBlank [] 0x200000000 [0, 0x10, 0, 0, 2] } }

/-- An invocation of slot 0 waits for the block of the oldest encode request. -/
def encUp : State :=
  let x : Inv := { inv0 with pend := [3], plt := 1, out := ⟨some 10, [], [], [], [none], []⟩ }
  let s := stUp 0 x
  { s with plt := { s.plt with enc := [⟨0, 0, 0, 0, false, 3, 0, [], false, none, 0⟩] } }

/-- A decoder works on a zero block of the contribution of index 0, whose decoded values go to a bobbin if one is bound. -/
def decMsg (h : Option Word) : Msg :=
  { stMsg with fmt := 10, elems := 256, decode := 1, dbob := h, data := ⟨10, List.replicate 256 0, [], [], []⟩ }
def decUp (h : Option Word) : State :=
  let s := stUpB 0 inv0 { stBolt with msgs := [decMsg h] }
  spoolSet { s with plt := { s.plt with dec := [⟨0, 0, 0, 0, 0, [0, 1]⟩] } } 4 { spoolInit 64 16 with taken := [0] }

/-- A frame over IPv4 to the SCP port. -/
def scpZeros : List Byte :=
  List.replicate 12 0 ++ [8, 0, 0x45] ++ List.replicate 8 0 ++ [17] ++ List.replicate 12 0 ++ [0xB8, 0x10] ++ List.replicate 22 0
/-- A frame that waits for port 1 under a handle that names no bobbin. -/
def swBad : State :=
  { sw with fab := { sw.fab with frames := [⟨0, 0, [1], List.replicate 60 0, false, 0, some 0x40000001, 1, none, none⟩] } }
/-- Context 5 of engine 0 is under trial, and an invocation of it runs. -/
def engTried : State :=
  let e : Engine := ⟨.trial, [], [], [7], [], some 5, [], [], 0⟩
  { engUp .trial [] with seam := { (engUp .trial []).seam with engines := [(0, e)] } }
/-- A contribution in XP20. -/
def stMsgX : Msg := { stMsg with fmt := 8, data := ⟨8, [], [], [], []⟩ }
def stBoltX : Bolt := { stBolt with msgs := [stMsgX] }
/-- The collective of a span whose residuals are BF16. -/
def collRes : Coll :=
  { coll0 with span := some { sessBase := 0, nsites := 2, siteIdx := 0, fmt := 1, resFp32 := false, banks := 2, spw := 0, remClear := false, remAddr := 0x1000 } }
/-- A collective with chunks of two elements, and its gateway with the bolt given. -/
def collTwo : Coll := { collDown with chunkElems := 2 }
def ctbUp (b : Bolt) : State := let s := scpUp collTwo; { s with seam := { s.seam with bolts := [(0, some b)] } }
/-- The chunk of two contributors. -/
def ctbBolt : Bolt := { stBolt with want := [0, 1] }
/-- A whole CONTRIB of rank 3 to it. -/
def ctbHead : ScpHdr := { dgHead 1 with rank := 3, ncontrib := 2, elems := 2, nelem := 2 }
def ctb : Datagram := dg ctbHead [0, 0, 128, 63, 0, 0, 0, 64]
/-- The first half of it, held. -/
def ctbHalf : Msg := { stMsg with whole := false, taken := false, data := ⟨0, [], [], [], []⟩, frags := [⟨0, 1, 0, [0, 0, 128, 63]⟩] }
/-- The same collective below a parent at address 9, and a RESULT of its chunk. -/
def collTop : Coll := { collUp with chunkElems := 2 }
def resHead : ScpHdr := { dgHead 2 with crcEn := true, elems := 2, nelem := 2 }
def res : Datagram := dg resHead [0, 0, 128, 63, 0, 0, 0, 64]
/-- Epoch 0, open. -/
def ep0 : Epoch := ⟨0, .open, [], false, [], [], [], 0, [], [], false, false, false⟩
end Sys2Proof.Machine

/-- The error of a check that has one. -/
theorem Sys2Proof.Machine.err_of {α : Type} (x : Except Nat α) (e : Nat) (h : (match x with | .error y => y == e | .ok _ => false) = true) : x = .error e := by
  cases x <;> simp_all

/-- A handle that passes its checks may be used at any offset within its bobbin. -/
theorem Sys2Proof.Machine.usable (s : State) (h : Word) (n : Nat) (hk : bf h 31 28 ≤ 5) (hc : bf h 27 0 < (spoolGet s (bf h 31 28)).count)
    (hn : n ≤ spoolWindow (bf h 31 28)) (ht : (spoolGet s (bf h 31 28)).taken.contains (bf h 27 0) = true) :
    ∀ off, off < n → off % 64 = 0 → handleCheck s h off = 0 := by
  intro off h1 h2
  have hw : ¬ spoolWindow (bf h 31 28) ≤ off := by omega
  have hi : ¬ (spoolGet s (bf h 31 28)).count ≤ bf h 27 0 := by omega
  have h5 : ¬ 5 < bf h 31 28 := by omega
  simp [handleCheck, hw, hi, h5, h2, List.contains_iff_mem.mp ht]

/-! ### Ill-formed commands, one for each check -/

/-- A command with an operand out of range is refused by the check of that operand. -/
theorem test_wf_refuses :
    ([.registerWrite (.vf 16) 0 0, .registerWrite .pf 2 0, .registerWrite .pf 0x20000000 0, .registerWrite (.vf 0) 0x1000000 0, .rwsApply 0x20000000,
      .irqHoldoffExpiry 17 0, .irqHoldoffExpiry 0 64, .panelResetDone 16, .smbusBlockRead 256, .alarm 6, .stitchNop 32 0, .stitchNop 0 8,
      .slotCheckDone 256, .ctxBindApply 512, .cmdDone 17, .rdmaIgnoredPacket 256, .closeTackReceive 0 0 16 0, .spanWindowOpen 16,
      .pltClear .pf 256] : List Instr).all (fun i => !i.wf) = true := by decide

/-- The same of the line, fabric, optical and power operands. -/
theorem test_wf_refuses_more :
    ([.frameTransmit 0x400 0 0, .frameTransmit 0 0 65536000, .pfcRefresh 0 8, .fportQdModeWrite .pf 8 0, .tmPolWrite .pf 3 0 0 0, .relockDone 32,
      .tackRxAlign 32, .ringRefillDone 6 [], .stallTimeout 4096, .rxLock 64, .wtrExpiry 64, .fitCombTimeout 4, .tuningPeriod 0 1001 0 [],
      .kldGo .pf 17, .drainTimeout 24, .thermAlertAssert 6 0, .vmonWarn 4 0, .vmonWarn 0 65536] : List Instr).all (fun i => !i.wf) = true := by decide

/-- Commands at the upper end of their ranges pass. -/
theorem test_wf_passes :
    ([.registerWrite (.vf 15) 0xFFFFFC 0, .irqHoldoffExpiry 16 63, .stitchNop 31 7, .ctxBindApply 511, .stallTimeout 4095, .rxLock 63,
      .drainTimeout 23, .tmPolWrite .pf 2 255 7 0] : List Instr).all (fun i => i.wf) = true := by decide

/-! ### Worked examples of the spec -/

/-- Three contributors, EXACT: 2^24 + 1.5 − 0.5 is a tie and rounds to 0x4B80_0000 (02_seam_arithmetic, worked example after R55). -/
theorem test_exact_example :
    (let x := accAddVal 0 0 (valFp32 0x4B800000)
     let y := accAddVal x.1 x.2.1 (valFp32 0x3FC00000)
     let z := accAddVal y.1 y.2.1 (valFp32 0xBF000000)
     (roundResult 0 false (accValue z.1 z.2.1)).1) = 0x4B800000 := by decide +kernel

/-- The same, ORDERED: 0x4B80_0001. -/
theorem test_ordered_example : (addFp32 (addFp32 0x4B800000 0x3FC00000).1 0xBF000000).1 = 0x4B800001 := by decide +kernel

/-- ARRIVAL in the order 2, 1, 0: 0x4B80_0000. -/
theorem test_arrival_example : (addFp32 (addFp32 0xBF000000 0x3FC00000).1 0x4B800000).1 = 0x4B800000 := by decide +kernel

/-- SCALE truncates 1.75 × (1 + 2^-23) toward zero, for either sign (worked example after R62). -/
theorem test_scale_example :
    (scaleOne 0 0 false 0x3FE00000 0x3F800001).1 = 0x3FE00001 ∧ (scaleOne 0 0 false 0xBFE00000 0x3F800001).1 = 0xBFE00001 := by decide +kernel

/-- Two span steps narrowed to BF16 (worked example after R68). -/
theorem test_narrow_example :
    (let a := narrowFp 1 false false false (narrowIn 0x3FAAAAAB 0).1
     let b := narrowFp 1 false false false (narrowIn 0x3FAAAAAB (a.2.1 <<< 16)).1
     (a.1, a.2.1, b.1, b.2.1)) = (0x3FAB, 0xBB2B, 0x3FAA, 0x3B2A) := by decide +kernel

/-- One MXFP4 block: scale 0x7C, codes 0111, 0100, 0111, 1010 (worked example after R68). -/
theorem test_mx_example :
    (let r := narrowMx 5 false false (([0x3F400000, 0x3EA00000, 0x3F300000, 0xBDC00000].map (fun w => (valFp32 w, false))) ++
       List.replicate 28 (Val.fin false 0 0, false))
     writeMx 5 [r.1] r.2.1) = [0x7C, 0x47, 0xA7] ++ List.replicate 14 0 := by decide +kernel

/-- The header of one contribution (04_collective_protocol, worked example after R127): bytes 0 to 35. -/
theorem test_header_example :
    (scpEncode { scpBlank with opc := 1, panel := 3, crcEn := true, fmt := 1, coll := 0xA31, epoch := 0x1A2B, ncontrib := 32, chunk := 17,
                               rank := 0x107, elems := 4096, nelem := 4096, plen := 8192, layer := 0x12, oper := 4 }).take 36 =
      [0x11, 0x32, 0x10, 0x00, 0, 0, 0x0A, 0x31, 0, 0, 0, 0, 0x1A, 0x2B, 0x00, 0x20, 0, 0, 0, 0x11, 0x00, 0x01, 0x07, 0x00,
       0x10, 0, 0, 0, 0x10, 0, 0x20, 0, 0, 0x12, 0, 0x04] := by decide +kernel

/-- One context register from three places, and its aliases (14_registers_and_pattern, worked example before R427). -/
theorem test_register_places :
    ([(Requester.pf, 0x046010C0), (.pf, 0x152190C0), (.vf 5, 0x002190C0)].all (fun p => target p.1 p.2 == .reg .SEAM_CTX_ARITH (16 * 12 + 3) false) &&
     [(Requester.pf, 0x046410C0), (.pf, 0x152590C0), (.vf 5, 0x002590C0)].all (fun p => target p.1 p.2 == .shadow .SEAM_CTX_ARITH (16 * 12 + 3))) =
      true := by decide +kernel

/-- The XP20 window of two elements is [279:120], and with a set bit 11 the datagram is an XP40 one (worked example after R60). -/
theorem test_xp_window :
    (let a : XpElem := ⟨(1 <<< 180) ||| (1 <<< 120), 0⟩
     let b : XpElem := ⟨- (1 <<< 130), 0⟩
     let c : XpElem := ⟨1 <<< 11, 0⟩
     (xpWbase [a, b], xpFits [a, b] 120, xpWbase [a, b, c], xpFits [a, b, c] 11)) = (120, true, 11, false) := by decide +kernel

/-- CRC-32C of the digits 1 to 9 is 0xE306_9283, the check value of the polynomial R124 names (PRESUMED: the catalogue's). -/
theorem test_crc : crc32c [0x31, 0x32, 0x33, 0x34, 0x35, 0x36, 0x37, 0x38, 0x39] = 0xE3069283 := by decide +kernel

/-- A segment header and a frame's overhead read back as they were written (R284, R314, R315). -/
theorem test_wire :
    (let h := { spanSeg.hdr with typ := 1, rtx := true, txc := 5, npart := 3, cflags := (List.range 16).map (BitVec.ofNat 8) }; segParse (segBytes h) = h) ∧
    (rxOhFrame rxOh).fasOk = true ∧ ohBytes (rxOhFrame rxOh).oh = ohBytes rxOh := by decide +kernel

/-- The band of the worked example of R338: N 384 puts CH0 at 193.1375 THz and CH15 at 194.2625 THz. -/
theorem test_band : chMHz (regSet up .OPT_BAND 1 384) 1 0 = 193137500 ∧ chMHz (regSet up .OPT_BAND 1 384) 1 15 = 194262500 := by decide +kernel

/-- The transmit balls of lanes 71 and 327 (R473's worked places). -/
theorem test_balls : laneBall 71 false false = ⟨9, 41⟩ ∧ laneBall 327 false false = ⟨108, 76⟩ := by decide

/-! ### What the statements ask is met -/

/-- What the clauses of StepTakesTheFront ask is met. -/
theorem test_meets_StepTakesTheFront :
    (∃ (s : State) (c : Instr) (q : List Instr), s.pending = c :: q) ∧ (∃ s : State, s.pending = []) :=
  ⟨⟨{ up with pending := [.fabricReady] }, .fabricReady, [], rfl⟩, ⟨State.reset, rfl⟩⟩

/-- What CommandsLeaveTheQueue asks is met. -/
theorem test_meets_CommandsLeaveTheQueue : ∃ (c : Instr) (s t : State), exec c s = .next t := ⟨.porstNAssert, { up with pending := [.fabricReady] }, _, rfl⟩

/-- What StepKeepsCanonical asks is met. -/
theorem test_meets_StepKeepsCanonical : ∃ s t : State, Canon s ∧ step s = .next t :=
  ⟨{ up with pending := [.perstNAssert] }, _, by constructor <;> decide +kernel, rfl⟩

/-- What the clauses of StartUpReset ask is met. -/
theorem test_meets_StartUpReset :
    (∃ (s : State), (s.boot.porst = true)) :=
  ⟨State.reset, by decide +kernel⟩

/-- What the clauses of StrapsAndLifecycle ask is met. -/
theorem test_meets_StrapsAndLifecycle :
    (∃ (s : State) (l : List StrapLevel), (s.boot.porst = false) ∧ (s.boot.samples.length < 2)) ∧
    (∃ (s : State) (l : List StrapLevel), (s.boot.porst = false) ∧ (s.boot.samples.length = 2) ∧ ((∀ i < 8, strapBad (s.boot.samples ++ [l]) i = false))) ∧
    (∃ (s : State) (l : List StrapLevel) (i : Nat), (s.boot.porst = false) ∧ (s.boot.samples.length = 2) ∧ (i < 8) ∧ (strapBad (s.boot.samples ++ [l]) i = true)) ∧
    (∃ (s : State) (c : BitVec 4), (s.boot.porst = false) ∧ (s.boot.stage = 1) ∧ (c = 1 ∨ c = 2 ∨ c = 3)) ∧
    (∃ (s : State) (c : BitVec 4), (s.boot.porst = false) ∧ (s.boot.stage = 1) ∧ (c ≠ 1 ∧ c ≠ 2 ∧ c ≠ 3)) :=
  ⟨⟨up, [], by decide +kernel⟩,
   ⟨{ up with boot := { up.boot with samples := [List.replicate 8 .low, List.replicate 8 .low] } }, List.replicate 8 .low, by decide +kernel⟩,
   ⟨{ up with boot := { up.boot with samples := [List.replicate 8 .low, List.replicate 8 .high] } }, List.replicate 8 .low, 7, by decide +kernel⟩,
   ⟨upAt 1, 2, by decide +kernel⟩,
   ⟨upAt 1, 4, by decide +kernel⟩⟩

/-- What the clauses of StartUpStages ask is met. -/
theorem test_meets_StartUpStages :
    (∃ (s : State) (l : List BistReport), (s.boot.porst = false) ∧ (s.boot.stage = 2) ∧ (bistFailed l = false) ∧ (s.boot.lifecycle ≠ 3) ∧ (s.boot.strap.getLsbD 5 = false)) ∧
    (∃ (s : State) (l : List BistReport), (s.boot.porst = false) ∧ (s.boot.stage = 2) ∧ (bistFailed l = true)) ∧
    (∃ (s : State) (slow : Bool) (a b : SlotCheck), (s.boot.porst = false) ∧ (s.boot.stage = 3) ∧ (s.boot.strap.getLsbD 0 = false) ∧ (checkSlot { s with flash := { s.flash with slow := slow } } false a = (0, 0))) ∧
    (∃ (s : State) (slow : Bool) (a b : SlotCheck), (s.boot.porst = false) ∧ (s.boot.stage = 3) ∧ (a.sfdp = false) ∧ (b.sfdp = false)) ∧
    (∃ (s : State), (s.boot.porst = false) ∧ (s.boot.stage = 4)) ∧
    (∃ (s : State), (s.boot.porst = false) ∧ (s.boot.stage = 4)) ∧
    (∃ (s : State), (s.boot.porst = false) ∧ (s.boot.stage = 5)) ∧
    (∃ (s : State), (s.boot.porst = false) ∧ (s.boot.stage = 6)) :=
  ⟨⟨upAt 2, [], by decide +kernel⟩,
   ⟨upAt 2, [⟨0, 3, 0, 0⟩], by decide +kernel⟩,
   ⟨withImage, false, ⟨true, true, true⟩, ⟨true, true, true⟩, by decide +kernel⟩,
   ⟨upAt 3, false, ⟨false, true, true⟩, ⟨false, true, true⟩, by decide +kernel⟩,
   ⟨upAt 4, by decide +kernel⟩,
   ⟨upAt 4, by decide +kernel⟩,
   ⟨upAt 5, by decide +kernel⟩,
   ⟨upAt 6, by decide +kernel⟩⟩

/-- What the clauses of FlashCommands ask is met. -/
theorem test_meets_FlashCommands :
    (∃ (s : State) (req : Requester), (Arrives s req .SEC_FLASH_CMD 0 = true) ∧ (s.flash.busy = false) ∧ ((regGet s .SEC_FLASH_ADDR 0).toNat % 65536 = 0) ∧ ((regGet s .SEC_FLASH_ADDR 0).toNat < flashSize s) ∧ (flashProtected s (regGet s .SEC_FLASH_ADDR 0).toNat = false)) ∧
    (∃ (s : State) (req : Requester), (Arrives s req .SEC_FLASH_CMD 0 = true) ∧ (s.flash.busy = false) ∧ ((regGet s .SEC_FLASH_ADDR 0).toNat % 256 = 0) ∧ ((regGet s .SEC_FLASH_ADDR 0).toNat < flashSize s) ∧ (flashProtected s (regGet s .SEC_FLASH_ADDR 0).toNat = false)) ∧
    (∃ (s : State) (req : Requester), (Arrives s req .SEC_FLASH_CMD 0 = true) ∧ (s.flash.busy = false) ∧ ((regGet s .SEC_FLASH_ADDR 0).toNat % 4 = 0) ∧ ((regGet s .SEC_FLASH_ADDR 0).toNat < flashSize s)) ∧
    (∃ (s : State) (req : Requester), (Arrives s req .SEC_FLASH_CMD 0 = true) ∧ (s.flash.busy = false) ∧ ((regGet s .SEC_FLASH_ADDR 0).toNat % 65536 = 0) ∧ ((regGet s .SEC_FLASH_ADDR 0).toNat < flashSize s) ∧ (flashProtected s (regGet s .SEC_FLASH_ADDR 0).toNat = true)) ∧
    (∃ (s : State) (a : Nat), (s.flash.busy = true) ∧ (s.flash.op = .erase a)) ∧
    (∃ (s : State) (a : Nat) (l : List Word), (s.flash.busy = true) ∧ (s.flash.op = .program a l)) ∧
    (∃ (s : State) (a : Nat), (s.flash.busy = true) ∧ (s.flash.op = .read a)) ∧
    (∃ (s : State) (a : Nat), (s.flash.busy = true) ∧ (s.flash.op = .erase a)) ∧
    (∃ (s : State) (e : Byte), (s.flash.busy = true) ∧ (s.flash.op = .refused e) ∧ (e ≠ 0)) :=
  ⟨⟨{ up with boot := { up.boot with patSlotB := true } }, .pf, by decide +kernel⟩,
   ⟨{ up with boot := { up.boot with patSlotB := true } }, .pf, by decide +kernel⟩,
   ⟨up, .pf, by decide +kernel⟩,
   ⟨up, .pf, by decide +kernel⟩,
   ⟨{ up with flash := { Flash.reset with busy := true, op := .erase 0x2000000 } }, 0x2000000, by decide +kernel⟩,
   ⟨{ up with flash := { Flash.reset with busy := true, op := .program 0x2000000 [1] } }, 0x2000000, [1], by decide +kernel⟩,
   ⟨{ up with flash := { Flash.reset with busy := true, op := .read 8 } }, 8, by decide +kernel⟩,
   ⟨{ up with flash := { Flash.reset with busy := true, op := .erase 0 } }, 0, by decide +kernel⟩,
   ⟨{ up with flash := { Flash.reset with busy := true, op := .refused 1 } }, 1, by decide +kernel⟩⟩

/-- What the clauses of MinimumVersion ask is met. -/
theorem test_meets_MinimumVersion :
    (∃ (s : State) (req : Requester), (Arrives s req .SEC_CMD 0 = true) ∧ (s.boot.secBusy = false) ∧ (s.boot.minver.toNat ≤ (regGet s .SEC_CMD_ARG 0).toNat) ∧ ((regGet s .SEC_CMD_ARG 0).toNat ≤ s.boot.patVersion.toNat)) ∧
    (∃ (s : State) (req : Requester), (Arrives s req .SEC_CMD 0 = true) ∧ (s.boot.secBusy = false) ∧ ((regGet s .SEC_CMD_ARG 0).toNat < s.boot.minver.toNat)) ∧
    (∃ (s : State) (req : Requester), (Arrives s req .SEC_CMD 0 = true) ∧ (s.boot.secBusy = false) ∧ (s.boot.minver.toNat ≤ (regGet s .SEC_CMD_ARG 0).toNat) ∧ (s.boot.patVersion.toNat < (regGet s .SEC_CMD_ARG 0).toNat)) ∧
    (∃ (s : State), (s.boot.secBusy = true)) ∧
    (∃ (s : State), (s.boot.secBusy = true)) :=
  ⟨⟨up, .pf, by decide +kernel⟩,
   ⟨{ up with boot := { up.boot with minver := 1 } }, .pf, by decide +kernel⟩,
   ⟨regSet up .SEC_CMD_ARG 0 1, .pf, by decide +kernel⟩,
   ⟨{ up with boot := { up.boot with secBusy := true } }, by decide +kernel⟩,
   ⟨{ up with boot := { up.boot with secBusy := true } }, by decide +kernel⟩⟩

/-- What the clauses of InterruptHoldoff ask is met. -/
theorem test_meets_InterruptHoldoff :
    (∃ (s : State) (fn vec : Nat), (Canon s) ∧ ((vecGet s fn vec).fired = true) ∧ ((vecGet s fn vec).pend = true) ∧ ((vecGet s fn vec).masked = false) ∧ (pcieUp s = true) ∧ (fn ≤ s.boot.numVfs) ∧ (vec < 64)) ∧
    (∃ (s : State) (fn vec : Nat), (Canon s) ∧ ((vecGet s fn vec).fired = true) ∧ ((vecGet s fn vec).pend = false)) ∧
    (∃ (s : State) (fn vec : Nat), (Canon s) ∧ ((vecGet s fn vec).fired = true) ∧ ((vecGet s fn vec).pend = true) ∧ ((vecGet s fn vec).masked = true ∨ pcieUp s = false) ∧ (fn ≤ s.boot.numVfs) ∧ (vec < 64)) ∧
    (∃ (s : State) (fn vec : Nat), ((vecGet s fn vec).fired = false)) :=
  ⟨⟨vecSet up 0 3 ⟨true, true, false⟩, 0, 3, by refine ⟨by constructor <;> decide +kernel, ?_⟩; decide +kernel⟩,
   ⟨vecSet up 0 3 ⟨true, false, false⟩, 0, 3, by refine ⟨by constructor <;> decide +kernel, ?_⟩; decide +kernel⟩,
   ⟨vecSet up 0 3 ⟨true, true, true⟩, 0, 3, by refine ⟨by constructor <;> decide +kernel, ?_⟩; decide +kernel⟩,
   ⟨up, 0, 3, by decide +kernel⟩⟩

/-- What the clauses of BoardSensors ask is met. -/
theorem test_meets_BoardSensors :
    (∃ (s : State) (die : Nat) (temp : BitVec 16), (die < 6) ∧ (1050 < temp.toInt) ∧ (s.pins.thermAlert = false)) ∧
    (∃ (s : State) (a b c d e f : BitVec 16), (Canon s) ∧ ((∀ x ∈ [a, b, c, d, e, f], x.toInt < 1000))) ∧
    (∃ (s : State) (rail mv : Nat), (rail < 4) ∧ (20 * mv < 19 * railMv rail ∨ 21 * railMv rail < 20 * mv)) ∧
    (∃ (s : State) (rail mv : Nat), (rail < 4) ∧ (19 * railMv rail ≤ 20 * mv) ∧ (20 * mv ≤ 21 * railMv rail)) :=
  ⟨⟨up, 2, 1051, by decide +kernel⟩,
   ⟨up, 0, 0, 0, 0, 0, 1, ⟨by constructor <;> decide +kernel, fun x hx => of_decide_eq_true (List.all_eq_true.mp (by decide +kernel : ([0, 0, 0, 0, 0, 1] : List (BitVec 16)).all (fun x => decide (x.toInt < 1000)) = true) x hx)⟩⟩,
   ⟨up, 1, 700, by decide +kernel⟩,
   ⟨up, 2, 1890, by decide +kernel⟩⟩

/-- What the clauses of ReferenceClocks ask is met. -/
theorem test_meets_ReferenceClocks :
    (∃ (s : State) (die : Nat), (Canon s) ∧ (die < 4) ∧ (s.pins.refLost.getLsbD die = false)) ∧
    (∃ (s : State) (die : Nat), (Canon s) ∧ (die < 4) ∧ (s.pins.refLost.getLsbD die = true)) :=
  ⟨⟨up, 3, by refine ⟨by constructor <;> decide +kernel, ?_⟩; decide +kernel⟩,
   ⟨{ up with pins := { up.pins with refLost := 4 } }, 2, by refine ⟨by constructor <;> decide +kernel, ?_⟩; decide +kernel⟩⟩

/-- What the clauses of BoardPort ask is met. -/
theorem test_meets_BoardPort :
    (∃ (s : State) (code : Nat) (r : Rid) (i : Nat), (smbusUp s = true) ∧ (regAt .GLB (4 * code) = some (r, i, false))) ∧
    (∃ (s : State) (v : Word), (Canon s) ∧ (smbusUp s = true) ∧ (bf v 31 24 = (evGet s .GLB_EVENT 0).seq.toNat)) ∧
    (∃ (s : State) (v : Word), (smbusUp s = true) ∧ (bf v 31 24 ≠ (evGet s .GLB_EVENT 0).seq.toNat)) :=
  ⟨⟨{ up with boot := { up.boot with samples := [[], [], []] } }, 1, .GLB_BLOCK_STATUS, 0, by decide +kernel⟩,
   ⟨{ up with boot := { up.boot with samples := [[], [], []] } }, 0, by refine ⟨by constructor <;> decide +kernel, ?_⟩; decide +kernel⟩,
   ⟨{ up with boot := { up.boot with samples := [[], [], []] } }, 0x01000000, by decide +kernel⟩⟩

/-- What the clauses of AlarmErasesKeys ask is met. -/
theorem test_meets_AlarmErasesKeys :
    (∃ (s : State) (cause : Nat), (Canon s) ∧ (s.boot.porst = false) ∧ (cause < 6) ∧ ((cause = 4 → s.boot.lifecycle = 2))) ∧
    (∃ (s : State), (s.boot.lifecycle ≠ 2)) :=
  ⟨⟨up, 0, by refine ⟨by constructor <;> decide +kernel, ?_⟩; decide +kernel⟩,
   ⟨{ up with boot := { up.boot with lifecycle := 3 } }, by decide +kernel⟩⟩

/-- What the clauses of RegisterWrites ask is met. -/
theorem test_meets_RegisterWrites :
    (∃ (s : State) (req : Requester) (addr : Nat) (v : Word) (r : Rid) (i : Nat), (Canon s) ∧ (WritesAt s req addr r i = true) ∧ ((ridRow r).acc = .rw) ∧ (r ∉ ownRowRw)) ∧
    (∃ (s : State) (req : Requester) (addr : Nat) (v : Word) (r : Rid) (i : Nat), (WritesAt s req addr r i = true) ∧ ((ridRow r).acc = .ro ∨ (ridRow r).acc = .cnt ∨ (ridRow r).acc = .cntv)) ∧
    (∃ (s : State) (req : Requester) (addr : Nat) (v : Word), (reqLink s req = true) ∧ (req = .pf ∨ req = .ctl) ∧ (windowPanel addr = none) ∧ (addr % 4 ≠ 0 ∨ target req addr = .none)) ∧
    (∃ (s : State) (req : Requester) (addr : Nat), (reqLink s req = true) ∧ (req = .pf) ∧ (windowPanel addr = none)) ∧
    (∃ (s : State) (req : Requester) (addr : Nat), (reqLink s req = true) ∧ (req = .pf ∨ req = .ctl) ∧ (windowPanel addr = none)) :=
  ⟨⟨up, .pf, (addrOf .pf .SEC_FLASH_ADDR 0), 5, .SEC_FLASH_ADDR, 0, by refine ⟨by constructor <;> decide +kernel, ?_⟩; decide +kernel⟩,
   ⟨up, .pf, 0x00000000, 5, .GLB_ID, 0, by decide +kernel⟩,
   ⟨up, .ctl, 0x0C000000, 0, by decide +kernel⟩,
   ⟨up, .pf, 2, by decide +kernel⟩,
   ⟨up, .ctl, 2, by decide +kernel⟩⟩

/-- What the clauses of ShadowedWrites ask is met. -/
theorem test_meets_ShadowedWrites :
    (∃ (s : State) (req : Requester) (addr : Nat) (v : Word) (r : Rid) (i : Nat), (Canon s) ∧ (WritesAt s req addr r i = true) ∧ (r ∈ plainRws) ∧ (rwsIdle s r i = false)) ∧
    (∃ (s : State) (req : Requester) (addr : Nat) (v : Word) (r : Rid) (i : Nat), (Canon s) ∧ (WritesAt s req addr r i = true) ∧ (r ∈ plainRws) ∧ (rwsIdle s r i = true)) ∧
    (∃ (s : State) (addr : Nat) (v : Word) (r : Rid) (i : Nat), (Canon s) ∧ (target .pf addr = .reg r i false) ∧ (r ∈ plainRws) ∧ (heldGet s r i = some v)) ∧
    (∃ (s : State) (req : Requester) (addr : Nat) (r : Rid) (i : Nat), (reqLink s req = true) ∧ (addr % 4 = 0) ∧ (target req addr = .shadow r i) ∧ (addrHas s req addr r i = true)) :=
  ⟨⟨up, .pf, (addrOf .pf .HLT_CFG 0), 5, .HLT_CFG, 0, by refine ⟨by constructor <;> decide +kernel, ?_⟩; decide +kernel⟩,
   ⟨up, .pf, (addrOf .pf .SW_CT 0), 5, .SW_CT, 0, by refine ⟨by constructor <;> decide +kernel, ?_⟩; decide +kernel⟩,
   ⟨heldSet up .HLT_CFG 0 (some 7), (addrOf .pf .HLT_CFG 0), 7, .HLT_CFG, 0, by refine ⟨by constructor <;> decide +kernel, ?_⟩; decide +kernel⟩,
   ⟨heldSet up .HLT_CFG 0 (some 7), .pf, (addrOf .pf .HLT_CFG 0 + 0x800000), .HLT_CFG, 0, by decide +kernel⟩⟩

/-- What the clauses of EventClears ask is met. -/
theorem test_meets_EventClears :
    (∃ (s : State) (req : Requester) (addr : Nat) (v : Word) (r : Rid) (i : Nat), (Canon s) ∧ (WritesAt s req addr r i = true) ∧ ((ridRow r).acc = .sqc) ∧ (bf v 31 24 = (evGet s r i).seq.toNat)) ∧
    (∃ (s : State) (req : Requester) (addr : Nat) (v : Word) (r : Rid) (i : Nat), (WritesAt s req addr r i = true) ∧ ((ridRow r).acc = .sqc) ∧ (bf v 31 24 ≠ (evGet s r i).seq.toNat)) :=
  ⟨⟨evSet up .SEC_EVENT 0 ⟨3, 5⟩, .pf, 0x00300004, 0x03000000, .SEC_EVENT, 0, by refine ⟨by constructor <;> decide +kernel, ?_⟩; decide +kernel⟩,
   ⟨evSet up .SEC_EVENT 0 ⟨3, 5⟩, .pf, 0x00300004, 0x04000000, .SEC_EVENT, 0, by decide +kernel⟩⟩

/-- What the clauses of CounterReads ask is met. -/
theorem test_meets_CounterReads :
    (∃ (s : State) (req : Requester) (addr : Nat) (r : Rid) (i : Nat), (ReadsAt s req addr r i false = true) ∧ (ridWide r = true)) ∧
    (∃ (s : State) (req : Requester) (addr : Nat) (r : Rid) (i : Nat) (w : Word), (ReadsAt s req addr r i true = true) ∧ (ridWide r = true) ∧ (tabGet none s.latches (latchOf req) = some ⟨ridNum r, i, w⟩)) ∧
    (∃ (s : State) (req : Requester) (addr : Nat) (r : Rid) (i : Nat), (ReadsAt s req addr r i true = true) ∧ (ridWide r = true) ∧ ((∀ l, tabGet none s.latches (latchOf req) = some l → ¬ (l.rid = ridNum r ∧ l.idx = i)))) ∧
    (∃ (s : State) (req : Requester) (addr : Nat), (ReadsAt s req addr .TIME_NOW_FRAC 0 false = true)) :=
  ⟨⟨up, .pf, (addrOf .pf .HLT_CNT_DEVICE 0), .HLT_CNT_DEVICE, 0, by decide +kernel⟩,
   ⟨{ up with latches := [(0, some ⟨ridNum .HLT_CNT_DEVICE, 0, 9⟩)] }, .pf, (addrOf .pf .HLT_CNT_DEVICE 0 + 4), .HLT_CNT_DEVICE, 0, 9, by decide +kernel⟩,
   ⟨up, .pf, (addrOf .pf .HLT_CNT_DEVICE 0 + 4), .HLT_CNT_DEVICE, 0, ⟨by decide +kernel, by decide +kernel, by intro l h; simp [up, State.reset, tabGet] at h⟩⟩,
   ⟨up, .pf, 0x00800020, by decide +kernel⟩⟩

/-- What the clauses of HbmAperture ask is met. -/
theorem test_meets_HbmAperture :
    (∃ (s : State) (req : Requester) (addr view off a : Nat), (reqLink s req = true) ∧ (addr % 4 = 0) ∧ (target req addr = .aperture view off) ∧ (aptOpen s view = true) ∧ (off % 4 = 0) ∧ (aptTarget s view off = some a) ∧ (ueIn s a 4 = none)) ∧
    (∃ (s : State) (req : Requester) (addr view off a : Nat) (v : Word), (Canon s) ∧ (reqLink s req = true) ∧ (addr % 4 = 0) ∧ (target req addr = .aperture view off) ∧ (aptOpen s view = true) ∧ (off % 4 = 0) ∧ (aptTarget s view off = some a) ∧ (a % 4 = 0) ∧ (ueIn s a 4 = none)) ∧
    (∃ (s : State) (req : Requester) (addr view off : Nat) (v : Word), (reqLink s req = true) ∧ (addr % 4 = 0) ∧ (target req addr = .aperture view off) ∧ (aptOpen s view = true) ∧ (off % 4 = 0) ∧ (aptTarget s view off = none)) :=
  ⟨⟨up, .pf, 0x06C00008, 16, 8, 8, by decide +kernel⟩,
   ⟨up, .pf, 0x06C00008, 16, 8, 8, 0x12345678, by refine ⟨by constructor <;> decide +kernel, ?_⟩; decide +kernel⟩,
   ⟨{ up with panels := [(2, ⟨.active, 0⟩)] }, .vf 2, 0xC00004, 2, 4, 0, by decide +kernel⟩⟩

/-- What the clauses of PatrolScrub ask is met. -/
theorem test_meets_PatrolScrub :
    (∃ (s : State), (s.mem.scrubWb = none) ∧ (s.mem.scrubPass = false) ∧ (s.mem.scrubBlock + 1 < scrubBlocks s) ∧ (s.mem.ue.contains (2 * s.mem.scrubBlock) = false) ∧ (s.mem.ue.contains (2 * s.mem.scrubBlock + 1) = false)) ∧
    (∃ (s : State), (s.mem.scrubWb = none) ∧ (s.mem.scrubPass = false) ∧ (s.mem.scrubBlock + 1 < scrubBlocks s) ∧ (s.mem.ue.contains (2 * s.mem.scrubBlock) = false) ∧ (s.mem.ue.contains (2 * s.mem.scrubBlock + 1) = false)) ∧
    (∃ (s : State), (s.mem.scrubPass = true)) ∧
    (∃ (s : State), (s.mem.scrubPass = false)) :=
  ⟨⟨up, by decide +kernel⟩,
   ⟨up, by decide +kernel⟩,
   ⟨{ up with mem := { up.mem with scrubPass := true } }, by decide +kernel⟩,
   ⟨up, by decide +kernel⟩⟩

/-- What the clauses of FreeStores ask is met. -/
theorem test_meets_FreeStores :
    (∃ (s : State) (w : BobWait) (l : List BobWait) (x : Inv), (s.bob.waits = w :: l) ∧ ((bobTake s w.spool w.priv).1.isSome = true) ∧ (w.unit < 32) ∧ (runOf s w.sub = some x) ∧ (x.bobWait = true) ∧ (x.bobbin = none)) ∧
    (∃ (s : State) (k : Nat), (Canon s) ∧ ((spoolGet s k).reads ≠ 0) ∧ ((∀ f ∈ s.fab.frames, f.handle.isSome = true ∨ f.cells = 0))) :=
  ⟨⟨{ up with bob := { up.bob with spools := [(4, ⟨64, 16, [], [], 40, 0⟩)], waits := [⟨4, 0, 0, true⟩] }, seam := { up.seam with slots := [(0, { slotReset with run := some { inv0 with bobWait := true } })] } }, ⟨4, 0, 0, true⟩, [], { inv0 with bobWait := true }, by decide +kernel⟩,
   ⟨{ up with bob := { up.bob with spools := [(4, ⟨1000, 16, [], [], 100, 1⟩)] } }, 4, by refine ⟨by constructor <;> decide +kernel, ?_⟩; decide +kernel⟩⟩

/-- What the clauses of PanelSettings ask is met. -/
theorem test_meets_PanelSettings :
    (∃ (s : State) (req : Requester) (n : Nat) (v : Word), (Canon s) ∧ (Arrives s req .GLB_PANEL_CFG n = true) ∧ (panelCfgOk s n (putBf (putBf (putBf 0 31 31 (bf v 31 31)) 25 16 (bf v 25 16)) 14 0 (bf v 14 0)) = true) ∧ ((panelGet s n).state ≠ .resetting)) ∧
    (∃ (s : State) (req : Requester) (n : Nat) (v : Word), (Canon s) ∧ (Arrives s req .GLB_PANEL_CFG n = true) ∧ (panelCfgOk s n (putBf (putBf (putBf 0 31 31 (bf v 31 31)) 25 16 (bf v 25 16)) 14 0 (bf v 14 0)) = true) ∧ ((panelGet s n).state = .resetting)) ∧
    (∃ (s : State) (req : Requester) (n : Nat) (v : Word), (Arrives s req .GLB_PANEL_CFG n = true) ∧ (panelCfgOk s n (putBf (putBf (putBf 0 31 31 (bf v 31 31)) 25 16 (bf v 25 16)) 14 0 (bf v 14 0)) = false)) ∧
    (∃ (s : State) (req : Requester) (p : Nat) (v : Word), (Canon s) ∧ (Arrives s req .MEM_PANEL_QUOTA p = true) ∧ (req = .pf ∨ req = .ctl) ∧ (quotaAccepts s p v (panelInUse s p) = true)) ∧
    (∃ (s : State) (req : Requester) (p : Nat) (v : Word), (Arrives s req .MEM_PANEL_QUOTA p = true) ∧ (req = .pf ∨ req = .ctl) ∧ (quotaAccepts s p v (panelInUse s p) = false)) ∧
    (∃ (s : State) (k p : Nat) (v : Word), (Arrives s (.vf k) .MEM_PANEL_QUOTA p = true)) :=
  ⟨⟨up, .pf, 2, 0x80100020, by refine ⟨by constructor <;> decide +kernel, ?_⟩; decide +kernel⟩,
   ⟨{ up with panels := [(2, ⟨.resetting, 0⟩)] }, .pf, 2, 0x80100020, by refine ⟨by constructor <;> decide +kernel, ?_⟩; decide +kernel⟩,
   ⟨up, .pf, 2, 0x83000000, by decide +kernel⟩,
   ⟨up, .pf, 1, 0x00000004, by refine ⟨by constructor <;> decide +kernel, ?_⟩; decide +kernel⟩,
   ⟨up, .pf, 1, 0xFFFF0004, by decide +kernel⟩,
   ⟨{ up with panels := [(3, ⟨.active, 0⟩)] }, 3, 3, 0x00000004, by decide +kernel⟩⟩

/-- What the clauses of PanelReset ask is met. -/
theorem test_meets_PanelReset :
    (∃ (s : State) (req : Requester) (n : Nat), (Canon s) ∧ (Arrives s req .PNL_CTRL n = true) ∧ ((panelGet s n).state ≠ .resetting)) ∧
    (∃ (s : State) (req : Requester) (n : Nat), (Arrives s req .PNL_CTRL n = true) ∧ ((panelGet s n).state = .resetting)) ∧
    (∃ (s : State) (n : Nat), (Canon s) ∧ ((panelGet s n).state = .resetting)) :=
  ⟨⟨{ up with panels := [(2, ⟨.active, 0⟩)] }, .pf, 2, by refine ⟨by constructor <;> decide +kernel, ?_⟩; decide +kernel⟩,
   ⟨{ up with panels := [(2, ⟨.resetting, 0⟩)] }, .pf, 2, by decide +kernel⟩,
   ⟨{ up with panels := [(2, ⟨.resetting, 0⟩)] }, 2, by refine ⟨by constructor <;> decide +kernel, ?_⟩; decide +kernel⟩⟩

/-- What the clauses of ObservationAreas ask is met. -/
theorem test_meets_ObservationAreas :
    (∃ (s : State) (req : Requester) (p : Nat) (v : Word), (Canon s) ∧ (Arrives s req .DBG_PNL_OBS p = true) ∧ (bf v 15 0 = 0)) ∧
    (∃ (s : State) (req : Requester) (p : Nat) (v : Word), (Arrives s req .DBG_PNL_OBS p = true) ∧ (bf v 15 0 ≠ 0) ∧ (obsArea (areaSet (regSet s .DBG_PNL_OBS p v) p ⟨0, 0, 0, 0⟩) p = none)) ∧
    (∃ (s : State), (regBit s .DBG_TRACE_CFG 0 0 = false)) ∧
    (∃ (s : State), (regBit s .DBG_TRACE_CFG 0 0 = true)) :=
  ⟨⟨up, .pf, 1, 0, by refine ⟨by constructor <;> decide +kernel, ?_⟩; decide +kernel⟩,
   ⟨up, .pf, 1, 1, by decide +kernel⟩,
   ⟨up, by decide +kernel⟩,
   ⟨regSet up .DBG_TRACE_CFG 0 1, by decide +kernel⟩⟩

/-- What the clauses of FramesThroughTheSwitch ask is met. -/
theorem test_meets_FramesThroughTheSwitch :
    (∃ (s : State) (f : RxFrame) (ds : List Nat), (portImpl s f.port = true) ∧ (s.boot.porst = false) ∧ (portCarries s f.port = true) ∧ (isGlobalPause f.data = false) ∧ ((police s f.port (classOf s f.port f.data) f.data.length).1 = true) ∧ (limitOf s f.port (classOf s f.port f.data) ≠ 0) ∧ (f.data.length ≤ 9216) ∧ (occOf s f.port (classOf s f.port f.data) + cellsOf f.data.length ≤ limitOf s f.port (classOf s f.port f.data)) ∧ (f.toGateway = false) ∧ (f.fcsOk = true) ∧ (f.fecUncorr = 0) ∧ (lookup s (inputPanel s f.port) f.data = some ds) ∧ (ds.filter (fun d => d != ccoDest && d != ctlDest) ≠ [])) ∧
    (∃ (s : State) (f : RxFrame), (portImpl s f.port = true) ∧ (s.boot.porst = false) ∧ (portCarries s f.port = true) ∧ (isGlobalPause f.data = false) ∧ ((police s f.port (classOf s f.port f.data) f.data.length).1 = true) ∧ (limitOf s f.port (classOf s f.port f.data) ≠ 0) ∧ (f.data.length ≤ 9216) ∧ (occOf s f.port (classOf s f.port f.data) + cellsOf f.data.length ≤ limitOf s f.port (classOf s f.port f.data)) ∧ (f.toGateway = true) ∧ (f.fcsOk = true) ∧ (f.fecUncorr = 0) ∧ (udpPort f.data = regBf s .CCO_UDP_PORT 0 15 0)) ∧
    (∃ (s : State) (f : RxFrame), (Canon s) ∧ (portImpl s f.port = true) ∧ (s.boot.porst = false) ∧ (portCarries s f.port = true) ∧ (isGlobalPause f.data = false) ∧ ((police s f.port (classOf s f.port f.data) f.data.length).1 = true) ∧ (limitOf s f.port (classOf s f.port f.data) = 0)) ∧
    (∃ (s : State) (f : RxFrame), (Canon s) ∧ (portImpl s f.port = true) ∧ (s.boot.porst = false) ∧ (portCarries s f.port = false)) ∧
    (∃ (s : State) (p panel phase k : Nat) (f : Frame) (x : FabPort), (Canon s) ∧ (p < 256) ∧ (portCarries s p = true) ∧ (nextFrame s p phase = (some (k, f), x)) ∧ (s.fab.frames[k]? = some f) ∧ ((bobUse s 0x20 f.handle 0).1 = true)) ∧
    (∃ (s : State) (p panel phase k : Nat) (f : Frame) (x : FabPort), (p < 256) ∧ (portCarries s p = true) ∧ (nextFrame s p phase = (some (k, f), x)) ∧ ((bobUse s 0x20 f.handle 0).1 = false)) ∧
    (∃ (s : State) (p panel phase : Nat), (p < 256) ∧ ((nextFrame s p phase).1 = none ∨ portCarries s p = false)) ∧
    (∃ (s u : State) (panel v phase k i : Nat) (f : Frame), (vdestSess s panel v = some k) ∧ (sessNext s panel v k = some (i, f)) ∧ (frameEnter s k f.cls f.data = (true, u))) ∧
    (∃ (s : State) (inp c d k : Nat) (f : Frame), (Canon s) ∧ ((voqHeads s.fab.frames d c).find? (fun h => h.2.inp == inp) = some (k, f)) ∧ (s.fab.frames[k]? = some f) ∧ (ageLimit c < s.localUs - f.arrUs)) ∧
    (∃ (s : State) (inp c d k : Nat) (f : Frame), ((voqHeads s.fab.frames d c).find? (fun h => h.2.inp == inp) = some (k, f)) ∧ (s.localUs - f.arrUs ≤ ageLimit c)) :=
  ⟨⟨sw, rxZeros, [1], by decide +kernel⟩,
   ⟨sw, { rxZeros with toGateway := true, data := scpZeros }, by decide +kernel⟩,
   ⟨(regSet sw .SW_LIMIT 0 0), rxZeros, by refine ⟨by constructor <;> decide +kernel, ?_⟩; decide +kernel⟩,
   ⟨up, rxZeros, by refine ⟨by constructor <;> decide +kernel, ?_⟩; decide +kernel⟩,
   ⟨swHeld, 1, 0, 0, 0, ⟨0, 0, [1], List.replicate 60 0, false, 0, none, 1, none, none⟩, (nextFrame swHeld 1 0).2, by refine ⟨by constructor <;> decide +kernel, ?_⟩; decide +kernel⟩,
   ⟨swBad, 1, 0, 0, 0, ⟨0, 0, [1], List.replicate 60 0, false, 0, some 0x40000001, 1, none, none⟩, (nextFrame swBad 1 0).2, by decide +kernel⟩,
   ⟨up, 1, 0, 0, by decide +kernel⟩,
   ⟨swSess, (frameEnter swSess 3 0 (List.replicate 60 0)).2, 0, 5, 0, 3, 0, ⟨0, 0, [261], List.replicate 60 0, false, 0, none, 1, none, none⟩, by decide +kernel⟩,
   ⟨{ swHeld with localUs := 3000000 }, 0, 0, 1, 0, ⟨0, 0, [1], List.replicate 60 0, false, 0, none, 1, none, none⟩, by refine ⟨by constructor <;> decide +kernel, ?_⟩; decide +kernel⟩,
   ⟨swHeld, 0, 0, 1, 0, ⟨0, 0, [1], List.replicate 60 0, false, 0, none, 1, none, none⟩, by decide +kernel⟩⟩

/-- What the clauses of PortLinks ask is met. -/
theorem test_meets_PortLinks :
    (∃ (s : State) (p : Nat), (Canon s) ∧ (portImpl s p = true) ∧ (domReady s (portDom p) = true) ∧ (s.pins.refLost.getLsbD (p / 64) = false) ∧ (s.boot.stage ≠ 15) ∧ (s.boot.porst = false)) ∧
    (∃ (s : State) (p : Nat), (Canon s) ∧ ((fabPort s p).link = true)) ∧
    (∃ (s : State) (p : Nat) (quanta : List (Option Nat)), (Canon s) ∧ (portCarries s p = true)) ∧
    (∃ (s : State) (p c : Nat), (Canon s) ∧ (portCarries s p = true) ∧ (c < 8) ∧ ((fabPort s p).pausing.getLsbD c = true) ∧ (xonOf s p c ≤ occOf s p c)) ∧
    (∃ (s : State) (p c : Nat), ((fabPort s p).pausing.getLsbD c = false ∨ occOf s p c < xonOf s p c)) ∧
    (∃ (s : State) (p c : Nat), (Canon s) ∧ (c < 8)) ∧
    (∃ (s : State) (p c : Nat), (Canon s) ∧ (c < 8) ∧ ((fabPort s p).paused.getLsbD c = true) ∧ ((fabPort s p).discard.getLsbD c = false) ∧ (tabGet 0 (fabPort s p).pausedUs c + 1000 * regBf s .HLT_PORT_STALL 0 10 0 ≤ s.localUs)) ∧
    (∃ (s : State) (p c : Nat), ((fabPort s p).paused.getLsbD c = false)) ∧
    (∃ (s : State) (p : Nat), (portCarries s p = true) ∧ ((fabPort s p).lastTxUs + 1000 ≤ s.localUs) ∧ ((List.range 8).any (fun c => (classHead s p c 0).any (fun h => decide (h.2.arrUs + 1000 ≤ s.localUs))) = true)) ∧
    (∃ (s : State) (p : Nat), (portCarries s p = false ∨ s.localUs < (fabPort s p).lastTxUs + 1000 ∨ (List.range 8).any (fun c => (classHead s p c 0).any (fun h => decide (h.2.arrUs + 1000 ≤ s.localUs))) = false)) :=
  ⟨⟨up, 5, by refine ⟨by constructor <;> decide +kernel, ?_⟩; decide +kernel⟩,
   ⟨swHeld, 1, by refine ⟨by constructor <;> decide +kernel, ?_⟩; decide +kernel⟩,
   ⟨sw, 0, [some 5, some 0], by refine ⟨by constructor <;> decide +kernel, ?_⟩; decide +kernel⟩,
   ⟨{ sw with fab := { sw.fab with ports := [(0, { FabPort.reset with link := true, fecLock := true, pausing := 4 })] } }, 0, 2, by refine ⟨by constructor <;> decide +kernel, ?_⟩; decide +kernel⟩,
   ⟨sw, 0, 2, by decide +kernel⟩,
   ⟨sw, 0, 2, by refine ⟨by constructor <;> decide +kernel, ?_⟩; decide +kernel⟩,
   ⟨{ sw with fab := { sw.fab with ports := [(0, { FabPort.reset with link := true, fecLock := true, paused := 4 })] }, localUs := 9000000 }, 0, 2, by refine ⟨by constructor <;> decide +kernel, ?_⟩; decide +kernel⟩,
   ⟨sw, 0, 2, by decide +kernel⟩,
   ⟨{ swHeld with localUs := 5000 }, 1, by decide +kernel⟩,
   ⟨up, 0, by decide +kernel⟩⟩

/-- What the clauses of PortAndSwitchSettings ask is met. -/
theorem test_meets_PortAndSwitchSettings :
    (∃ (s : State) (req : Requester) (q : Nat) (v : Word), (Arrives s req .FPORT_QD_MODE q = true) ∧ (quadBusy s q = true)) ∧
    (∃ (s : State) (req : Requester) (q : Nat) (v : Word), (Canon s) ∧ (Arrives s req .FPORT_QD_MODE q = true) ∧ (quadBusy s q = false) ∧ (bf v 1 0 ≠ 3)) ∧
    (∃ (s : State) (req : Requester) (p : Nat) (v : Word), (Canon s) ∧ (Arrives s req .FPORT_CTRL p = true) ∧ (portEn s p = false) ∧ (bit (acceptWord .FPORT_CTRL (regGet s .FPORT_CTRL p) v) 31 = true) ∧ (bf (acceptWord .FPORT_CTRL (regGet s .FPORT_CTRL p) v) 27 24 = bf (regGet s .FPORT_CTRL p) 27 24 ∨ panelTakesPort s p (bf (acceptWord .FPORT_CTRL (regGet s .FPORT_CTRL p) v) 27 24) = true) ∧ ((portLanes s p).any (laneBasting s) = false) ∧ ((fabPort s p).link = false)) ∧
    (∃ (s : State) (req : Requester) (p : Nat) (v : Word), (Arrives s req .FPORT_CTRL p = true) ∧ (portEn s p = false) ∧ (bit (acceptWord .FPORT_CTRL (regGet s .FPORT_CTRL p) v) 31 = false ∨ (portLanes s p).any (laneBasting s) = false) ∧ (bf (acceptWord .FPORT_CTRL (regGet s .FPORT_CTRL p) v) 27 24 ≠ bf (regGet s .FPORT_CTRL p) 27 24) ∧ (panelTakesPort s p (bf (acceptWord .FPORT_CTRL (regGet s .FPORT_CTRL p) v) 27 24) = false)) ∧
    (∃ (s : State) (req : Requester) (p : Nat) (v : Word), (Canon s) ∧ (Arrives s req .FPORT_CTRL p = true) ∧ (portEn s p = false) ∧ (bit (acceptWord .FPORT_CTRL (regGet s .FPORT_CTRL p) v) 31 = true) ∧ (bf (acceptWord .FPORT_CTRL (regGet s .FPORT_CTRL p) v) 27 24 = bf (regGet s .FPORT_CTRL p) 27 24 ∨ panelTakesPort s p (bf (acceptWord .FPORT_CTRL (regGet s .FPORT_CTRL p) v) 27 24) = true) ∧ ((portLanes s p).any (laneBasting s) = true)) ∧
    (∃ (s : State) (req : Requester) (p : Nat) (v : Word), (Canon s) ∧ (Arrives s req .FPORT_CTRL p = true) ∧ (portEn s p = true) ∧ (bit (acceptWord .FPORT_CTRL (regGet s .FPORT_CTRL p) v) 31 = true)) ∧
    (∃ (s : State) (req : Requester) (p : Nat) (v : Word), (Canon s) ∧ (Arrives s req .FPORT_CTRL p = true) ∧ (portEn s p = true) ∧ (bit (acceptWord .FPORT_CTRL (regGet s .FPORT_CTRL p) v) 31 = false)) ∧
    (∃ (s : State) (req : Requester) (p c : Nat) (v : Word), (Canon s) ∧ (Arrives s req .SW_LIMIT (pc p c) = true) ∧ (limitsOk s p c (acceptWord .SW_LIMIT (regGet s .SW_LIMIT (pc p c)) v) (regGet s .SW_PFC (pc p c)) = true)) ∧
    (∃ (s : State) (req : Requester) (p c : Nat) (v : Word), (Canon s) ∧ (Arrives s req .SW_PFC (pc p c) = true) ∧ (limitsOk s p c (regGet s .SW_LIMIT (pc p c)) (acceptWord .SW_PFC (regGet s .SW_PFC (pc p c)) v) = true)) ∧
    (∃ (s : State) (req : Requester) (p c : Nat) (v : Word), (Arrives s req .SW_LIMIT (pc p c) = true) ∧ (limitsOk s p c (acceptWord .SW_LIMIT (regGet s .SW_LIMIT (pc p c)) v) (regGet s .SW_PFC (pc p c)) = false)) ∧
    (∃ (s : State) (req : Requester), (Canon s) ∧ (Arrives s req .SW_FDB_CMD 0 = true) ∧ (s.fab.fdb.length < 131072)) ∧
    (∃ (s : State) (req : Requester), (Arrives s req .SW_FDB_CMD 0 = true) ∧ (tabGet none s.fab.fdb (fdbKey s) = none) ∧ (131072 ≤ s.fab.fdb.length)) ∧
    (∃ (s : State) (req : Requester) (w : Word), (Canon s) ∧ (Arrives s req .SW_FDB_CMD 0 = true) ∧ (tabGet none s.fab.fdb (fdbKey s) = some w)) ∧
    (∃ (s : State) (req : Requester), (Arrives s req .SW_FDB_CMD 0 = true) ∧ (tabGet none s.fab.fdb (fdbKey s) = none)) ∧
    (∃ (s : State) (req : Requester) (reg p c : Nat) (v : Word), (Canon s) ∧ (Arrives s req (polRid reg) (pc p c) = true)) ∧
    (∃ (s : State) (req : Requester) (reg p c : Nat) (v : Word), (Canon s) ∧ (c < 8) ∧ (Arrives s req (shpRid reg) (pc p c) = true) ∧ (queueBusy s p c = false)) ∧
    (∃ (s : State) (req : Requester) (reg p c : Nat) (v : Word), (Canon s) ∧ (Arrives s req (shpRid reg) (pc p c) = true) ∧ (queueBusy s p c = true)) :=
  ⟨⟨sw, .pf, 0, 1, by decide +kernel⟩,
   ⟨sw, .pf, 1, 1, by refine ⟨by constructor <;> decide +kernel, ?_⟩; decide +kernel⟩,
   ⟨up, .pf, 5, 0x83000000, by refine ⟨by constructor <;> decide +kernel, ?_⟩; decide +kernel⟩,
   ⟨(regSet (regSet up .SW_LIMIT 0 400) .SW_PANEL_CELLS 2 16), .pf, 0, 0x02000000, by decide +kernel⟩,
   ⟨(regSet up .BAST_RX_CFG 0 0x80000000), .pf, 0, 0x83000000, by refine ⟨by constructor <;> decide +kernel, ?_⟩; decide +kernel⟩,
   ⟨sw, .pf, 0, 0x83000000, by refine ⟨by constructor <;> decide +kernel, ?_⟩; decide +kernel⟩,
   ⟨swHeld, .pf, 1, 0, by refine ⟨by constructor <;> decide +kernel, ?_⟩; decide +kernel⟩,
   ⟨(regSet up .SW_PANEL_CELLS 0 4096), .pf, 1, 2, 300, by refine ⟨by constructor <;> decide +kernel, ?_⟩; decide +kernel⟩,
   ⟨(regSet sw .SW_PANEL_CELLS 0 4096), .pf, 0, 0, 0x00100010, by refine ⟨by constructor <;> decide +kernel, ?_⟩; decide +kernel⟩,
   ⟨up, .pf, 1, 2, 3, by decide +kernel⟩,
   ⟨sw, .pf, by refine ⟨by constructor <;> decide +kernel, ?_⟩; decide +kernel⟩,
   ⟨{ up with fab := { up.fab with fdb := List.replicate 131072 (1, none) } }, .pf, ⟨by decide +kernel, by rw [show fdbKey _ = 0 from by decide +kernel]; exact tabGet_replicate_other _ _ _ _ (by decide), Nat.le_of_eq (List.length_replicate).symm⟩⟩,
   ⟨sw, .pf, 1, by refine ⟨by constructor <;> decide +kernel, ?_⟩; decide +kernel⟩,
   ⟨up, .pf, by decide +kernel⟩,
   ⟨up, .pf, 2, 3, 4, 900, by refine ⟨by constructor <;> decide +kernel, ?_⟩; decide +kernel⟩,
   ⟨up, .pf, 2, 3, 4, 900, by refine ⟨by constructor <;> decide +kernel, ?_⟩; decide +kernel⟩,
   ⟨swHeld, .pf, 2, 1, 0, 900, by refine ⟨by constructor <;> decide +kernel, ?_⟩; decide +kernel⟩⟩

/-- What the clauses of GateLists ask is met. -/
theorem test_meets_GateLists :
    (∃ (s : State) (req : Requester) (p : Nat), (Canon s) ∧ (Arrives s req .TM_GCL_CMD p = true) ∧ (gclErr s p ≠ 0)) ∧
    (∃ (s : State) (req : Requester) (p : Nat), (Canon s) ∧ (Arrives s req .TM_GCL_CMD p = true) ∧ (gclErr s p = 0)) ∧
    (∃ (s : State) (req : Requester) (p : Nat), (Canon s) ∧ (Arrives s req .TM_GCL_CMD p = true) ∧ ((fabPort s p).gates.running = true)) ∧
    (∃ (s : State) (p : Nat) (l : List Word) (cyc start : Nat), (Canon s) ∧ ((fabPort s p).gates.next = some (l, cyc, start)) ∧ (s.time.everLocked = true)) ∧
    (∃ (s : State) (p : Nat), ((fabPort s p).gates.next = none ∨ s.time.everLocked = false)) ∧
    (∃ (s : State) (p : Nat), (Canon s) ∧ ((fabPort s p).gates.running = true) ∧ ((fabPort s p).gates.idx + 1 < (fabPort s p).gates.entries.length)) ∧
    (∃ (s : State) (p : Nat) (l : List Word) (cyc start : Nat), (Canon s) ∧ ((fabPort s p).gates.running = true) ∧ ((fabPort s p).gates.entries.length ≤ (fabPort s p).gates.idx + 1) ∧ ((fabPort s p).gates.next = some (l, cyc, start))) ∧
    (∃ (s : State) (p : Nat), (Canon s) ∧ ((fabPort s p).gates.running = true) ∧ ((fabPort s p).gates.entries.length ≤ (fabPort s p).gates.idx + 1) ∧ ((fabPort s p).gates.next = none) ∧ ((fabPort s p).gates.stop = false)) ∧
    (∃ (s : State) (p : Nat), (Canon s) ∧ ((fabPort s p).gates.running = true) ∧ ((fabPort s p).gates.entries.length ≤ (fabPort s p).gates.idx + 1) ∧ ((fabPort s p).gates.next = none) ∧ ((fabPort s p).gates.stop = true)) :=
  ⟨⟨up, .pf, 3, by refine ⟨by constructor <;> decide +kernel, ?_⟩; decide +kernel⟩,
   ⟨(regSet (regSet (regSet up .TM_GCL_SB_LEN 3 1) .TM_GCL_SB_CYCLE 3 125) .TM_GCL_SB_ENTRY 768 0x3F00007D), .pf, 3, by refine ⟨by constructor <;> decide +kernel, ?_⟩; decide +kernel⟩,
   ⟨swGates, .pf, 1, by refine ⟨by constructor <;> decide +kernel, ?_⟩; decide +kernel⟩,
   ⟨swGates, 1, [0x3F000064], 800, 900, by refine ⟨by constructor <;> decide +kernel, ?_⟩; decide +kernel⟩,
   ⟨up, 1, by decide +kernel⟩,
   ⟨swGates, 1, by refine ⟨by constructor <;> decide +kernel, ?_⟩; decide +kernel⟩,
   ⟨(gatesSet swGates 1 { (fabPort swGates 1).gates with idx := 1 }), 1, [0x3F000064], 800, 900, by refine ⟨by constructor <;> decide +kernel, ?_⟩; decide +kernel⟩,
   ⟨(gatesSet swGates 1 { (fabPort swGates 1).gates with idx := 1, next := none }), 1, by refine ⟨by constructor <;> decide +kernel, ?_⟩; decide +kernel⟩,
   ⟨(gatesSet swGates 1 { (fabPort swGates 1).gates with idx := 1, next := none, stop := true }), 1, by refine ⟨by constructor <;> decide +kernel, ?_⟩; decide +kernel⟩⟩

/-- What the clauses of BastingCircuits ask is met. -/
theorem test_meets_BastingCircuits :
    (∃ (s : State) (req : Requester) (n : Nat) (v : Word), (Arrives s req .BAST_CIRC_CFG n = true) ∧ (bf v 30 29 ≤ 1) ∧ (circClash s n (acceptWord .BAST_CIRC_CFG (regGet s .BAST_CIRC_CFG n) v) = true)) ∧
    (∃ (s : State) (req : Requester) (n : Nat) (v : Word), (Canon s) ∧ (Arrives s req .BAST_CIRC_CFG n = true) ∧ (bf v 30 29 ≤ 1) ∧ (circClash s n (acceptWord .BAST_CIRC_CFG (regGet s .BAST_CIRC_CFG n) v) = false) ∧ ((acceptWord .BAST_CIRC_CFG (regGet s .BAST_CIRC_CFG n) v) ≠ regGet s .BAST_CIRC_CFG n) ∧ (bit (acceptWord .BAST_CIRC_CFG (regGet s .BAST_CIRC_CFG n) v) 31 = true ∨ circEn s n = true)) ∧
    (∃ (s : State) (n : Nat), (Canon s) ∧ ((circ s n).state = .relock)) ∧
    (∃ (s : State) (n : Nat), (Canon s) ∧ (circEn s n = true) ∧ (circOrig s n = false) ∧ ((circ s n).state = .up)) ∧
    (∃ (s : State) (n : Nat), (Canon s) ∧ ((circ s n).state = .lossOfLock)) ∧
    (∃ (s : State) (req : Requester) (n : Nat) (v : Word), (Canon s) ∧ (Arrives s req .BAST_RX_CFG n = true) ∧ ((bit (acceptWord .BAST_RX_CFG (regGet s .BAST_RX_CFG n) v) 31 && (laneOfPort s (bf (acceptWord .BAST_RX_CFG (regGet s .BAST_RX_CFG n) v) 8 0) || rxOn s n (bf (acceptWord .BAST_RX_CFG (regGet s .BAST_RX_CFG n) v) 8 0) true || rxOn s n (bf (acceptWord .BAST_RX_CFG (regGet s .BAST_RX_CFG n) v) 8 0) false || (passFrom s 32 (bf (acceptWord .BAST_RX_CFG (regGet s .BAST_RX_CFG n) v) 8 0) && !bit (acceptWord .BAST_RX_CFG (regGet s .BAST_RX_CFG n) v) 30))) = false)) ∧
    (∃ (s : State) (req : Requester) (n : Nat) (v : Word), (Arrives s req .BAST_RX_CFG n = true) ∧ ((bit (acceptWord .BAST_RX_CFG (regGet s .BAST_RX_CFG n) v) 31 && (laneOfPort s (bf (acceptWord .BAST_RX_CFG (regGet s .BAST_RX_CFG n) v) 8 0) || rxOn s n (bf (acceptWord .BAST_RX_CFG (regGet s .BAST_RX_CFG n) v) 8 0) true || rxOn s n (bf (acceptWord .BAST_RX_CFG (regGet s .BAST_RX_CFG n) v) 8 0) false || (passFrom s 32 (bf (acceptWord .BAST_RX_CFG (regGet s .BAST_RX_CFG n) v) 8 0) && !bit (acceptWord .BAST_RX_CFG (regGet s .BAST_RX_CFG n) v) 30))) = true)) ∧
    (∃ (s : State) (n : Nat), (Canon s) ∧ (rxEn s n = true) ∧ (domOn s 12 = true)) ∧
    (∃ (s : State) (n : Nat), (Canon s)) :=
  ⟨⟨sw, .pf, 3, 0xA0000000, by decide +kernel⟩,
   ⟨up, .pf, 3, 0xA0000000, by refine ⟨by constructor <;> decide +kernel, ?_⟩; decide +kernel⟩,
   ⟨(circSet up 3 ⟨.relock, 4⟩), 3, by refine ⟨by constructor <;> decide +kernel, ?_⟩; decide +kernel⟩,
   ⟨(circSet (regSet up .BAST_CIRC_CFG 3 0x80010002) 3 ⟨.up, 4⟩), 3, by refine ⟨by constructor <;> decide +kernel, ?_⟩; decide +kernel⟩,
   ⟨(circSet up 3 ⟨.lossOfLock, 4⟩), 3, by refine ⟨by constructor <;> decide +kernel, ?_⟩; decide +kernel⟩,
   ⟨up, .pf, 3, 0x80000000, by refine ⟨by constructor <;> decide +kernel, ?_⟩; decide +kernel⟩,
   ⟨sw, .pf, 3, 0x80000000, by decide +kernel⟩,
   ⟨(regSet up .BAST_RX_CFG 3 0x80000000), 3, by refine ⟨by constructor <;> decide +kernel, ?_⟩; decide +kernel⟩,
   ⟨(tackRxSet up 3 ⟨true, true, []⟩), 3, by constructor <;> decide +kernel⟩⟩

/-- What the clauses of TackWords ask is met. -/
theorem test_meets_TackWords :
    (∃ (s : State) (n : Nat) (w : BitVec 256), (Canon s) ∧ (n < 32) ∧ ((tackRx s n).aligned = true) ∧ (rxEn s n = true) ∧ (domOn s 12 = true) ∧ (tackCrc w ≠ (tackParse w).crc)) ∧
    (∃ (s : State) (n : Nat) (w : BitVec 256), (n < 32) ∧ ((tackRx s n).aligned = true) ∧ (rxEn s n = true) ∧ (domOn s 12 = true) ∧ (tackCrc w = (tackParse w).crc) ∧ ((tackRx s n).acted.contains ((tackParse w).src.toNat, (tackParse w).seq.toNat) = true)) ∧
    (∃ (s : State) (n : Nat) (w : BitVec 256) (c : Coll), (n < 32) ∧ ((tackRx s n).aligned = true) ∧ (rxEn s n = true) ∧ (domOn s 12 = true) ∧ (tackCrc w = (tackParse w).crc) ∧ ((tackParse w).typ ≠ 0) ∧ ((tackRx s n).acted.contains ((tackParse w).src.toNat, (tackParse w).seq.toNat) = false) ∧ ((tackColl s (tackParse w) false).toOption = some c)) ∧
    (∃ (s : State) (n : Nat) (w : BitVec 256), (n < 32) ∧ ((tackRx s n).aligned = true) ∧ (rxEn s n = true) ∧ (domOn s 12 = true) ∧ (tackCrc w = (tackParse w).crc) ∧ ((tackParse w).typ ≠ 0) ∧ ((tackRx s n).acted.contains ((tackParse w).src.toNat, (tackParse w).seq.toNat) = false) ∧ ((tackColl s (tackParse w) false).toOption = none)) ∧
    (∃ (s : State) (ch : Nat) (w : BitVec 256) (c : Coll) (j : Nat), (ch < 64) ∧ (chEn s ch = true) ∧ (workCh s (chGroup s ch) = ch ∨ (protEn s (chGroup s ch) = true ∧ protCh s (chGroup s ch) = ch)) ∧ ((lineCh s ch).defects = 0) ∧ (tackCrc w = (tackParse w).crc) ∧ ((tackParse w).typ ≠ 0) ∧ ((lineGrp s (chGroup s ch)).acted.contains ((tackParse w).src.toNat, (tackParse w).seq.toNat) = false) ∧ ((tackColl s (tackParse w) true).toOption = some c) ∧ (groupSite s c (chGroup s ch) = some j)) ∧
    (∃ (s : State) (ch : Nat) (w : BitVec 256), ((lineGrp s (chGroup s ch)).acted.contains ((tackParse w).src.toNat, (tackParse w).seq.toNat) = true)) :=
  ⟨⟨rxUp, 3, 1, by refine ⟨by constructor <;> decide +kernel, ?_⟩; decide +kernel⟩,
   ⟨(tackRxSet rxUp 3 ⟨true, true, [(9, 7)]⟩), 3, (tackSeal { sync := tackSync, typ := 4, cause := 0, panel := 0, hold := false, flagsResv := 0, seq := 7, src := 9, coll := 77, epoch := 0, aux := 0, resv := 0, crc := 0 }), by decide +kernel⟩,
   ⟨rxUp, 3, (tackSeal { sync := tackSync, typ := 4, cause := 0, panel := 0, hold := false, flagsResv := 0, seq := 7, src := 9, coll := 77, epoch := 0, aux := 0, resv := 0, crc := 0 }), coll0, by decide +kernel⟩,
   ⟨{ rxUp with cco := up.cco }, 3, (tackSeal { sync := tackSync, typ := 4, cause := 0, panel := 0, hold := false, flagsResv := 0, seq := 7, src := 9, coll := 77, epoch := 0, aux := 0, resv := 0, crc := 0 }), by decide +kernel⟩,
   ⟨lineUp, 0, (tackSeal { sync := tackSync, typ := 4, cause := 0, panel := 0, hold := false, flagsResv := 0, seq := 7, src := 9, coll := 77, epoch := 0, aux := 0, resv := 0, crc := 0 }), collSpan, 1, by decide +kernel⟩,
   ⟨(lineGrpSet lineUp 0 { LineGrp.reset with acted := [(9, 7)] }), 0, (tackSeal { sync := tackSync, typ := 4, cause := 0, panel := 0, hold := false, flagsResv := 0, seq := 7, src := 9, coll := 77, epoch := 0, aux := 0, resv := 0, crc := 0 }), by decide +kernel⟩⟩

/-- What the clauses of SegmentsSent ask is met. -/
theorem test_meets_SegmentsSent :
    (∃ (s u : State) (k : Nat) (g : DataSeg) (r : List DataSeg) (bs : List Byte), (u = keyForSegment (if nearClose (sessBoundary s k) k then sealOpen (sessBoundary s k) k else sessBoundary s k) k) ∧ ((selvGet u k).state = .open) ∧ (mayStart u k = true) ∧ ((selvGet u k).held.find? (fun h => h.due && winAllows u k h.seg) = none) ∧ ((selvGet u k).queue = g :: r) ∧ (precedes (selvGet u k).sndNxt ((selvGet u k).sndUna + BitVec.ofNat 32 (regBf u .SELV_SESS_WIN k 24 0)) = true) ∧ (precedes (selvGet u k).sndNxt (selvGet u k).peerRwnd = true) ∧ (winAllows u k g = true) ∧ ((slotRead u g).1 = some bs)) ∧
    (∃ (s u : State) (k : Nat), (u = keyForSegment (if nearClose (sessBoundary s k) k then sealOpen (sessBoundary s k) k else sessBoundary s k) k) ∧ (sessSends (selvGet u k) = false)) ∧
    (∃ (s u : State) (k : Nat), (u = keyForSegment (if nearClose (sessBoundary s k) k then sealOpen (sessBoundary s k) k else sessBoundary s k) k) ∧ (sessSends (selvGet u k) = true) ∧ (mayStart u k = false)) ∧
    (∃ (s u : State) (k : Nat) (h : HeldSeg) (bs : List Byte), (u = keyForSegment (if nearClose (sessBoundary s k) k then sealOpen (sessBoundary s k) k else sessBoundary s k) k) ∧ (sessSends (selvGet u k) = true) ∧ (mayStart u k = true) ∧ (mayStart (keyForSegment u k) k = true) ∧ ((selvGet u k).held.find? (fun h => h.due && winAllows u k h.seg) = some h) ∧ (winAllows (keyForSegment u k) k h.seg = true) ∧ ((selvGet u k).held.find? (fun g => g.seq == h.seq) = some h) ∧ (h.sent ≤ rtxMax u k) ∧ ((slotRead (keyForSegment u k) h.seg).1 = some bs)) ∧
    (∃ (s : State) (k : Nat) (q : Word) (h : HeldSeg) (bs : List Byte), (sessSends (selvGet s k) = true) ∧ (mayStart (keyForSegment s k) k = true) ∧ ((selvGet s k).held.find? (fun g => g.seq == q) = some h) ∧ (h.sent ≤ rtxMax s k) ∧ (winAllows (keyForSegment s k) k h.seg = true) ∧ ((slotRead (keyForSegment s k) h.seg).1 = some bs)) ∧
    (∃ (s : State) (k : Nat) (q : Word) (h : HeldSeg), (Canon s) ∧ (sessSends (selvGet s k) = true) ∧ ((selvGet s k).held.find? (fun g => g.seq == q) = some h) ∧ (rtxMax s k < h.sent)) ∧
    (∃ (s : State) (k : Nat) (g : DataSeg), (Canon s) ∧ ((selvGet s k).openSeg = some g)) ∧
    (∃ (s : State) (k : Nat), ((selvGet s k).openSeg = none)) ∧
    (∃ (s : State) (k : Nat), (Canon s) ∧ (0 < (selvGet s k).accepted) ∧ (ctlGoes s k = true)) ∧
    (∃ (s : State) (k : Nat), (Canon s) ∧ (0 < (selvGet s k).accepted) ∧ (ctlGoes s k = false)) ∧
    (∃ (s : State) (k : Nat), ((selvGet s k).accepted = 0)) ∧
    (∃ (s : State) (k : Nat), (Canon s) ∧ ((selvGet s k).state = .open) ∧ ((selvGet s k).held ≠ [])) ∧
    (∃ (s : State) (k : Nat), (Canon s) ∧ ((selvGet s k).state = .closing)) ∧
    (∃ (s : State) (k : Nat), ((selvGet s k).state ≠ .closing) ∧ ((selvGet s k).state ≠ .open ∨ (selvGet s k).held = [])) :=
  ⟨⟨selUp { SelvSess.reset with state := .open, queue := [dseg 0], peerRwnd := 5 }, _, 3, dseg 0, [], List.replicate 64 0, rfl, by decide +kernel⟩,
   ⟨up, _, 3, rfl, by decide +kernel⟩,
   ⟨regSet (selUp { SelvSess.reset with state := .open }) .LINE_CH_CFG 0 0, _, 3, rfl, by decide +kernel⟩,
   ⟨selUp { SelvSess.reset with state := .open, held := [⟨0, dseg 0, 0, 1, true⟩] }, _, 3, ⟨0, dseg 0, 0, 1, true⟩, List.replicate 64 0, rfl, by decide +kernel⟩,
   ⟨(selUp { SelvSess.reset with state := .open, held := [⟨0, dseg 0, 0, 1, false⟩] }), 3, 0, ⟨0, dseg 0, 0, 1, false⟩, List.replicate 64 0, by decide +kernel⟩,
   ⟨(selUp { SelvSess.reset with state := .open, held := [⟨0, dseg 0, 0, 9, false⟩] }), 3, 0, ⟨0, dseg 0, 0, 9, false⟩, by refine ⟨by constructor <;> decide +kernel, ?_⟩; decide +kernel⟩,
   ⟨(selUp { SelvSess.reset with state := .open, openSeg := some (dseg 4) }), 3, dseg 4, by refine ⟨by constructor <;> decide +kernel, ?_⟩; decide +kernel⟩,
   ⟨up, 3, by decide +kernel⟩,
   ⟨(selUp { SelvSess.reset with state := .open, accepted := 2 }), 3, by refine ⟨by constructor <;> decide +kernel, ?_⟩; decide +kernel⟩,
   ⟨regSet (selUp { SelvSess.reset with state := .open, accepted := 2 }) .LINE_CH_CFG 0 0, 3, by refine ⟨by constructor <;> decide +kernel, ?_⟩; decide +kernel⟩,
   ⟨up, 3, by decide +kernel⟩,
   ⟨(selUp { SelvSess.reset with state := .open, held := [⟨0, dseg 0, 0, 9, false⟩] }), 3, by refine ⟨by constructor <;> decide +kernel, ?_⟩; decide +kernel⟩,
   ⟨(selUp { SelvSess.reset with state := .closing, held := [⟨0, dseg 0, 0, 9, false⟩] }), 3, by refine ⟨by constructor <;> decide +kernel, ?_⟩; decide +kernel⟩,
   ⟨up, 3, by decide +kernel⟩⟩

/-- What the clauses of SegmentChecks ask is met. -/
theorem test_meets_SegmentChecks :
    (∃ (s : State) (g : RxSegment), (segWf g = false)) ∧
    (∃ (s : State) (g : RxSegment), (segWf g = true) ∧ (g.hdr.typ = 3) ∧ (recvState (selvGet s g.hdr.dst) = .closed ∨ recvState (selvGet s g.hdr.dst) = .keywait ∨ recvState (selvGet s g.hdr.dst) = .admission)) ∧
    (∃ (s : State) (g : RxSegment), (segWf g = true) ∧ (g.hdr.typ ≠ 3) ∧ (regBf s .SELV_SESS_PEER g.hdr.dst 11 0 ≠ g.hdr.src)) ∧
    (∃ (s : State) (g : RxSegment), (segWf g = true) ∧ ((recvState (selvGet s g.hdr.dst) = .opening ∨ recvState (selvGet s g.hdr.dst) = .open ∨ recvState (selvGet s g.hdr.dst) = .closing)) ∧ (regBf s .SELV_SESS_PEER g.hdr.dst 11 0 = g.hdr.src) ∧ (sessValid s g.hdr.dst = true) ∧ (alarmLatched s = true ∨ domOn s 19 = false)) ∧
    (∃ (s : State) (g : RxSegment), (g.hdr.typ = 1) ∧ ((recvChecks s g).1 = none)) ∧
    (∃ (s : State) (g : RxSegment), (g.hdr.typ = 2) ∧ ((recvChecks s g).1 = none)) ∧
    (∃ (s : State) (g : RxSegment), (g.hdr.typ = 3) ∧ ((recvChecks s g).1 = none)) ∧
    (∃ (s : State) (g : RxSegment), (g.hdr.typ = 4) ∧ ((recvChecks s g).1 = none)) ∧
    (∃ (s : State) (g : RxSegment), (g.hdr.typ = 5) ∧ ((recvChecks s g).1 = none)) :=
  ⟨⟨up, { rxSeg 1 0 [] with cells := 9 }, by decide +kernel⟩,
   ⟨up, rxSeg 3 0 [], by decide +kernel⟩,
   ⟨up, rxSeg 1 0 [], by decide +kernel⟩,
   ⟨{ selUp { SelvSess.reset with state := .open } with thm := { (selUp SelvSess.reset).thm with alarm := 0x80000001 } }, rxSeg 1 0 [], by decide +kernel⟩,
   ⟨up, rxSeg 1 0 [], by decide +kernel⟩,
   ⟨up, rxSeg 2 0 [], by decide +kernel⟩,
   ⟨up, rxSeg 3 0 [], by decide +kernel⟩,
   ⟨up, rxSeg 4 0 [], by decide +kernel⟩,
   ⟨up, rxSeg 5 0 [], by decide +kernel⟩⟩

/-- What the clauses of SegmentsReceived ask is met. -/
theorem test_meets_SegmentsReceived :
    (∃ (s : State) (g : RxSegment) (k : Nat), (g.hdr.typ = 1) ∧ ((recvChecks s g).1 = some k) ∧ (sessKind (recvChecks s g).2 k = 0) ∧ (precedes g.hdr.seq (selvGet (recvChecks s g).2 k).rcvExp = false) ∧ ((selvGet (recvChecks s g).2 k).store.any (fun h => h.seq == g.hdr.seq) = false) ∧ (precedes g.hdr.seq (selvGet (recvChecks s g).2 k).rwndEnd = true)) ∧
    (∃ (s : State) (g : RxSegment) (k : Nat), (g.hdr.typ = 1) ∧ ((recvChecks s g).1 = some k) ∧ (precedes g.hdr.seq (selvGet (recvChecks s g).2 k).rcvExp = true ∨ (selvGet (recvChecks s g).2 k).store.any (fun h => h.seq == g.hdr.seq) = true)) ∧
    (∃ (s : State) (g : RxSegment) (k : Nat), (g.hdr.typ = 1) ∧ ((recvChecks s g).1 = some k) ∧ (precedes g.hdr.seq (selvGet (recvChecks s g).2 k).rcvExp = false) ∧ ((selvGet (recvChecks s g).2 k).store.any (fun h => h.seq == g.hdr.seq) = false) ∧ (precedes g.hdr.seq (selvGet (recvChecks s g).2 k).rwndEnd = false)) ∧
    (∃ (s : State) (g : RxSegment) (k : Nat), (Canon s) ∧ (g.hdr.typ = 2) ∧ ((recvChecks s g).1 = some k) ∧ ((((selvGet (recvChecks s g).2 k).held.filter (fun q => !(ackBlocks g.payload).any (fun b => inBlock b q.seq))).filter (fun q => decide (3 ≤ above (ackBlocks g.payload) q.seq ∧ q.lastUs + regBf (recvChecks s g).2 .SELV_SESS_RTT k 15 0 ≤ s.localUs))) = [])) ∧
    (∃ (s : State) (g : RxSegment) (k : Nat), (Canon (recvChecks s g).2) ∧ (g.hdr.typ = 3) ∧ ((recvChecks s g).1 = some k) ∧ (g.hdr.kind ≠ sessKind (recvChecks s g).2 k)) ∧
    (∃ (s : State) (g : RxSegment) (k : Nat), (Canon s) ∧ (g.hdr.typ = 3) ∧ ((recvChecks s g).1 = some k) ∧ (g.hdr.kind = sessKind (recvChecks s g).2 k) ∧ (mayStart (keyForSegment (recvChecks s g).2 k) k = true) ∧ ((selvGet (recvChecks s g).2 k).state = .opening) ∧ ((selvGet (recvChecks s g).2 k).oackRecv = true)) ∧
    (∃ (s : State) (g : RxSegment) (k : Nat), (Canon s) ∧ (g.hdr.typ = 3) ∧ ((recvChecks s g).1 = some k) ∧ (g.hdr.kind = sessKind (recvChecks s g).2 k) ∧ ((selvGet (recvChecks s g).2 k).oackRecv = false)) ∧
    (∃ (s : State) (g : RxSegment) (k : Nat), (Canon s) ∧ (g.hdr.typ = 4) ∧ ((recvChecks s g).1 = some k) ∧ ((selvGet (recvChecks s g).2 k).state = .opening) ∧ ((selvGet (recvChecks s g).2 k).oackSent = true)) ∧
    (∃ (s : State) (g : RxSegment) (k : Nat), (Canon s) ∧ (g.hdr.typ = 5) ∧ ((recvChecks s g).1 = some k)) :=
  ⟨⟨(regSet (selUp { SelvSess.reset with state := .open, rwndEnd := 5 }) .SELV_SESS_CFG 3 0x80000000), (rxOf { rxHdr 1 0 1 with kind := 0 } [1]), 3, by decide +kernel⟩,
   ⟨(selUp { SelvSess.reset with state := .open, rcvExp := 2 }), rxSeg 1 0 [1], 3, by decide +kernel⟩,
   ⟨(selUp { SelvSess.reset with state := .open }), rxSeg 1 7 [1], 3, by decide +kernel⟩,
   ⟨(selUp { SelvSess.reset with state := .open, held := [⟨0, dseg 0, 0, 1, false⟩], sndNxt := 1 }), rxSeg 2 0 (ackPayload SelvSess.reset), 3, by refine ⟨by constructor <;> decide +kernel, ?_⟩; decide +kernel⟩,
   ⟨(selUp { SelvSess.reset with state := .opening }), (rxOf { rxHdr 3 0 0 with kind := 0 } []), 3, by refine ⟨by constructor <;> decide +kernel, ?_⟩; decide +kernel⟩,
   ⟨(selUp { SelvSess.reset with state := .opening, oackRecv := true }), rxSeg 3 0 [], 3, by refine ⟨by constructor <;> decide +kernel, ?_⟩; decide +kernel⟩,
   ⟨(selUp { SelvSess.reset with state := .opening }), rxSeg 3 0 [], 3, by refine ⟨by constructor <;> decide +kernel, ?_⟩; decide +kernel⟩,
   ⟨(selUp { SelvSess.reset with state := .opening, oackSent := true }), rxSeg 4 0 [], 3, by refine ⟨by constructor <;> decide +kernel, ?_⟩; decide +kernel⟩,
   ⟨(selUp { SelvSess.reset with state := .open }), rxSeg 5 0 [], 3, by refine ⟨by constructor <;> decide +kernel, ?_⟩; decide +kernel⟩⟩

/-- What the clauses of SessionLife ask is met. -/
theorem test_meets_SessionLife :
    (∃ (s : State) (req : Requester) (k : Nat), (Canon s) ∧ (Arrives s req .SELV_SESS_CTRL k = true) ∧ (sessValid s k = true) ∧ ((selvGet s k).state = .closed ∨ (selvGet s k).state = .fault) ∧ ((keySlot s (activeSlot s k)).state ≠ .valid)) ∧
    (∃ (s : State) (req : Requester) (k : Nat), (Canon s) ∧ (Arrives s req .SELV_SESS_CTRL k = true) ∧ (sessValid s k = true) ∧ ((selvGet s k).state = .closed ∨ (selvGet s k).state = .fault) ∧ ((keySlot s (activeSlot s k)).state = .valid)) ∧
    (∃ (s : State) (req : Requester) (k : Nat), (Arrives s req .SELV_SESS_CTRL k = true) ∧ (sessValid s k = false ∨ ((selvGet s k).state ≠ .closed ∧ (selvGet s k).state ≠ .fault))) ∧
    (∃ (s : State), (Canon s)) ∧
    (∃ (s : State) (k : Nat), ((selvGet s k).state = .opening) ∧ (mayStart (keyForSegment s k) k = true)) ∧
    (∃ (s : State) (k : Nat), ((selvGet s k).state ≠ .opening)) ∧
    (∃ (s : State) (req : Requester) (k : Nat), (Canon s) ∧ (Arrives s req .SELV_SESS_CTRL k = true) ∧ ((selvGet s k).state ≠ .closed) ∧ ((selvGet s k).state ≠ .fault) ∧ ((selvGet s k).state ≠ .closing)) ∧
    (∃ (s : State) (k : Nat), ((selvGet s k).state ≠ .closing ∨ (selvGet s k).held ≠ [])) ∧
    (∃ (s : State) (k : Nat), (Canon s) ∧ ((selvGet s k).state = .closing) ∧ ((selvGet s k).held = []) ∧ (1 < (selvGet s k).closesLeft) ∧ (mayStart (keyForSegment (sessDiscard s k false) k) k = true)) ∧
    (∃ (s : State) (k : Nat), (Canon s) ∧ ((selvGet s k).state = .closing) ∧ ((selvGet s k).held = []) ∧ ((selvGet s k).closesLeft ≤ 1)) ∧
    (∃ (s : State) (req : Requester) (k : Nat) (v : Word), (Arrives s req .SELV_SESS_CFG k = true) ∧ ((selvGet s k).state ≠ .closed) ∧ (bf (acceptWord .SELV_SESS_CFG (rwsBase s .SELV_SESS_CFG k) v) 30 25 ≠ bf (regGet s .SELV_SESS_CFG k) 30 25 ∨ bf (acceptWord .SELV_SESS_CFG (rwsBase s .SELV_SESS_CFG k) v) 21 16 ≠ bf (regGet s .SELV_SESS_CFG k) 21 16)) ∧
    (∃ (s : State) (req : Requester) (k : Nat) (v : Word), (Canon s) ∧ (Arrives s req .SELV_SESS_CFG k = true) ∧ ((selvGet s k).state = .closed)) ∧
    (∃ (s : State) (req : Requester) (k : Nat) (v : Word), (Canon s) ∧ (Arrives s req .SELV_SESS_CFG k = true) ∧ ((selvGet s k).state ≠ .closed) ∧ (bf (acceptWord .SELV_SESS_CFG (rwsBase s .SELV_SESS_CFG k) v) 30 25 = bf (regGet s .SELV_SESS_CFG k) 30 25) ∧ (bf (acceptWord .SELV_SESS_CFG (rwsBase s .SELV_SESS_CFG k) v) 21 16 = bf (regGet s .SELV_SESS_CFG k) 21 16)) :=
  ⟨⟨(regSet up .SELV_SESS_CFG 3 0x80000000), .pf, 3, by refine ⟨by constructor <;> decide +kernel, ?_⟩; decide +kernel⟩,
   ⟨(selUp { SelvSess.reset with started := true, gen := 4 }), .pf, 3, by refine ⟨by constructor <;> decide +kernel, ?_⟩; decide +kernel⟩,
   ⟨up, .pf, 3, by decide +kernel⟩,
   ⟨(let s := selUp { SelvSess.reset with state := .admission }; { s with selv := { s.selv with admission := [3] } }), by constructor <;> decide +kernel⟩,
   ⟨(selUp { SelvSess.reset with state := .opening }), 3, by decide +kernel⟩,
   ⟨up, 3, by decide +kernel⟩,
   ⟨(selUp { SelvSess.reset with state := .open }), .pf, 3, by refine ⟨by constructor <;> decide +kernel, ?_⟩; decide +kernel⟩,
   ⟨up, 3, by decide +kernel⟩,
   ⟨(selUp { SelvSess.reset with state := .closing, closesLeft := 3 }), 3, by refine ⟨by constructor <;> decide +kernel, ?_⟩; decide +kernel⟩,
   ⟨(selUp { SelvSess.reset with state := .closing, closesLeft := 1 }), 3, by refine ⟨by constructor <;> decide +kernel, ?_⟩; decide +kernel⟩,
   ⟨(selUp { SelvSess.reset with state := .open }), .pf, 3, 0x80000005, by decide +kernel⟩,
   ⟨up, .pf, 3, 0x80000005, by refine ⟨by constructor <;> decide +kernel, ?_⟩; decide +kernel⟩,
   ⟨(selUp { SelvSess.reset with state := .open }), .pf, 3, 0x82000006, by refine ⟨by constructor <;> decide +kernel, ?_⟩; decide +kernel⟩⟩

/-- What the clauses of TwinStandby ask is met. -/
theorem test_meets_TwinStandby :
    (∃ (s : State), (twinActive s = true)) ∧
    (∃ (s : State) (q : Word) (recs : List TwinRec), (twinStandby s = true)) ∧
    (∃ (s : State) (q : Word) (n : Nat) (crc : Word) (page : List TwinRec), (twinStandby s = true) ∧ (page = sortBy (fun r => r.sess) (if s.selv.twin.busy ∧ s.selv.twin.incomingSeq = q then s.selv.twin.incoming else [])) ∧ (page.length = n) ∧ (crc32c (page.flatMap twinBytes) = crc)) ∧
    (∃ (s : State) (q : Word) (n : Nat) (crc : Word), (twinStandby s = true) ∧ ((let page := sortBy (fun r => r.sess) (if s.selv.twin.busy ∧ s.selv.twin.incomingSeq = q then s.selv.twin.incoming else []); ¬ (page.length = n ∧ crc32c (page.flatMap twinBytes) = crc)))) ∧
    (∃ (s : State) (q : Word), (Canon s) ∧ (twinActive s = true) ∧ (s.selv.twin.busy = true) ∧ (s.selv.twin.copySeq = q)) ∧
    (∃ (s : State) (req : Requester) (page : List TwinRec), (Canon s) ∧ (Arrives s req .SELV_TWIN_CMD 0 = true) ∧ (twinStandby s = true) ∧ (s.selv.twin.page = some page)) ∧
    (∃ (s : State) (req : Requester), (Arrives s req .SELV_TWIN_CMD 0 = true) ∧ (twinStandby s = false ∨ s.selv.twin.page = none)) ∧
    (∃ (s : State) (page : List TwinRec), (Canon s) ∧ (twinStandby s = true) ∧ (regBit s .SELV_TWIN_CFG 0 29 = true) ∧ (s.selv.twin.page = some page)) ∧
    (∃ (s : State), (twinStandby s = false ∨ regBit s .SELV_TWIN_CFG 0 29 = false)) :=
  ⟨⟨(regSet (selUp SelvSess.reset) .SELV_TWIN_CFG 0 0x80000000), by decide +kernel⟩,
   ⟨(regSet up .SELV_TWIN_CFG 0 0xC0000000), 1, [], by decide +kernel⟩,
   ⟨(regSet up .SELV_TWIN_CFG 0 0xC0000000), 1, 0, (crc32c []), [], by decide +kernel⟩,
   ⟨(regSet up .SELV_TWIN_CFG 0 0xC0000000), 1, 3, 0, by decide +kernel⟩,
   ⟨(let s := regSet up .SELV_TWIN_CFG 0 0x80000000; { s with selv := { s.selv with twin := { s.selv.twin with busy := true, copySeq := 4, resv := [(3, 70)] } } }), 4, by refine ⟨by constructor <;> decide +kernel, ?_⟩; decide +kernel⟩,
   ⟨(let s := regSet up .SELV_TWIN_CFG 0 0xC0000000; { s with selv := { s.selv with twin := { s.selv.twin with page := some [] } } }), .pf, [], by refine ⟨by constructor <;> decide +kernel, ?_⟩; decide +kernel⟩,
   ⟨up, .pf, by decide +kernel⟩,
   ⟨(let s := regSet up .SELV_TWIN_CFG 0 0xE0000000; { s with selv := { s.selv with twin := { s.selv.twin with page := some [] } } }), [], by refine ⟨by constructor <;> decide +kernel, ?_⟩; decide +kernel⟩,
   ⟨up, by decide +kernel⟩⟩

/-- What the clauses of ConnectionMemory ask is met. -/
theorem test_meets_ConnectionMemory :
    (∃ (s : State) (req : Requester) (g : Nat), (Canon s) ∧ (Arrives s req .LINE_GRP_CM_CTRL g = true) ∧ ((lineGrp s g).checking = false) ∧ ((lineGrp s g).txWait = false) ∧ ((lineGrp s g).rxWait = false)) ∧
    (∃ (s : State) (req : Requester) (g : Nat), (Canon s) ∧ (Arrives s req .LINE_GRP_CM_CTRL g = true) ∧ ((lineGrp s g).checking = true ∨ (lineGrp s g).txWait = true ∨ (lineGrp s g).rxWait = true)) ∧
    (∃ (s : State) (g : Nat), (Canon s) ∧ ((lineGrp s g).checking = true) ∧ (cmErr s g = 0)) ∧
    (∃ (s : State) (g : Nat), (Canon s) ∧ ((lineGrp s g).checking = true) ∧ (cmErr s g ≠ 0)) ∧
    (∃ (s : State) (g : Nat), ((lineGrp s g).checking = false)) ∧
    (∃ (s : State) (req : Requester) (g : Nat), (Canon s) ∧ (Arrives s req .LINE_GRP_CM_CTRL g = true)) ∧
    (∃ (s : State) (req : Requester) (addr : Nat) (v : Word) (i : Nat), (Canon s) ∧ (WritesAt s req addr .LINE_CM_TX_SB i = true) ∧ ((lineGrp s (i / 640)).sbValid = true)) ∧
    (∃ (s : State) (g : Nat), (Canon s) ∧ (regBit s .LINE_GRP_PROT g 30 = true) ∧ ((lineGrp s g).sel = 2) ∧ ((lineCh s (workCh s g)).defects = 0)) ∧
    (∃ (s : State) (g : Nat), ((lineGrp s g).sel ≠ 2 ∨ regBit s .LINE_GRP_PROT g 30 = false ∨ (lineCh s (workCh s g)).defects ≠ 0)) :=
  ⟨⟨up, .pf, 2, by refine ⟨by constructor <;> decide +kernel, ?_⟩; decide +kernel⟩,
   ⟨(lineGrpSet up 2 { LineGrp.reset with checking := true }), .pf, 2, by refine ⟨by constructor <;> decide +kernel, ?_⟩; decide +kernel⟩,
   ⟨cmGood, 2, ⟨by constructor <;> decide +kernel, by decide +kernel, cmGood_err⟩⟩,
   ⟨(lineGrpSet up 2 { LineGrp.reset with checking := true }), 2, ⟨by constructor <;> decide +kernel, by decide +kernel, cmErr_gen0 _ _ (by decide +kernel)⟩⟩,
   ⟨up, 2, by decide +kernel⟩,
   ⟨(regSet up .LINE_CM_TX_SB 1281 0x80000003), .pf, 2, by refine ⟨by constructor <;> decide +kernel, ?_⟩; decide +kernel⟩,
   ⟨lineGrpSet up 2 { LineGrp.reset with sbValid := true }, .pf, addrOf .pf .LINE_CM_TX_SB 1280, 5, 1280, by refine ⟨by constructor <;> decide +kernel, ?_⟩; decide +kernel⟩,
   ⟨(lineGrpSet (regSet up .LINE_GRP_PROT 2 0xC0000100) 2 { LineGrp.reset with sel := 2 }), 2, by refine ⟨by constructor <;> decide +kernel, ?_⟩; decide +kernel⟩,
   ⟨up, 2, by decide +kernel⟩⟩

/-- What the clauses of LineFrames ask is met. -/
theorem test_meets_LineFrames :
    (∃ (s : State) (req : Requester) (k : Nat) (v : Word), (Arrives s req .LINE_CH_CFG k = true) ∧ (lineChBad s k (acceptWord .LINE_CH_CFG (rwsBase s .LINE_CH_CFG k) v) = true)) ∧
    (∃ (s : State) (req : Requester) (k : Nat) (v : Word), (Canon s) ∧ (Arrives s req .LINE_CH_CFG k = true) ∧ (lineChBad s k (acceptWord .LINE_CH_CFG (rwsBase s .LINE_CH_CFG k) v) = false) ∧ (chEn s k = true)) ∧
    (∃ (s : State) (req : Requester) (k : Nat) (v : Word), (Canon s) ∧ (Arrives s req .LINE_CH_CFG k = true) ∧ (lineChBad s k (acceptWord .LINE_CH_CFG (rwsBase s .LINE_CH_CFG k) v) = false) ∧ (chEn s k = false) ∧ ((optCh s k).los = false)) ∧
    (∃ (s : State) (req : Requester) (g : Nat) (v : Word), (Arrives s req .LINE_GRP_CFG g = true) ∧ (members s g ≠ []) ∧ (bf (regGet s .LINE_GRP_CFG g) 30 30 ≠ bf (acceptWord .LINE_GRP_CFG (rwsBase s .LINE_GRP_CFG g) v) 30 30 ∨ bf (regGet s .LINE_GRP_CFG g) 15 0 ≠ bf (acceptWord .LINE_GRP_CFG (rwsBase s .LINE_GRP_CFG g) v) 15 0)) ∧
    (∃ (s : State) (req : Requester) (g : Nat) (v : Word), (Canon s) ∧ (Arrives s req .LINE_GRP_CFG g = true) ∧ (members s g = [])) ∧
    (∃ (s : State) (req : Requester) (k : Nat), (Canon s) ∧ (Arrives s req .LINE_CH_CMD k = true) ∧ (chEn s k = true) ∧ ((lineCh s k).mstate ≠ 2)) ∧
    (∃ (s : State) (req : Requester) (k : Nat), (Canon s) ∧ (Arrives s req .LINE_CH_CMD k = true) ∧ (chEn s k = true)) ∧
    (∃ (s : State) (req : Requester) (k : Nat), (Arrives s req .LINE_CH_CMD k = true) ∧ (chEn s k = false)) ∧
    (∃ (s : State) (g phase : Nat), (Canon s) ∧ (domOn s 18 = true) ∧ (regBit s .LINE_GRP_CFG g 31 = true)) ∧
    (∃ (s : State) (k : Nat) (f : RxLineFrame), (Canon s) ∧ (chEn s k = true) ∧ (k < 64) ∧ (domOn s 18 = true) ∧ (domOn s (dieDom (k / 16)) = true) ∧ (f.fasOk = true) ∧ ((lineCh (alignCount (frameCounts (ctrAdd (ctrAdd s .LINE_CH_CNT_FEC_CORR k f.fecCorr) .LINE_CH_CNT_FEC_UNCORR k f.fecUncorr) k f) k) k).defects = 0)) ∧
    (∃ (s : State) (k : Nat) (f : RxLineFrame), (Canon s) ∧ (chEn s k = true) ∧ (k < 64) ∧ (domOn s 18 = true) ∧ (domOn s (dieDom (k / 16)) = true) ∧ (f.fasOk = false) ∧ (4 ≤ (lineCh s k).fasBad)) ∧
    (∃ (s : State) (k : Nat) (f : RxLineFrame), (chEn s k = false)) :=
  ⟨⟨lineUp, .pf, 1, 0x80000000, by decide +kernel⟩,
   ⟨lineUp, .pf, 0, 0, by refine ⟨by constructor <;> decide +kernel, ?_⟩; decide +kernel⟩,
   ⟨{ up with opt := { up.opt with chs := [(0, { OptCh.reset with los := false })] } }, .pf, 0, 0x80000000, by refine ⟨by constructor <;> decide +kernel, ?_⟩; decide +kernel⟩,
   ⟨lineUp, .pf, 0, 7, by decide +kernel⟩,
   ⟨up, .pf, 0, 0x80000007, by refine ⟨by constructor <;> decide +kernel, ?_⟩; decide +kernel⟩,
   ⟨lineUp, .pf, 0, by refine ⟨by constructor <;> decide +kernel, ?_⟩; decide +kernel⟩,
   ⟨lineUp, .pf, 0, by refine ⟨by constructor <;> decide +kernel, ?_⟩; decide +kernel⟩,
   ⟨up, .pf, 0, by decide +kernel⟩,
   ⟨lineLit, 0, 0, by refine ⟨by constructor <;> decide +kernel, ?_⟩; decide +kernel⟩,
   ⟨lineUp, 0, rxFrame true, by refine ⟨by constructor <;> decide +kernel, ?_⟩; decide +kernel⟩,
   ⟨(lineChSet lineUp 0 { LineCh.reset with fasBad := 4 }), 0, rxFrame false, by refine ⟨by constructor <;> decide +kernel, ?_⟩; decide +kernel⟩,
   ⟨up, 0, rxFrame true, by decide +kernel⟩⟩

/-- What the clauses of OpticalFitting ask is met. -/
theorem test_meets_OpticalFitting :
    (∃ (s : State) (req : Requester) (d : Nat) (v : Word), (Arrives s req .OPT_BAND d = true) ∧ (dieUnlit s d = false ∨ 768 < bf v 9 0)) ∧
    (∃ (s : State) (req : Requester) (d : Nat) (v : Word), (Canon s) ∧ (Arrives s req .OPT_BAND d = true) ∧ (dieUnlit s d = true) ∧ (bf v 9 0 ≤ 768) ∧ ((dieChs d).all (fun k => (optCh s k).light == .dark) = true)) ∧
    (∃ (s : State) (req : Requester) (d : Nat) (v : Word), (Canon s) ∧ (Arrives s req .OPT_BAND d = true) ∧ (dieUnlit s d = true) ∧ (bf v 9 0 ≤ 768) ∧ ((dieChs d).all (fun k => (optCh s k).light == .dark) = false)) ∧
    (∃ (s : State) (req : Requester) (d : Nat), (Canon s) ∧ (Arrives s req .OPT_FIT_CMD d = true) ∧ (dieUnlit s d = true)) ∧
    (∃ (s : State) (req : Requester) (d : Nat), (Arrives s req .OPT_FIT_CMD d = true) ∧ (dieUnlit s d = false)) ∧
    (∃ (s : State) (d p : Nat), (Canon s) ∧ ((optDie s d).fit = .comb) ∧ (dieUp s d = true)) ∧
    (∃ (s : State) (d : Nat), (Canon s) ∧ ((optDie s d).fit = .comb) ∧ (dieUp s d = true)) ∧
    (∃ (s : State) (d p : Nat), ((optDie s d).fit ≠ .comb)) ∧
    (∃ (s : State) (d : Nat) (w : List (List (Option Nat))), (Canon s) ∧ ((optDie s d).fit = .sweep) ∧ (dieUp s d = true)) ∧
    (∃ (s : State) (d : Nat) (lost : List Nat), (Canon s) ∧ ((optDie s d).fit = .lock) ∧ (dieUp s d = true) ∧ ((optDie s d).warmRun = false ∨ lost = [])) ∧
    (∃ (s : State) (d : Nat) (lost : List Nat), (Canon s) ∧ ((optDie s d).fit = .lock) ∧ (dieUp s d = true) ∧ ((optDie s d).warmRun = true) ∧ (lost ≠ [])) ∧
    (∃ (s : State) (k : Nat), (Canon s) ∧ (dieUp s (k / 16) = true) ∧ ((optCh s k).fitted = true)) :=
  ⟨⟨up, .pf, 0, 1000, by decide +kernel⟩,
   ⟨up, .pf, 0, 100, by refine ⟨by constructor <;> decide +kernel, ?_⟩; decide +kernel⟩,
   ⟨(optUp .done { OptCh.reset with light := .ramping }), .pf, 0, 100, by refine ⟨by constructor <;> decide +kernel, ?_⟩; decide +kernel⟩,
   ⟨(optUp .done { OptCh.reset with fitted := true }), .pf, 0, by refine ⟨by constructor <;> decide +kernel, ?_⟩; decide +kernel⟩,
   ⟨(regSet up .OPT_CH_CTRL 2 0x80000000), .pf, 0, by decide +kernel⟩,
   ⟨(optUp .comb { OptCh.reset with los := false }), 0, 7, by refine ⟨by constructor <;> decide +kernel, ?_⟩; decide +kernel⟩,
   ⟨(optUp .comb { OptCh.reset with los := false }), 0, by refine ⟨by constructor <;> decide +kernel, ?_⟩; decide +kernel⟩,
   ⟨up, 0, 7, by decide +kernel⟩,
   ⟨(optUp .sweep { OptCh.reset with los := false }), 0, [], by refine ⟨by constructor <;> decide +kernel, ?_⟩; decide +kernel⟩,
   ⟨(optUp .lock { OptCh.reset with los := false }), 0, [], by refine ⟨by constructor <;> decide +kernel, ?_⟩; decide +kernel⟩,
   ⟨{ up with opt := { up.opt with dies := [(0, { OptDie.reset with fit := .lock, warmRun := true })] } }, 0, [4], by refine ⟨by constructor <;> decide +kernel, ?_⟩; decide +kernel⟩,
   ⟨(optUp .done { OptCh.reset with fitted := true }), 2, by refine ⟨by constructor <;> decide +kernel, ?_⟩; decide +kernel⟩⟩

/-- What the clauses of OpticalChannels ask is met. -/
theorem test_meets_OpticalChannels :
    (∃ (s : State) (req : Requester) (k : Nat) (v : Word), (Canon s) ∧ (Arrives s req .OPT_CH_CTRL k = true) ∧ ((optCh s k).light ≠ .dark) ∧ (bit (if optEn s k then putBf (acceptWord .OPT_CH_CTRL (rwsBase s .OPT_CH_CTRL k) v) 25 24 (bf (rwsBase s .OPT_CH_CTRL k) 25 24) else (acceptWord .OPT_CH_CTRL (rwsBase s .OPT_CH_CTRL k) v)) 31 = false ∨ optEn s k = true ∨ (optCh s k).fitFail = false)) ∧
    (∃ (s : State) (req : Requester) (k : Nat) (v : Word), (Canon s) ∧ (Arrives s req .OPT_CH_CTRL k = true) ∧ (bit (acceptWord .OPT_CH_CTRL (rwsBase s .OPT_CH_CTRL k) v) 31 = true) ∧ (optEn s k = false) ∧ ((optCh s k).fitFail = true) ∧ ((optCh s k).light = .dark)) ∧
    (∃ (s : State) (req : Requester) (k : Nat) (v : Word), (Canon s) ∧ (Arrives s req .OPT_CH_CTRL k = true) ∧ (bit (acceptWord .OPT_CH_CTRL (rwsBase s .OPT_CH_CTRL k) v) 31 = true) ∧ (optEn s k = false) ∧ ((optCh s k).fitFail = false) ∧ ((optCh s k).light = .dark)) ∧
    (∃ (s : State) (req : Requester) (k : Nat) (v : Word), (Canon s) ∧ (Arrives s req .OPT_CH_CTRL k = true) ∧ (bit (acceptWord .OPT_CH_CTRL (rwsBase s .OPT_CH_CTRL k) v) 31 = false) ∧ (optEn s k = false) ∧ ((optCh s k).light = .dark)) ∧
    (∃ (s : State) (req : Requester) (k : Nat) (v : Word), (Canon s) ∧ (Arrives s req .OPT_CH_CTRL k = true) ∧ (bit (acceptWord .OPT_CH_CTRL (rwsBase s .OPT_CH_CTRL k) v) 31 = true) ∧ (optEn s k = false) ∧ ((optCh s k).fitFail = true) ∧ ((optCh s k).light ≠ .dark)) ∧
    (∃ (s : State) (k : Nat), (Canon s) ∧ ((optCh s k).light = .ramping) ∧ (optEn s k = true) ∧ ((optCh s k).cal = .pattern)) ∧
    (∃ (s : State) (k : Nat), ((optCh s k).light ≠ .ramping)) ∧
    (∃ (s : State) (k : Nat), (Canon s) ∧ ((optCh s k).light = .ramping) ∧ (optEn s k = true) ∧ ((optCh s k).cal ≠ .pattern)) ∧
    (∃ (s : State) (k : Nat), (Canon s) ∧ ((optCh s k).light = .ramping) ∧ (optEn s k = false)) ∧
    (∃ (s : State) (req : Requester) (k : Nat) (v : Word), (Arrives s req .OPT_CH_LOS_THR k = true) ∧ (toSigned 16 (bf v 31 16) < toSigned 16 (bf v 15 0) + 10)) ∧
    (∃ (s : State) (req : Requester) (k : Nat) (v : Word), (Canon s) ∧ (Arrives s req .OPT_CH_LOS_THR k = true) ∧ (toSigned 16 (bf v 15 0) + 10 ≤ toSigned 16 (bf v 31 16)) ∧ ((optCh s k).light = .dark)) ∧
    (∃ (s : State) (k : Nat) (p : Int) (pilot : Bool), (Canon s) ∧ (dieUp s (k / 16) = true) ∧ (pilot = false ∨ p < toSigned 16 (regBf s .OPT_CH_LOS_THR k 15 0)) ∧ ((optCh s k).los = false)) ∧
    (∃ (s : State) (k : Nat) (p : Int), (Canon s) ∧ (dieUp s (k / 16) = true) ∧ ((optCh s k).rxLock = true) ∧ (toSigned 16 (regBf s .OPT_CH_LOS_THR k 31 16) ≤ p) ∧ ((optCh s k).los = true)) ∧
    (∃ (s : State) (k : Nat) (p : Int), ((optCh s k).los = true)) ∧
    (∃ (s : State) (k : Nat), (Canon s) ∧ (dieUp s (k / 16) = true) ∧ ((optCh s k).fitted = true) ∧ (5 ≤ (optCh s k).txBad) ∧ ((optCh s k).txLock = true)) ∧
    (∃ (s : State) (k : Nat), (Canon s) ∧ (dieUp s (k / 16) = true) ∧ ((optCh s k).fitted = true) ∧ (5 ≤ (optCh s k).rxBad) ∧ ((optCh s k).rxLock = true)) ∧
    (∃ (s : State) (d b : Nat) (temp : Int) (l : List OptMeas), (Canon s) ∧ (dieUp s d = true)) ∧
    (∃ (s : State) (d b k : Nat) (temp : Int), (Canon s) ∧ (dieUp s d = true) ∧ (k / 16 = d) ∧ (heldGet s .OPT_BAND d = none) ∧ ((∀ j, j / 16 = d → heldGet s .OPT_CH_CTRL j = none)) ∧ ((optCh s k).light = .dark) ∧ (optEn s k = true) ∧ ((optCh s k).fitted = true) ∧ ((optCh s k).txLock = true) ∧ ((optDie s d).fit = .done)) ∧
    (∃ (s : State) (d b : Nat) (temp : Int) (l : List OptMeas), (dieUp s d = false)) :=
  ⟨⟨(optUp .done { OptCh.reset with light := .ramping }), .pf, 2, 0x80000000, by refine ⟨by constructor <;> decide +kernel, ?_⟩; decide +kernel⟩,
   ⟨(optUp .done { OptCh.reset with fitFail := true }), .pf, 2, 0x80000000, by refine ⟨by constructor <;> decide +kernel, ?_⟩; decide +kernel⟩,
   ⟨(optUp .done { OptCh.reset with fitted := true, txLock := true }), .pf, 2, 0x80000000, by refine ⟨by constructor <;> decide +kernel, ?_⟩; decide +kernel⟩,
   ⟨(optUp .done { OptCh.reset with los := false }), .pf, 2, 0, by refine ⟨by constructor <;> decide +kernel, ?_⟩; decide +kernel⟩,
   ⟨(optUp .done { OptCh.reset with light := .lit, fitFail := true }), .pf, 2, 0x80000000, by refine ⟨by constructor <;> decide +kernel, ?_⟩; decide +kernel⟩,
   ⟨(regSet (optUp .done { OptCh.reset with light := .ramping, cal := .pattern }) .OPT_CH_CTRL 2 0x80000000), 2, by refine ⟨by constructor <;> decide +kernel, ?_⟩; decide +kernel⟩,
   ⟨up, 2, by decide +kernel⟩,
   ⟨(regSet (optUp .done { OptCh.reset with light := .ramping }) .OPT_CH_CTRL 2 0x80000000), 2, by refine ⟨by constructor <;> decide +kernel, ?_⟩; decide +kernel⟩,
   ⟨(optUp .done { OptCh.reset with light := .ramping }), 2, by refine ⟨by constructor <;> decide +kernel, ?_⟩; decide +kernel⟩,
   ⟨up, .pf, 2, 0, by decide +kernel⟩,
   ⟨up, .pf, 2, 0x00140000, by refine ⟨by constructor <;> decide +kernel, ?_⟩; decide +kernel⟩,
   ⟨(optUp .done { OptCh.reset with los := false }), 2, -300, false, by refine ⟨by constructor <;> decide +kernel, ?_⟩; decide +kernel⟩,
   ⟨(optUp .done { OptCh.reset with rxLock := true }), 2, 300, by refine ⟨by constructor <;> decide +kernel, ?_⟩; decide +kernel⟩,
   ⟨up, 2, 0, by decide +kernel⟩,
   ⟨(optUp .done { OptCh.reset with fitted := true, txBad := 5, txLock := true }), 2, by refine ⟨by constructor <;> decide +kernel, ?_⟩; decide +kernel⟩,
   ⟨(optUp .done { OptCh.reset with fitted := true, rxBad := 5, rxLock := true }), 2, by refine ⟨by constructor <;> decide +kernel, ?_⟩; decide +kernel⟩,
   ⟨(optUp .done { OptCh.reset with los := false }), 0, 960, 300, [], by refine ⟨by constructor <;> decide +kernel, ?_⟩; decide +kernel⟩,
   ⟨(regSet (optUp .done { OptCh.reset with fitted := true, txLock := true }) .OPT_CH_CTRL 2 0x80000000), 0, 0, 2, 300, by constructor <;> decide +kernel, by decide +kernel, by decide +kernel, by decide +kernel, fun _ _ => rfl, by decide +kernel⟩,
   ⟨State.reset, 0, 0, 0, [], by decide +kernel⟩⟩

/-- What the clauses of OpticalCalibration ask is met. -/
theorem test_meets_OpticalCalibration :
    (∃ (s : State) (req : Requester) (k : Nat), (Arrives s req .OPT_CH_CMD k = true) ∧ ((optCh s k).light = .lit) ∧ (s.opt.need.contains k = false)) ∧
    (∃ (s : State) (k : Nat), ((optCh s k).light = .lit) ∧ (s.opt.need.contains k = false)) ∧
    (∃ (s : State) (k : Nat), ((optCh s k).light ≠ .lit ∨ s.opt.need.contains k = true)) ∧
    (∃ (s : State) (d k : Nat), (Canon s) ∧ (dieUp s d = true) ∧ ((s.opt.need.filter (fun k => k / 16 == d)).find? (fun k => !calBlocked s k && calHeadroom s k) = some k)) ∧
    (∃ (s : State) (d : Nat), (dieUp s d = false ∨ (s.opt.need.filter (fun k => k / 16 == d)).find? (fun k => !calBlocked s k && calHeadroom s k) = none)) ∧
    (∃ (s : State) (k : Nat), (Canon s) ∧ (s.opt.need.contains k = true) ∧ (s.opt.forced.contains k = false) ∧ (s.opt.forced = []) ∧ (calBlocked s k = true)) ∧
    (∃ (s : State) (k : Nat), (Canon s) ∧ (s.opt.need.filter (· == k) = [k]) ∧ (s.opt.forced = []) ∧ (calBlocked s k = false)) ∧
    (∃ (s : State) (k : Nat), (s.opt.need.contains k = false ∨ s.opt.forced.contains k = true)) ∧
    (∃ (s : State) (k : Nat), (Canon s) ∧ ((optCh s k).cal = .pattern) ∧ ((optCh s k).light = .pattern) ∧ (chEn s k = true)) ∧
    (∃ (s : State) (k : Nat), ((optCh s k).cal ≠ .pattern ∨ (optCh s k).light ≠ .pattern)) ∧
    (∃ (s : State) (k : Nat), (Canon s) ∧ ((optCh s k).cal = .pattern) ∧ ((optCh s k).light = .pattern) ∧ (chEn s k = false) ∧ (s.opt.forced = [])) :=
  ⟨⟨(optUp .done { OptCh.reset with light := .lit }), .pf, 2, by decide +kernel⟩,
   ⟨(optUp .done { OptCh.reset with light := .lit }), 2, by decide +kernel⟩,
   ⟨up, 2, by decide +kernel⟩,
   ⟨{ optUp .done { OptCh.reset with light := .lit } with opt := { (optUp .done { OptCh.reset with light := .lit }).opt with need := [2] } }, 0, 2, by refine ⟨by constructor <;> decide +kernel, ?_⟩; decide +kernel⟩,
   ⟨up, 0, by decide +kernel⟩,
   ⟨{ optUp .done { OptCh.reset with light := .lit, cal := .pattern } with opt := { (optUp .done { OptCh.reset with light := .lit, cal := .pattern }).opt with need := [3] } }, 3, by refine ⟨by constructor <;> decide +kernel, ?_⟩; decide +kernel⟩,
   ⟨(let s := optUp .done { OptCh.reset with light := .lit }; { s with opt := { s.opt with need := [2] } }), 2, by refine ⟨by constructor <;> decide +kernel, ?_⟩; decide +kernel⟩,
   ⟨up, 3, by decide +kernel⟩,
   ⟨(regSet (optUp .done { OptCh.reset with light := .pattern, cal := .pattern }) .LINE_CH_CFG 2 0x80000000), 2, by refine ⟨by constructor <;> decide +kernel, ?_⟩; decide +kernel⟩,
   ⟨up, 2, by decide +kernel⟩,
   ⟨(optUp .done { OptCh.reset with light := .pattern, cal := .pattern }), 2, by refine ⟨by constructor <;> decide +kernel, ?_⟩; decide +kernel⟩⟩

/-- What the clauses of KeyCommands ask is met. -/
theorem test_meets_KeyCommands :
    (∃ (s : State) (req : Requester) (k : Nat), (Canon s) ∧ (Arrives s req .THM_SESS_CMD k = true) ∧ ((keySlot s (nextSlot s k)).state = .valid)) ∧
    (∃ (s : State) (req : Requester) (k : Nat), (Canon s) ∧ (Arrives s req .THM_SESS_CMD k = true) ∧ ((keySlot s (nextSlot s k)).state ≠ .valid)) ∧
    (∃ (s : State) (req : Requester) (k : Nat), (Canon s) ∧ (Arrives s req .THM_SESS_CMD k = true)) ∧
    (∃ (s : State) (req : Requester) (g : Nat), (Canon s) ∧ (Arrives s req .THM_KLD_CMD g = true) ∧ ((keyGroup s g).busy = false)) ∧
    (∃ (s : State) (req : Requester) (g : Nat), (Canon s) ∧ (Arrives s req .THM_KLD_CMD g = true) ∧ ((keyGroup s g).busy = true)) ∧
    (∃ (s : State) (g : Nat) (p : List Byte), (Canon s) ∧ ((keyGroup s g).busy = true) ∧ (keyLoadResult s g (some p) = 0)) ∧
    (∃ (s : State) (g : Nat) (p : Option (List Byte)), (Canon s) ∧ ((keyGroup s g).busy = true) ∧ (keyLoadResult s g p ≠ 0)) ∧
    (∃ (s : State) (g : Nat) (p : Option (List Byte)), ((keyGroup s g).busy = false)) :=
  ⟨⟨(keyUp { keySlotReset with state := .valid }), .pf, 3, by refine ⟨by constructor <;> decide +kernel, ?_⟩; decide +kernel⟩,
   ⟨up, .pf, 3, by refine ⟨by constructor <;> decide +kernel, ?_⟩; decide +kernel⟩,
   ⟨(keyUp { keySlotReset with state := .retired }), .pf, 3, by refine ⟨by constructor <;> decide +kernel, ?_⟩; decide +kernel⟩,
   ⟨up, .pf, 2, by refine ⟨by constructor <;> decide +kernel, ?_⟩; decide +kernel⟩,
   ⟨kldUp, .pf, 0, by refine ⟨by constructor <;> decide +kernel, ?_⟩; decide +kernel⟩,
   ⟨kldUp, 0, kldPlain, by refine ⟨by constructor <;> decide +kernel, ?_⟩; decide +kernel⟩,
   ⟨kldUp, 0, none, by refine ⟨by constructor <;> decide +kernel, ?_⟩; decide +kernel⟩,
   ⟨up, 0, none, by decide +kernel⟩⟩

/-- What the clauses of TimeReferences ask is met. -/
theorem test_meets_TimeReferences :
    (∃ (s : State) (m : List Byte), (ppsSelected s = true) ∧ (todGood m = true)) ∧
    (∃ (s : State) (m : List Byte), (Canon s) ∧ (ppsSelected s = true) ∧ (todGood m = false)) ∧
    (∃ (s : State) (m : List Byte) (phase : Nat), (ppsSelected s = false)) ∧
    (∃ (s : State) (phase : Nat), (ppsSelected s = true)) ∧
    (∃ (s : State), (s.time.mode = .tracking)) ∧
    (∃ (s : State), (s.time.mode = .acquire)) ∧
    (∃ (s : State), (s.time.mode = .freerun ∨ s.time.mode = .holdover)) ∧
    (∃ (s : State) (req : Requester), (Arrives s req .TIME_CMD 0 = true) ∧ (scheduleArmed s = false)) ∧
    (∃ (s : State) (req : Requester), (Arrives s req .TIME_CMD 0 = true) ∧ (scheduleArmed s = true)) ∧
    (∃ (s : State) (req : Requester) (v : Word), (Canon s) ∧ (Arrives s req .TIME_CFG 0 = true)) ∧
    (∃ (s : State) (g : Nat), (Canon s) ∧ ((lineTime s g).count ≠ 0)) ∧
    (∃ (s : State) (g : Nat), ((lineTime s g).count = 0)) :=
  ⟨⟨(regSet up .TIME_CFG 0 1), (let m : List Byte := [0xA5, 0x5A, 1, 1, 0, 0, 0, 0, 0, 9, 0, 37, 0, 0]; m ++ beBytes 2 (crc16 m)), by decide +kernel⟩,
   ⟨(regSet up .TIME_CFG 0 1), [], by refine ⟨by constructor <;> decide +kernel, ?_⟩; decide +kernel⟩,
   ⟨up, [], 0, by decide +kernel⟩,
   ⟨(regSet up .TIME_CFG 0 1), 5, by decide +kernel⟩,
   ⟨(ptpUp .tracking), by decide +kernel⟩,
   ⟨(ptpUp .acquire), by decide +kernel⟩,
   ⟨up, by decide +kernel⟩,
   ⟨(ptpUp .tracking), .pf, by decide +kernel⟩,
   ⟨{ up with spw := [(2, ⟨true, false, false, 0, 0⟩)] }, .pf, by decide +kernel⟩,
   ⟨up, .pf, 2, by refine ⟨by constructor <;> decide +kernel, ?_⟩; decide +kernel⟩,
   ⟨{ up with time := { up.time with line := [(1, ⟨40, 80, 2, 0, 0⟩)] } }, 1, by refine ⟨by constructor <;> decide +kernel, ?_⟩; decide +kernel⟩,
   ⟨up, 1, by decide +kernel⟩⟩

/-- What the clauses of PtpMessages ask is met. -/
theorem test_meets_PtpMessages :
    (∃ (s : State) (m : PtpSyncMsg), (Canon s) ∧ (isUpstream s m.port = true) ∧ (m.domain = timeDomain s) ∧ (m.twoStep = true)) ∧
    (∃ (s : State) (m : PtpSyncMsg), (isUpstream s m.port = true) ∧ (m.domain = timeDomain s) ∧ (m.twoStep = false)) ∧
    (∃ (s : State) (p q f o : Nat) (t2 c corr : Int), (isUpstream s p = true) ∧ ((ptpPort s p).pend = some (q, f, t2, c))) ∧
    (∃ (s : State) (p : Nat) (t1 t2 : Int), (Canon s) ∧ (s.time.mode = .acquire) ∧ (s.time.samples.length < 7)) ∧
    (∃ (s : State) (p : Nat) (t1 t2 : Int), (Canon s) ∧ (s.time.mode = .tracking) ∧ (s.time.outRun = 0) ∧ (us10 < t1 + (ptpPort s p).delay - t2)) ∧
    (∃ (s : State) (p d q f phase : Nat), (ptpServing s = true) ∧ (ptpRole s p = 6) ∧ (d = timeDomain s)) ∧
    (∃ (s : State) (p d q f phase : Nat), (ptpServing s = false ∨ ptpRole s p ≠ 6 ∨ d ≠ timeDomain s)) ∧
    (∃ (s : State) (p q f o phase r : Nat) (corr : Int) (m : PtpSyncMsg), (isUpstream s p = false) ∧ (m.port = p)) ∧
    (∃ (s : State) (m : PtpSyncMsg), (m.domain ≠ timeDomain s)) ∧
    (∃ (s : State) (p q q' f f' o : Nat) (t2 c corr : Int), ((ptpPort s p).pend = some (q', f', t2, c)) ∧ (q' ≠ q ∨ f' ≠ f)) ∧
    (∃ (s : State) (p q q' r : Nat) (t3 corr : Int), ((ptpPort s p).dreq = some (q', t3)) ∧ (q' ≠ q)) ∧
    (∃ (s : State) (p phase : Nat), (Canon s) ∧ (isUpstream s p = true)) ∧
    (∃ (s : State) (p q r : Nat) (t1 t2 t3 corr : Int), (Canon s) ∧ (isUpstream s p = true) ∧ ((ptpPort s p).dreq = some (q, t3)) ∧ ((ptpPort s p).last = some (t1, t2))) ∧
    (∃ (s : State) (p phase : Nat), (Canon s) ∧ (ptpServing s = true) ∧ (ptpRole s p = 6)) ∧
    (∃ (s : State) (p phase : Nat), (ptpServing s = false ∨ ptpRole s p ≠ 6)) ∧
    (∃ (s : State) (p d : Nat) (x : PtpData), (Canon s) ∧ (ptpEn s p = true) ∧ (d = timeDomain s) ∧ (regBit s .TIME_CFG 0 12 = false)) ∧
    (∃ (s : State) (p d : Nat) (x : PtpData), (Canon s) ∧ (ptpEn s p = true) ∧ (d = timeDomain s) ∧ (regBit s .TIME_CFG 0 12 = true) ∧ (ppsSelected s = false) ∧ ((∀ b, (ptpPort s p).best = some b → b.sender = x.sender ∨ lexLt (dataKey x) (dataKey b) = true)) ∧ (lexLt (dataKey x) (dataKey (ownData s)) = true) ∧ ((∀ q b, q ≠ p → (ptpPort s q).best = some b → lexLt (dataKey x) (dataKey b) = true))) ∧
    (∃ (s : State) (p d : Nat) (x : PtpData), (ptpEn s p = false ∨ d ≠ timeDomain s)) ∧
    (∃ (s : State) (p : Nat), (Canon s)) :=
  ⟨⟨(ptpUp .acquire), ⟨0, 0, 5, 7, true, 0, 0, 0⟩, by refine ⟨by constructor <;> decide +kernel, ?_⟩; decide +kernel⟩,
   ⟨(ptpUp .acquire), ⟨0, 0, 5, 7, false, 0, 0, 0⟩, by decide +kernel⟩,
   ⟨(let s := ptpUp .acquire; ptpPortSet s 0 { ptpPort s 0 with pend := some (7, 5, 9, 0) }), 0, 7, 5, 0, 9, 0, 0, by decide +kernel⟩,
   ⟨(ptpUp .acquire), 0, 0, 0, by refine ⟨by constructor <;> decide +kernel, ?_⟩; decide +kernel⟩,
   ⟨(ptpUp .tracking), 0, 700000000, 0, by refine ⟨by constructor <;> decide +kernel, ?_⟩; decide +kernel⟩,
   ⟨(ptpUp .tracking), 1, 0, 3, 4, 0, by decide +kernel⟩,
   ⟨up, 1, 0, 3, 4, 0, by decide +kernel⟩,
   ⟨up, 0, 0, 0, 0, 0, 0, 0, ⟨0, 0, 5, 7, true, 0, 0, 0⟩, by decide +kernel⟩,
   ⟨up, ⟨0, 9, 5, 7, true, 0, 0, 0⟩, by decide +kernel⟩,
   ⟨(let s := ptpUp .acquire; ptpPortSet s 0 { ptpPort s 0 with pend := some (7, 5, 9, 0) }), 0, 8, 7, 5, 5, 0, 9, 0, 0, by decide +kernel⟩,
   ⟨(let s := ptpUp .acquire; ptpPortSet s 0 { ptpPort s 0 with dreq := some (7, 5) }), 0, 8, 7, 0, 5, 0, by decide +kernel⟩,
   ⟨(ptpUp .tracking), 0, 3, by refine ⟨by constructor <;> decide +kernel, ?_⟩; decide +kernel⟩,
   ⟨(let s := ptpUp .acquire; ptpPortSet s 0 { ptpPort s 0 with dreq := some (7, 5), last := some (1, 2) }), 0, 7, 50, 1, 2, 5, 0, by refine ⟨by constructor <;> decide +kernel, ?_⟩; decide +kernel⟩,
   ⟨(ptpUp .tracking), 1, 0, by refine ⟨by constructor <;> decide +kernel, ?_⟩; decide +kernel⟩,
   ⟨up, 1, 0, by decide +kernel⟩,
   ⟨(ptpUp .tracking), 0, 0, ⟨1, 2, 3, 4, 5, 6, 7, 8⟩, by refine ⟨by constructor <;> decide +kernel, ?_⟩; decide +kernel⟩,
   ⟨(regSet (ptpUp .tracking) .TIME_CFG 0 0x1002), 0, 0, ⟨1, 2, 3, 4, 5, 6, 7, 8⟩, by constructor <;> decide +kernel, by decide +kernel, by decide +kernel, by decide +kernel, by decide +kernel, (fun b h => by cases (show none = some b from h)), by decide +kernel, (fun q b _ h => by cases (show none = some b from h))⟩,
   ⟨up, 0, 0, ⟨1, 2, 3, 4, 5, 6, 7, 8⟩, by decide +kernel⟩,
   ⟨up, 4, by constructor <;> decide +kernel⟩⟩

/-- What the clauses of EngineFaults ask is met. -/
theorem test_meets_EngineFaults :
    (∃ (s : State) (ctx : Nat), (ctx < 512) ∧ (ctxBusy s ctx = true) ∧ (ctxPaused s ctx = false) ∧ ((engGet s (ctx / 16)).state = .normal) ∧ ((engGet s (ctx / 16)).trial = none)) ∧
    (∃ (s : State) (ctx c : Nat), (ctx < 512) ∧ (ctxBusy s ctx = true) ∧ (ctxPaused s ctx = false) ∧ ((engGet s (ctx / 16)).state = .trial) ∧ ((engGet s (ctx / 16)).trial = some c)) ∧
    (∃ (s : State) (ctx : Nat), (ctx < 512) ∧ (ctxBusy s ctx = true) ∧ (ctxPaused s ctx = false) ∧ ((engGet s (ctx / 16)).state = .fenced)) ∧
    (∃ (s : State) (ctx : Nat), (ctx < 512) ∧ (ctxBusy s ctx = true) ∧ (ctxPaused s ctx = false) ∧ ((engGet s (ctx / 16)).state = .resetting)) ∧
    (∃ (s : State) (ctx : Nat), (512 ≤ ctx ∨ ctxBusy s ctx = false ∨ ctxPaused s ctx = true)) ∧
    (∃ (s : State) (e : Nat), (Canon s) ∧ ((engGet s e).state = .resetting) ∧ ((engGet s e).trial.isSome = true)) ∧
    (∃ (s : State) (e : Nat), ((engGet s e).state = .resetting) ∧ ((engGet s e).trial = none) ∧ (domReady s (engDom e) = false)) ∧
    (∃ (s : State) (e k : Nat) (l : List Nat), ((engGet s e).state = .resetting) ∧ ((engGet s e).trial = none) ∧ (domReady s (engDom e) = true) ∧ ((engGet s e).suspects = k :: l)) ∧
    (∃ (s : State) (e : Nat), (Canon s) ∧ ((engGet s e).state = .resetting) ∧ ((engGet s e).trial = none) ∧ (domReady s (engDom e) = true) ∧ ((engGet s e).suspects = [])) ∧
    (∃ (s : State) (e k : Nat) (l : List Nat), ((engGet s e).state = .trial) ∧ ((engGet s e).suspects = k :: l)) ∧
    (∃ (s : State) (e : Nat), (Canon s) ∧ ((engGet s e).state = .trial) ∧ ((engGet s e).suspects = [])) ∧
    (∃ (s : State) (e : Nat), ((engGet s e).state ≠ .resetting) ∧ ((engGet s e).state ≠ .trial)) ∧
    (∃ (s : State) (req : Requester) (eng : Nat) (pass : Bool), (Canon s) ∧ (Arrives s req .HLT_CMD 0 = true) ∧ ((engGet s (eng % 32)).state = .fenced)) ∧
    (∃ (s : State) (req : Requester) (eng : Nat) (pass : Bool), (Arrives s req .HLT_CMD 0 = true) ∧ ((engGet s (eng % 32)).state ≠ .fenced)) :=
  ⟨⟨(engUp .normal []), 5, by decide +kernel⟩,
   ⟨engTried, 5, 5, by decide +kernel⟩,
   ⟨(engUp .fenced []), 5, by decide +kernel⟩,
   ⟨(engUp .resetting []), 5, by decide +kernel⟩,
   ⟨up, 5, by decide +kernel⟩,
   ⟨(engTrial .resetting), 0, by refine ⟨by constructor <;> decide +kernel, ?_⟩; decide +kernel⟩,
   ⟨{ engUp .resetting [] with pwr := [] }, 0, by decide +kernel⟩,
   ⟨(engUp .resetting [5, 6]), 0, 5, [6], by decide +kernel⟩,
   ⟨(engUp .resetting []), 0, by refine ⟨by constructor <;> decide +kernel, ?_⟩; decide +kernel⟩,
   ⟨(engUp .trial [5, 6]), 0, 5, [6], by decide +kernel⟩,
   ⟨(engUp .trial []), 0, by refine ⟨by constructor <;> decide +kernel, ?_⟩; decide +kernel⟩,
   ⟨up, 0, by decide +kernel⟩,
   ⟨(engUp .fenced []), .pf, 0, true, by refine ⟨by constructor <;> decide +kernel, ?_⟩; decide +kernel⟩,
   ⟨up, .pf, 0, true, by decide +kernel⟩⟩

/-- What the clauses of PowerDomains ask is met. -/
theorem test_meets_PowerDomains :
    (∃ (s : State) (req : Requester) (d : Nat), (Arrives s req .PWR_DOM_CMD d = true) ∧ (domRefusal s d true = 0) ∧ ((domGet s d).state = .on)) ∧
    (∃ (s : State) (req : Requester) (d : Nat), (Canon s) ∧ (Arrives s req .PWR_DOM_CMD d = true) ∧ (domRefusal s d false = 0) ∧ ((domGet s d).state = .off)) ∧
    (∃ (s : State) (req : Requester) (d : Nat), (Arrives s req .PWR_DOM_CMD d = true) ∧ (domRefusal s d true = 0)) ∧
    (∃ (s : State) (req : Requester) (d : Nat), (Canon s) ∧ (Arrives s req .PWR_DOM_CMD d = true) ∧ (domRefusal s d true ≠ 0)) ∧
    (∃ (s : State) (req : Requester) (d : Nat), (Canon s) ∧ (Arrives s req .PWR_DOM_CMD d = true) ∧ (domRefusal s d false ≠ 0)) ∧
    (∃ (s : State) (d : Nat), (Canon s) ∧ ((domGet s d).state = .draining)) ∧
    (∃ (s : State) (d : Nat), ((domGet s d).state = .starting ∨ (domGet s d).state = .resetting)) ∧
    (∃ (s : State) (d : Nat), ((domGet s d).state = .on ∨ (domGet s d).state = .off)) ∧
    (∃ (s : State) (req : Requester) (d : Nat), (Canon s) ∧ (Arrives s req .HLT_CMD 0 = true) ∧ (d < 24) ∧ (d ≠ 11) ∧ (domRefusal s d true = 0) ∧ ((domGet s d).state = .on) ∧ (s.boot.recovering = false) ∧ ((∀ x, (domGet s d).lastRecov = some x → x + 10000000 ≤ s.localUs))) ∧
    (∃ (s : State) (req : Requester) (d : Nat), (Arrives s req .HLT_CMD 0 = true) ∧ (d < 2 ∨ 24 ≤ d)) ∧
    (∃ (s : State) (req : Requester) (d : Nat), (Canon s) ∧ (Arrives s req .HLT_CMD 0 = true) ∧ (2 ≤ d) ∧ (d < 24) ∧ (domRefusal s d true ≠ 0)) ∧
    (∃ (s : State) (req : Requester) (d : Nat), (Canon s) ∧ (Arrives s req .HLT_CMD 0 = true) ∧ (d < 24) ∧ (d ≠ 11) ∧ (domRefusal s d true = 0) ∧ ((domGet s d).state = .off) ∧ ((∀ x, (domGet s d).lastRecov = some x → x + 10000000 ≤ s.localUs))) ∧
    (∃ (s : State) (req : Requester) (d : Nat), (Canon s) ∧ (Arrives s req .HLT_CMD 0 = true) ∧ (2 ≤ d) ∧ (d < 24) ∧ (domRefusal s d true = 0) ∧ (d = 11 ∨ (∃ u, (domGet s d).lastRecov = some u ∧ s.localUs < u + 10000000)) ∧ (s.boot.porst = false) ∧ (s.boot.recovering = false) ∧ (s.boot.stage ≠ 15)) :=
  ⟨⟨up, .pf, 17, by decide +kernel⟩,
   ⟨(domSet up 17 ⟨.off, 4, false, none⟩), .pf, 17, by refine ⟨by constructor <;> decide +kernel, ?_⟩; decide +kernel⟩,
   ⟨up, .pf, 17, by decide +kernel⟩,
   ⟨up, .pf, 1, by refine ⟨by constructor <;> decide +kernel, ?_⟩; decide +kernel⟩,
   ⟨up, .pf, 1, by refine ⟨by constructor <;> decide +kernel, ?_⟩; decide +kernel⟩,
   ⟨(domSet up 17 ⟨.draining, 0, true, none⟩), 17, by refine ⟨by constructor <;> decide +kernel, ?_⟩; decide +kernel⟩,
   ⟨(domSet up 17 ⟨.starting, 0, false, none⟩), 17, by decide +kernel⟩,
   ⟨up, 17, by decide +kernel⟩,
   ⟨up, .pf, 17, by refine ⟨by constructor <;> decide +kernel, by decide +kernel, by decide, by decide, by decide +kernel, by decide +kernel, by decide +kernel, ?_⟩; intro x h; rw [show (domGet up 17).lastRecov = none from by decide +kernel] at h; cases h⟩,
   ⟨up, .pf, 1, by decide +kernel⟩,
   ⟨(domSet up 17 ⟨.starting, 0, false, none⟩), .pf, 17, by refine ⟨by constructor <;> decide +kernel, ?_⟩; decide +kernel⟩,
   ⟨(domSet up 17 ⟨.off, 4, false, none⟩), .pf, 17, by constructor <;> decide +kernel, by decide +kernel, by decide, by decide, by decide +kernel, by decide +kernel, fun x h => by cases (show none = some x from h)⟩,
   ⟨up, .pf, 11, by constructor <;> decide +kernel, by decide +kernel, by decide, by decide, by decide +kernel, .inl rfl, by decide +kernel, by decide +kernel, by decide +kernel⟩⟩

/-- What the clauses of RecoveryAndSelfTest ask is met. -/
theorem test_meets_RecoveryAndSelfTest :
    (∃ (s : State) (req : Requester), (Canon s) ∧ (Arrives s req .HLT_CMD 0 = true) ∧ (s.boot.porst = false) ∧ (s.boot.recovering = false) ∧ (s.boot.stage ≠ 15)) ∧
    (∃ (s : State), (s.boot.porst = false) ∧ (s.boot.recovering = false) ∧ (4 ≤ s.boot.stage.toNat) ∧ (s.boot.stage ≠ 15)) ∧
    (∃ (s : State) (req : Requester), (reqLink s req = false)) ∧
    (∃ (s : State), (s.boot.stage.toNat < 4 ∨ s.boot.stage = 15)) ∧
    (∃ (s : State) (req : Requester), (Arrives s req .HLT_CMD 0 = true) ∧ (s.boot.recovering = true)) ∧
    (∃ (s : State), (s.boot.recovering = true) ∧ (s.boot.stage = 7)) ∧
    (∃ (s : State), (s.boot.recovering = false ∨ s.boot.stage ≠ 7)) ∧
    (∃ (s : State) (req : Requester) (e : Nat), (Arrives s req .BIST_CMD 0 = true)) ∧
    (∃ (s : State) (req : Requester), (Arrives s req .BIST_CMD 0 = true)) ∧
    (∃ (s : State) (l : List BistReport), (s.bist.run = .extended)) ∧
    (∃ (s : State) (e : Nat) (l : List BistReport), (s.bist.run = .engTest e) ∧ (l.filter (fun r => r.unit == e && reportOk r) = [])) ∧
    (∃ (s : State) (e : Nat) (l : List BistReport) (r : BistReport), (Canon s) ∧ (s.bist.run = .engTest e) ∧ (l.filter (fun r => r.unit == e && reportOk r) = [r])) ∧
    (∃ (s : State) (l : List BistReport), (s.bist.run = .idle)) ∧
    (∃ (s : State) (a b : Bool), (s.flash.sizeMiB ≤ 64 ∨ s.flash.logWorn = true ∨ s.flash.busy = true ∨ s.health.swatchSeq.toNat < swatchNext s)) ∧
    (∃ (s : State) (a : Bool) (k : Nat), (Canon s) ∧ (64 < s.flash.sizeMiB) ∧ (s.flash.logWorn = false) ∧ (s.flash.busy = false) ∧ (swatchNext s ≤ s.health.swatchSeq.toNat) ∧ (s.flash.logSect = some k) ∧ (s.flash.logRecs < 7) ∧ (ueIn s (swatchBase + 8192 * ((swatchNext s - 1) % 131072)) 8192 = none)) ∧
    (∃ (s : State) (a b : Bool) (k x : Nat), (64 < s.flash.sizeMiB) ∧ (s.flash.logWorn = false) ∧ (s.flash.busy = false) ∧ (swatchNext s ≤ s.health.swatchSeq.toNat) ∧ (s.flash.logSect = some k) ∧ (s.flash.logRecs < 7) ∧ (ueIn s (swatchBase + 8192 * ((swatchNext s - 1) % 131072)) 8192 = some x)) ∧
    (∃ (s : State) (k : Nat), (Canon s) ∧ (64 < s.flash.sizeMiB) ∧ (s.flash.logWorn = false) ∧ (s.flash.busy = false) ∧ (swatchNext s ≤ s.health.swatchSeq.toNat) ∧ (s.flash.logSect = none) ∧ (logNext s = some k) ∧ ((sectHdr s k).1 = false) ∧ (logMaxErase s < 99998) ∧ ((sectList s).foldl (fun m h => max m h.2.2.1) 0 < 4294967295)) :=
  ⟨⟨up, .pf, by refine ⟨by constructor <;> decide +kernel, ?_⟩; decide +kernel⟩,
   ⟨up, by decide +kernel⟩,
   ⟨State.reset, .ctl, by decide +kernel⟩,
   ⟨upAt 3, by decide +kernel⟩,
   ⟨{ up with boot := { up.boot with recovering := true } }, .pf, by decide +kernel⟩,
   ⟨{ up with boot := { up.boot with recovering := true } }, by decide +kernel⟩,
   ⟨up, by decide +kernel⟩,
   ⟨(engUp .fenced []), .pf, 0, by decide +kernel⟩,
   ⟨up, .pf, by decide +kernel⟩,
   ⟨{ up with bist := { up.bist with run := .extended } }, [], by decide +kernel⟩,
   ⟨(let s := engUp .fenced []; { s with bist := { s.bist with run := .engTest 0 } }), 0, [], by decide +kernel⟩,
   ⟨(let s := engUp .fenced []; { s with bist := { s.bist with run := .engTest 0 } }), 0, [⟨0, 1, 0, 0⟩], ⟨0, 1, 0, 0⟩, by refine ⟨by constructor <;> decide +kernel, ?_⟩; decide +kernel⟩,
   ⟨up, [], by decide +kernel⟩,
   ⟨up, true, true, by decide +kernel⟩,
   ⟨(let s := upLog; { s with flash := { s.flash with logSect := some 0, logRecs := 2 } }), true, 0, by refine ⟨by constructor <;> decide +kernel, ?_⟩; decide +kernel⟩,
   ⟨(let s := upLog; { s with flash := { s.flash with logSect := some 0, logRecs := 2 }, mem := { s.mem with ue := [33554432] } }), true, true, 0, 33554432, by decide +kernel⟩,
   ⟨upLog, 0, by refine ⟨by constructor <;> decide +kernel, ?_⟩; decide +kernel⟩⟩

/-- What the clauses of StitchesOnRegisters ask is met. -/
theorem test_meets_StitchesOnRegisters :
    (∃ (s : State) (eng slot : Nat) (v : Env), (Canon s) ∧ (Issues s eng slot 0 v)) ∧
    (∃ (s : State) (eng slot : Nat) (v : Env), (Canon s) ∧ (Issues s eng slot 2 v)) ∧
    (∃ (s : State) (eng slot : Nat) (v : Env), (Canon s) ∧ (Issues s eng slot 35 v) ∧ ((tabGet ⟨0, 0⟩ v.x.loops (immSel v.t)).trips = 0)) ∧
    (∃ (s : State) (eng slot : Nat) (v : Env), (Canon s) ∧ (Issues s eng slot 35 v) ∧ ((tabGet ⟨0, 0⟩ v.x.loops (immSel v.t)).trips = 1)) ∧
    (∃ (s : State) (eng slot : Nat) (v : Env), (Canon s) ∧ (Issues s eng slot 35 v) ∧ (2 ≤ (tabGet ⟨0, 0⟩ v.x.loops (immSel v.t)).trips)) ∧
    (∃ (s : State) (eng slot : Nat) (v : Env) (c : Coll), (Canon s) ∧ (Issues s eng slot 5 v) ∧ (regsReady v.x [v.t.dst] = true) ∧ (collFind s v.b.panel v.b.coll = some c)) ∧
    (∃ (s : State) (eng slot : Nat) (v : Env), (Canon s) ∧ (Issues s eng slot 3 v) ∧ (immSel v.t ≠ 1) ∧ (regsReady v.x [v.t.dst] = true) ∧ (vaFirst v < 4 * ctxSpa s v.x.ctx)) ∧
    (∃ (s : State) (eng slot : Nat) (v : Env), (Canon s) ∧ (Issues s eng slot 3 v) ∧ (immSel v.t = 1) ∧ (regsReady v.x [v.t.dst] = true)) ∧
    (∃ (s : State) (eng slot : Nat) (v : Env) (m : Msg), (Canon s) ∧ (Issues s eng slot 8 v) ∧ (regsReady v.x [v.t.dst] = true) ∧ (envMsg v = some m) ∧ (m.whole = true) ∧ (isXp m.data.fmt = false)) ∧
    (∃ (s : State) (eng slot : Nat) (v : Env) (m : Msg), (Canon s) ∧ (Issues s eng slot 8 v) ∧ (regsReady v.x [v.t.dst] = true) ∧ (envMsg v = some m) ∧ (m.whole = true) ∧ (isXp m.data.fmt = true)) ∧
    (∃ (s : State) (eng slot : Nat) (v : Env), (Canon s) ∧ (Issues s eng slot 8 v) ∧ (regsReady v.x [v.t.dst] = true) ∧ (envMsg v = none)) ∧
    (∃ (s : State) (eng slot : Nat) (v : Env), (Canon s) ∧ (Issues s eng slot 10 v) ∧ (regsReady v.x [v.t.dst, v.t.sa] = true) ∧ (v.t.fa ≠ 7)) ∧
    (∃ (s : State) (eng slot : Nat) (v : Env), (Canon s) ∧ (Issues s eng slot 10 v) ∧ (regsReady v.x [v.t.dst, v.t.sa] = true) ∧ (v.t.fa = 7)) ∧
    (∃ (s : State) (eng slot : Nat) (v : Env), (Canon s) ∧ (Issues s eng slot 17 v) ∧ (regsReady v.x [v.t.dst, v.t.sa, v.t.sb] = true) ∧ (immSel v.t < 2)) ∧
    (∃ (s : State) (eng slot : Nat) (v : Env), (Canon s) ∧ (Issues s eng slot 17 v) ∧ (regsReady v.x [v.t.dst, v.t.sa] = true) ∧ (immSel v.t = 2)) ∧
    (∃ (s : State) (eng slot : Nat) (v : Env), (Canon s) ∧ (Issues s eng slot 16 v) ∧ (regsReady v.x [v.t.dst, v.t.sa, v.t.sb] = true) ∧ (2 ≤ immSel v.t) ∧ ((invReg v.x v.t.sa).lanes.length = (invReg v.x v.t.sb).lanes.length)) ∧
    (∃ (s : State) (eng slot : Nat) (v : Env), (Canon s) ∧ (Issues s eng slot 24 v) ∧ (regsReady v.x [v.t.dst, v.t.sb] = true) ∧ (immSel v.t = 2) ∧ ((invReg v.x v.t.sb).lanes.all (fun w => decide (w.toNat < 1024 * ctxSpa s v.x.ctx)) = true)) ∧
    (∃ (s : State) (eng slot : Nat) (v : Env) (m : Msg), (Canon s) ∧ (Issues s eng slot 24 v) ∧ (regsReady v.x [v.t.dst, v.t.sb] = true) ∧ (immSel v.t = 0) ∧ (envMsg v = some m) ∧ (m.whole = true) ∧ (isXp m.data.fmt = false) ∧ ((invReg v.x v.t.sb).lanes.all (fun w => decide (w.toNat < v.b.elems)) = true)) ∧
    (∃ (s : State) (eng slot : Nat) (v : Env), (Canon s) ∧ (Issues s eng slot 24 v) ∧ (regsReady v.x [v.t.dst, v.t.sb] = true) ∧ (immSel v.t = 1) ∧ (v.b.acc.length = v.b.elems) ∧ ((invReg v.x v.t.sb).lanes.all (fun w => decide (w.toNat < v.b.elems)) = true)) ∧
    (∃ (s : State) (eng slot : Nat) (v : Env), (Canon s) ∧ (Issues s eng slot 25 v) ∧ (regsReady v.x [v.t.dst, v.t.dst + 1, v.t.sa, v.t.sb] = true) ∧ ((invReg v.x v.t.sa).lanes.length = (invReg v.x v.t.sb).lanes.length)) ∧
    (∃ (s : State) (eng slot : Nat) (v : Env), (Canon s) ∧ (Issues s eng slot 26 v) ∧ (regsReady v.x [v.t.dst, v.t.dst + 1, v.t.sa, v.t.sb] = true)) ∧
    (∃ (s : State) (eng slot : Nat) (v : Env), (Canon s) ∧ (Issues s eng slot 27 v) ∧ (regsReady v.x [v.t.dst, v.t.dst + 1, v.t.sa, v.t.sb] = true) ∧ ((invReg v.x v.t.sa).lanes.length = (invReg v.x v.t.sb).lanes.length)) ∧
    (∃ (s : State) (eng slot : Nat) (v : Env), (Canon s) ∧ (Issues s eng slot 32 v) ∧ (immBf v.t 1 0 = 0 ∧ mayWrite v = true ∨ immBf v.t 1 0 ≠ 0 ∧ regsReady v.x [v.t.sa] = true ∧ ascending ((invReg v.x v.t.sa).lanes.map (fun w => w.toNat)) = true ∧ ((invReg v.x v.t.sa).lanes.all (fun w => decide (w.toNat < v.b.elems))) = true)) ∧
    (∃ (s : State) (eng slot : Nat) (v : Env), (Canon s) ∧ (Issues s eng slot 34 v) ∧ ((immBf v.t 0 0 = 1 → mayWrite v = true)) ∧ ((immBf v.t 1 1 = 1 → remPending s v = false)) ∧ ((immBf v.t 2 2 = 1 → v.x.plt = 0)) ∧ ((immBf v.t 3 3 = 1 → v.x.emits = []))) ∧
    (∃ (s : State) (eng slot : Nat) (v : Env), (Canon s) ∧ (Issues s eng slot 11 v) ∧ (immBf v.t 31 31 = 0) ∧ (v.t.fb ≠ 10) ∧ (regsReady v.x [v.t.dst, v.t.sa] = true) ∧ ((isMx v.t.fb = true → (invReg v.x v.t.sa).lanes.length % 32 = 0))) ∧
    (∃ (s : State) (eng slot : Nat) (v : Env), (Canon s) ∧ (Issues s eng slot 9 v) ∧ (mayWrite v = true) ∧ (immSel v.t ≠ 1) ∧ (regsReady v.x [v.t.sa] = true) ∧ ((invReg v.x v.t.sa).lanes = [])) ∧
    (∃ (s : State) (eng slot : Nat) (v : Env), (Canon s) ∧ (Issues s eng slot 9 v) ∧ (mayWrite v = true) ∧ (immSel v.t ≠ 1) ∧ (regsReady v.x [v.t.sa] = true) ∧ ((invReg v.x v.t.sa).lanes ≠ []) ∧ (v.t.fa ≠ 11) ∧ (isMx v.t.fa = false) ∧ (v.x.out.fmt = none ∨ v.x.out.fmt = some v.t.fa) ∧ ((∃ h, v.x.bobbin = some h ∧ ∀ off, off < 65536 → off % 64 = 0 → handleCheck s h off = 0))) :=
  ⟨⟨(stUpB (stitchWord ⟨0, 0, 0, 0, 0, 0, 0⟩) inv0 stBolt), 0, 0, ⟨0, inv0, 0, stBolt, stitchOf (stitchWord ⟨0, 0, 0, 0, 0, 0, 0⟩)⟩, by refine ⟨by constructor <;> decide +kernel, ?_⟩; decide +kernel⟩,
   ⟨(stUpB (stitchWord ⟨2, 0, 0, 0, 0, 0, 0x40030007⟩) inv0 stBolt), 0, 0, ⟨0, inv0, 0, stBolt, stitchOf (stitchWord ⟨2, 0, 0, 0, 0, 0, 0x40030007⟩)⟩, by refine ⟨by constructor <;> decide +kernel, ?_⟩; decide +kernel⟩,
   ⟨(stUpB (stitchWord ⟨35, 0, 0, 0, 0, 0, 0⟩) inv0 stBolt), 0, 0, ⟨0, inv0, 0, stBolt, stitchOf (stitchWord ⟨35, 0, 0, 0, 0, 0, 0⟩)⟩, by refine ⟨by constructor <;> decide +kernel, ?_⟩; decide +kernel⟩,
   ⟨(stUpB (stitchWord ⟨35, 0, 0, 0, 0, 0, 0⟩) { inv0 with loops := [(0, ⟨4, 1⟩)] } stBolt), 0, 0, ⟨0, { inv0 with loops := [(0, ⟨4, 1⟩)] }, 0, stBolt, stitchOf (stitchWord ⟨35, 0, 0, 0, 0, 0, 0⟩)⟩, by refine ⟨by constructor <;> decide +kernel, ?_⟩; decide +kernel⟩,
   ⟨(stUpB (stitchWord ⟨35, 0, 0, 0, 0, 0, 0⟩) { inv0 with loops := [(0, ⟨4, 2⟩)] } stBolt), 0, 0, ⟨0, { inv0 with loops := [(0, ⟨4, 2⟩)] }, 0, stBolt, stitchOf (stitchWord ⟨35, 0, 0, 0, 0, 0, 0⟩)⟩, by refine ⟨by constructor <;> decide +kernel, ?_⟩; decide +kernel⟩,
   ⟨(stUpB (stitchWord ⟨5, 11, 0, 4, 0, 0, 0⟩) inv0 stBolt), 0, 0, ⟨0, inv0, 0, stBolt, stitchOf (stitchWord ⟨5, 11, 0, 4, 0, 0, 0⟩)⟩, coll0, by refine ⟨by constructor <;> decide +kernel, ?_⟩; decide +kernel⟩,
   ⟨(stUpB (stitchWord ⟨3, 0, 0, 0, 0, 0, 0x80000000⟩) inv0 stBolt), 0, 0, ⟨0, inv0, 0, stBolt, stitchOf (stitchWord ⟨3, 0, 0, 0, 0, 0, 0x80000000⟩)⟩, by refine ⟨by constructor <;> decide +kernel, ?_⟩; decide +kernel⟩,
   ⟨(stUpB (stitchWord ⟨3, 0, 0, 0, 0, 0, 0x40000000⟩) inv0 stBolt), 0, 0, ⟨0, inv0, 0, stBolt, stitchOf (stitchWord ⟨3, 0, 0, 0, 0, 0, 0x40000000⟩)⟩, by refine ⟨by constructor <;> decide +kernel, ?_⟩; decide +kernel⟩,
   ⟨(stUpB (stitchWord ⟨8, 0, 0, 3, 0, 0, 0⟩) stArr stBoltM), 0, 0, ⟨0, stArr, 0, stBoltM, stitchOf (stitchWord ⟨8, 0, 0, 3, 0, 0, 0⟩)⟩, stMsg, by refine ⟨by constructor <;> decide +kernel, ?_⟩; decide +kernel⟩,
   ⟨(stUpB (stitchWord ⟨8, 0, 0, 3, 0, 0, 0⟩) stArr stBoltX), 0, 0, ⟨0, stArr, 0, stBoltX, stitchOf (stitchWord ⟨8, 0, 0, 3, 0, 0, 0⟩)⟩, stMsgX, by refine ⟨by constructor <;> decide +kernel, ?_⟩; decide +kernel⟩,
   ⟨(stUpB (stitchWord ⟨8, 0, 0, 3, 0, 0, 0⟩) inv0 stBolt), 0, 0, ⟨0, inv0, 0, stBolt, stitchOf (stitchWord ⟨8, 0, 0, 3, 0, 0, 0⟩)⟩, by refine ⟨by constructor <;> decide +kernel, ?_⟩; decide +kernel⟩,
   ⟨(stUpB (stitchWord ⟨10, 2, 0, 3, 1, 0, 0⟩) { inv0 with v := [(1, ⟨[0x3F800000, 0x40000000], []⟩), (2, ⟨[1, 0], []⟩)] } stBolt), 0, 0, ⟨0, { inv0 with v := [(1, ⟨[0x3F800000, 0x40000000], []⟩), (2, ⟨[1, 0], []⟩)] }, 0, stBolt, stitchOf (stitchWord ⟨10, 2, 0, 3, 1, 0, 0⟩)⟩, by refine ⟨by constructor <;> decide +kernel, ?_⟩; decide +kernel⟩,
   ⟨(stUpB (stitchWord ⟨10, 7, 6, 3, 1, 0, 0⟩) { inv0 with v := [(1, ⟨[0x3F800000, 0x40000000], []⟩), (2, ⟨[1, 0], []⟩)] } stBolt), 0, 0, ⟨0, { inv0 with v := [(1, ⟨[0x3F800000, 0x40000000], []⟩), (2, ⟨[1, 0], []⟩)] }, 0, stBolt, stitchOf (stitchWord ⟨10, 7, 6, 3, 1, 0, 0⟩)⟩, by refine ⟨by constructor <;> decide +kernel, ?_⟩; decide +kernel⟩,
   ⟨(stUpB (stitchWord ⟨17, 0, 0, 3, 1, 2, 0⟩) { inv0 with v := [(1, ⟨[0x3F800000, 0x40000000], []⟩), (2, ⟨[1, 0], []⟩)] } stBolt), 0, 0, ⟨0, { inv0 with v := [(1, ⟨[0x3F800000, 0x40000000], []⟩), (2, ⟨[1, 0], []⟩)] }, 0, stBolt, stitchOf (stitchWord ⟨17, 0, 0, 3, 1, 2, 0⟩)⟩, by refine ⟨by constructor <;> decide +kernel, ?_⟩; decide +kernel⟩,
   ⟨(stUpB (stitchWord ⟨17, 0, 0, 3, 1, 0, 0x80000000⟩) { inv0 with v := [(1, ⟨[0x3F800000, 0x40000000], []⟩), (2, ⟨[1, 0], []⟩)] } stBolt), 0, 0, ⟨0, { inv0 with v := [(1, ⟨[0x3F800000, 0x40000000], []⟩), (2, ⟨[1, 0], []⟩)] }, 0, stBolt, stitchOf (stitchWord ⟨17, 0, 0, 3, 1, 0, 0x80000000⟩)⟩, by refine ⟨by constructor <;> decide +kernel, ?_⟩; decide +kernel⟩,
   ⟨(stUpB (stitchWord ⟨16, 0, 0, 3, 1, 2, 0x80000000⟩) { inv0 with v := [(1, ⟨[0x3F800000, 0x40000000], []⟩), (2, ⟨[1, 0], []⟩)] } stBolt), 0, 0, ⟨0, { inv0 with v := [(1, ⟨[0x3F800000, 0x40000000], []⟩), (2, ⟨[1, 0], []⟩)] }, 0, stBolt, stitchOf (stitchWord ⟨16, 0, 0, 3, 1, 2, 0x80000000⟩)⟩, by refine ⟨by constructor <;> decide +kernel, ?_⟩; decide +kernel⟩,
   ⟨(stUpB (stitchWord ⟨24, 0, 0, 3, 0, 2, 0x80000000⟩) { inv0 with v := [(1, ⟨[0x3F800000, 0x40000000], []⟩), (2, ⟨[1, 0], []⟩)] } stBolt), 0, 0, ⟨0, { inv0 with v := [(1, ⟨[0x3F800000, 0x40000000], []⟩), (2, ⟨[1, 0], []⟩)] }, 0, stBolt, stitchOf (stitchWord ⟨24, 0, 0, 3, 0, 2, 0x80000000⟩)⟩, by refine ⟨by constructor <;> decide +kernel, ?_⟩; decide +kernel⟩,
   ⟨(stUpB (stitchWord ⟨24, 0, 0, 3, 0, 2, 0⟩) { stArr with v := [(1, ⟨[0x3F800000, 0x40000000], []⟩), (2, ⟨[1, 0], []⟩)] } stBoltM), 0, 0, ⟨0, { stArr with v := [(1, ⟨[0x3F800000, 0x40000000], []⟩), (2, ⟨[1, 0], []⟩)] }, 0, stBoltM, stitchOf (stitchWord ⟨24, 0, 0, 3, 0, 2, 0⟩)⟩, stMsg, by refine ⟨by constructor <;> decide +kernel, ?_⟩; decide +kernel⟩,
   ⟨(stUpB (stitchWord ⟨24, 0, 0, 3, 0, 2, 0x40000000⟩) { inv0 with v := [(1, ⟨[0x3F800000, 0x40000000], []⟩), (2, ⟨[1, 0], []⟩)] } stBolt), 0, 0, ⟨0, { inv0 with v := [(1, ⟨[0x3F800000, 0x40000000], []⟩), (2, ⟨[1, 0], []⟩)] }, 0, stBolt, stitchOf (stitchWord ⟨24, 0, 0, 3, 0, 2, 0x40000000⟩)⟩, by refine ⟨by constructor <;> decide +kernel, ?_⟩; decide +kernel⟩,
   ⟨(stUpB (stitchWord ⟨25, 0, 0, 4, 1, 2, 0⟩) { inv0 with v := [(1, ⟨[0x3F800000, 0x40000000], []⟩), (2, ⟨[1, 0], []⟩)] } stBolt), 0, 0, ⟨0, { inv0 with v := [(1, ⟨[0x3F800000, 0x40000000], []⟩), (2, ⟨[1, 0], []⟩)] }, 0, stBolt, stitchOf (stitchWord ⟨25, 0, 0, 4, 1, 2, 0⟩)⟩, by refine ⟨by constructor <;> decide +kernel, ?_⟩; decide +kernel⟩,
   ⟨(stUpB (stitchWord ⟨26, 0, 0, 4, 1, 2, 8⟩) { inv0 with v := [(1, ⟨[0x3F800000, 0x40000000], []⟩), (2, ⟨[1, 0], []⟩)] } stBolt), 0, 0, ⟨0, { inv0 with v := [(1, ⟨[0x3F800000, 0x40000000], []⟩), (2, ⟨[1, 0], []⟩)] }, 0, stBolt, stitchOf (stitchWord ⟨26, 0, 0, 4, 1, 2, 8⟩)⟩, by refine ⟨by constructor <;> decide +kernel, ?_⟩; decide +kernel⟩,
   ⟨(stUpB (stitchWord ⟨27, 0, 0, 4, 1, 2, 0⟩) { inv0 with v := [(1, ⟨[0x3F800000, 0x40000000], []⟩), (2, ⟨[1, 0], []⟩)] } stBolt), 0, 0, ⟨0, { inv0 with v := [(1, ⟨[0x3F800000, 0x40000000], []⟩), (2, ⟨[1, 0], []⟩)] }, 0, stBolt, stitchOf (stitchWord ⟨27, 0, 0, 4, 1, 2, 0⟩)⟩, by refine ⟨by constructor <;> decide +kernel, ?_⟩; decide +kernel⟩,
   ⟨(stUpB (stitchWord ⟨32, 0, 0, 0, 1, 0, 0⟩) inv0 stBolt), 0, 0, ⟨0, inv0, 0, stBolt, stitchOf (stitchWord ⟨32, 0, 0, 0, 1, 0, 0⟩)⟩, by refine ⟨by constructor <;> decide +kernel, ?_⟩; decide +kernel⟩,
   ⟨(stUpB (stitchWord ⟨34, 0, 0, 0, 0, 0, 1⟩) inv0 stBolt), 0, 0, ⟨0, inv0, 0, stBolt, stitchOf (stitchWord ⟨34, 0, 0, 0, 0, 0, 1⟩)⟩, by refine ⟨by constructor <;> decide +kernel, ?_⟩; decide +kernel⟩,
   ⟨(stUpB (stitchWord ⟨11, 0, 2, 3, 1, 0, 0⟩) { inv0 with v := [(1, ⟨[0x3F800000, 0x40000000], []⟩), (2, ⟨[1, 0], []⟩)] } stBolt), 0, 0, ⟨0, { inv0 with v := [(1, ⟨[0x3F800000, 0x40000000], []⟩), (2, ⟨[1, 0], []⟩)] }, 0, stBolt, stitchOf (stitchWord ⟨11, 0, 2, 3, 1, 0, 0⟩)⟩, by refine ⟨by constructor <;> decide +kernel, ?_⟩; decide +kernel⟩,
   ⟨(stUpB (stitchWord ⟨9, 0, 0, 0, 5, 0, 0xC0000000⟩) inv0 stBolt), 0, 0, ⟨0, inv0, 0, stBolt, stitchOf (stitchWord ⟨9, 0, 0, 0, 5, 0, 0xC0000000⟩)⟩, by refine ⟨by constructor <;> decide +kernel, ?_⟩; decide +kernel⟩,
   ⟨(spoolSet (stUpB (stitchWord ⟨9, 0, 0, 0, 1, 0, 0xC0000000⟩) { inv0 with v := [(1, ⟨[0x3F800000, 0x40000000], []⟩)], bobbin := some 0x40000001 } stBolt) 4 { spoolInit 64 16 with taken := [1] }), 0, 0, ⟨0, { inv0 with v := [(1, ⟨[0x3F800000, 0x40000000], []⟩)], bobbin := some 0x40000001 }, 0, stBolt, stitchOf (stitchWord ⟨9, 0, 0, 0, 1, 0, 0xC0000000⟩)⟩, by constructor <;> decide +kernel, by decide +kernel, by decide +kernel, by decide +kernel, by decide +kernel, by decide +kernel, by decide +kernel, by decide +kernel, by decide +kernel, ⟨0x40000001, by decide +kernel, usable _ _ _ (by decide +kernel) (by decide +kernel) (by decide +kernel) (by decide +kernel)⟩⟩⟩

/-- What the clauses of StitchesOnChunks ask is met. -/
theorem test_meets_StitchesOnChunks :
    (∃ (s : State) (eng slot : Nat) (v : Env) (m : Msg), (Canon s) ∧ (Issues s eng slot 16 v) ∧ (immSel v.t = 0) ∧ (envMsg v = some m) ∧ (m.whole = true)) ∧
    (∃ (s : State) (eng slot : Nat) (v : Env), (Canon s) ∧ (Issues s eng slot 16 v) ∧ (immSel v.t = 1) ∧ (mayWrite v = true) ∧ (regsReady v.x [v.t.sa] = true) ∧ (v.t.fa ≠ 6 ∨ v.b.mode = 0)) ∧
    (∃ (s : State) (eng slot : Nat) (v : Env), (Canon s) ∧ (Issues s eng slot 4 v) ∧ (mayWrite v = true) ∧ (regsReady v.x [v.t.sa] = true) ∧ (vaFirst v < 4 * ctxSpa s v.x.ctx)) ∧
    (∃ (s : State) (eng slot : Nat) (v : Env), (Canon s) ∧ (Issues s eng slot 0x18 v) ∧ (regsReady v.x [v.t.dst, v.t.sb] = true) ∧ (immSel v.t = 2) ∧ ((invReg v.x v.t.sb).lanes.all (fun w => decide (1024 * ctxSpa s v.x.ctx ≤ w.toNat)) = true) ∧ ((invReg v.x v.t.sb).lanes ≠ [])) ∧
    (∃ (s : State) (eng slot : Nat) (v : Env), (Canon s) ∧ (Issues s eng slot 1 v) ∧ (v.x.done = false) ∧ (streamEmpty v.x.out = true) ∧ (v.x.emits = []) ∧ (v.x.plt = 0) ∧ (remPending s v = false) ∧ (v.b.state = .open)) ∧
    (∃ (s : State) (eng slot : Nat) (v : Env), (Canon s) ∧ (Issues s eng slot 1 v) ∧ (v.x.done = true) ∧ (streamEmpty v.x.out = true) ∧ (v.x.emits = []) ∧ (v.x.plt = 0) ∧ (remPending s v = false) ∧ (v.b.state = .done) ∧ (v.b.ctx / 16 = eng)) ∧
    (∃ (s : State) (eng slot : Nat) (v : Env), (Canon s) ∧ (Issues s eng slot 1 v) ∧ (streamEmpty v.x.out = true) ∧ (v.x.emits = []) ∧ (0 < v.x.plt ∨ remPending s v = true)) ∧
    (∃ (s : State) (eng slot : Nat) (v : Env), (Canon s) ∧ (Issues s eng slot 0x21 v) ∧ (mayWrite v = true) ∧ (v.x.out.pleat.all (fun p => p.isSome) = true) ∧ (v.x.out.idx = [] ∨ v.x.out.idx.length = streamCount v.x.out) ∧ ((isMx (v.x.out.fmt.getD 0) = true → v.x.out.raw.length % 32 = 0)) ∧ ((streamEmpty v.x.out = true → immSel v.t < 2)) ∧ (immSel v.t ≠ 1)) ∧
    (∃ (s : State) (eng slot : Nat) (v : Env) (k : Nat), (Canon s) ∧ (Issues s eng slot 0x21 v) ∧ (mayWrite v = true) ∧ (v.x.out.pleat.all (fun p => p.isSome) = true) ∧ (v.x.out.idx = [] ∨ v.x.out.idx.length = streamCount v.x.out) ∧ ((isMx (v.x.out.fmt.getD 0) = true → v.x.out.raw.length % 32 = 0)) ∧ ((streamEmpty v.x.out = true → immSel v.t < 2)) ∧ (immSel v.t = 1) ∧ (ctxNext s v.x.ctx = some k) ∧ (nextTakes s v k (v.x.out.fmt.getD (arithOut v.b.arith)) = true)) ∧
    (∃ (s : State) (eng slot : Nat) (v : Env) (c : Coll), (Canon s) ∧ (Issues s eng slot 0x21 v) ∧ (mayWrite v = true) ∧ (v.x.out.pleat.all (fun p => p.isSome) = true) ∧ (v.x.out.idx = [] ∨ v.x.out.idx.length = streamCount v.x.out) ∧ ((isMx (v.x.out.fmt.getD 0) = true → v.x.out.raw.length % 32 = 0)) ∧ ((streamEmpty v.x.out = true → immSel v.t < 2)) ∧ (immSel v.t = 0) ∧ (v.x.emits = []) ∧ (v.b.state ≠ .aborting) ∧ (collFind s v.b.panel v.b.coll = some c) ∧ (upCovered c v.b.epoch v.b.chunk = false)) ∧
    (∃ (s : State) (eng slot : Nat) (v : Env), (Canon s) ∧ (Issues s eng slot 3 v) ∧ (regsReady v.x [v.t.dst] = false)) ∧
    (∃ (s : State) (eng slot : Nat) (v : Env), (Issues s eng slot 4 v) ∧ (mayWrite v = false)) ∧
    (∃ (s : State) (eng slot : Nat) (v : Env), (Canon s) ∧ (Issues s eng slot 3 v) ∧ (immSel v.t ≠ 1) ∧ (regsReady v.x [v.t.dst] = true) ∧ (4 * ctxSpa s v.x.ctx ≤ vaFirst v)) ∧
    (∃ (s : State) (eng slot : Nat) (v : Env), (Canon s) ∧ (Issues s eng slot 0x19 v) ∧ (regsReady v.x [v.t.dst, v.t.dst + 1, v.t.sa, v.t.sb] = true) ∧ ((invReg v.x v.t.sa).lanes.length ≠ (invReg v.x v.t.sb).lanes.length)) ∧
    (∃ (s : State) (eng slot : Nat) (v : Env), (Canon s) ∧ (Issues s eng slot 1 v) ∧ (streamEmpty v.x.out = false)) ∧
    (∃ (s : State) (eng slot : Nat) (v : Env), (Canon s) ∧ (Issues s eng slot 0x10 v) ∧ (immSel v.t = 1) ∧ (mayWrite v = true) ∧ (regsReady v.x [v.t.sa] = true) ∧ (v.t.fa ≠ 6 ∨ v.b.mode = 0) ∧ ((engGet s eng).state = .normal) ∧ ((engGet s eng).trial = none)) ∧
    (∃ (s : State) (eng slot : Nat) (v : Env), (Issues s eng slot 0x10 v) ∧ (arithResidue v.b.arith = false)) ∧
    (∃ (s : State) (eng slot : Nat) (v : Env), (Canon s) ∧ (envOf s (8 * eng + slot) = some v) ∧ (slot < 8) ∧ (v.x.stall = true) ∧ (v.x.emits = []) ∧ (engRuns s eng = true) ∧ (v.t.op = 0x22) ∧ (immBf v.t 3 0 = 0)) ∧
    (∃ (s : State) (eng slot : Nat) (v : Env), (Canon s) ∧ (envOf s (8 * eng + slot) = some v) ∧ (slot < 8) ∧ (v.x.stall = true) ∧ (v.x.emits = []) ∧ (engRuns s eng = true) ∧ (v.t.op = 3) ∧ (regsReady v.x [v.t.dst] = false)) ∧
    (∃ (s u : State) (eng slot : Nat) (v : Env), (u = tryEmits (8 * eng + slot) 64 s) ∧ (envOf u (8 * eng + slot) = some v) ∧ (slot < 8) ∧ (v.x.stall = true) ∧ (engRuns u eng = true) ∧ ((∀ s' x, stitchDo v.t.op v u ≠ .stall s' x))) ∧
    (∃ (s : State) (eng slot : Nat) (v : Env), (envOf s (8 * eng + slot) = some v) ∧ (slot < 8) ∧ (v.x.held = true) ∧ (mayWrite v = true)) ∧
    (∃ (s : State) (eng slot : Nat) (v : Env), (envOf s (8 * eng + slot) = some v) ∧ (v.x.held = false ∨ mayWrite v = false ∨ 8 ≤ slot)) ∧
    (∃ (s : State) (eng slot : Nat), (runOf s (8 * eng + slot) = none)) ∧
    (∃ (s : State) (eng slot panel : Nat), (runOf s (8 * eng + slot) ≠ none ∨ 8 ≤ slot)) ∧
    (∃ (s : State) (eng slot : Nat) (v : Env) (c : Coll) (q : SpanCfg) (r : List Word), (Canon s) ∧ (Issues s eng slot 11 v) ∧ (immBf v.t 31 31 = 1) ∧ (v.t.fb ≠ 10) ∧ (mayWrite v = true) ∧ (regsReady v.x [v.t.dst, v.t.sa] = true) ∧ ((isMx v.t.fb = true → (invReg v.x v.t.sa).lanes.length % 32 = 0)) ∧ (envRegion v s = some (c, q)) ∧ (vecLen v.b.elems (vaFirst v) ≠ 0) ∧ (v.x.resid.lookup (vaFirst v) = some r)) ∧
    (∃ (s : State) (eng slot panel : Nat) (c : Cand) (b : Bolt), (Canon s) ∧ (slot < 8) ∧ (runOf s (8 * eng + slot) = none) ∧ (panelMay s eng ((slotQueue s (8 * eng + slot)).map (fun c => c.panel)) panel = true) ∧ (candBest ((slotQueue s (8 * eng + slot)).filter (fun c => c.panel == panel)) = some c) ∧ (c.done = false) ∧ (boltGet s c.bolt = some b)) ∧
    (∃ (s : State) (eng slot panel : Nat) (c : Cand) (b : Bolt), (Canon s) ∧ (slot < 8) ∧ (runOf s (8 * eng + slot) = none) ∧ (panelMay s eng ((slotQueue s (8 * eng + slot)).map (fun c => c.panel)) panel = true) ∧ (candBest ((slotQueue s (8 * eng + slot)).filter (fun c => c.panel == panel)) = some c) ∧ (c.done = true) ∧ (boltGet s c.bolt = some b)) :=
  ⟨⟨(stUpB (stitchWord ⟨16, 0, 0, 0, 0, 0, 0⟩) stArr stBoltM), 0, 0, ⟨0, stArr, 0, stBoltM, stitchOf (stitchWord ⟨16, 0, 0, 0, 0, 0, 0⟩)⟩, stMsg, by refine ⟨by constructor <;> decide +kernel, ?_⟩; decide +kernel⟩,
   ⟨(stUpB (stitchWord ⟨16, 0, 0, 0, 1, 0, 0x40000000⟩) { inv0 with v := [(1, ⟨[0x3F800000, 0x40000000], []⟩), (2, ⟨[1, 0], []⟩)] } stBolt), 0, 0, ⟨0, { inv0 with v := [(1, ⟨[0x3F800000, 0x40000000], []⟩), (2, ⟨[1, 0], []⟩)] }, 0, stBolt, stitchOf (stitchWord ⟨16, 0, 0, 0, 1, 0, 0x40000000⟩)⟩, by refine ⟨by constructor <;> decide +kernel, ?_⟩; decide +kernel⟩,
   ⟨(stUpB (stitchWord ⟨4, 0, 0, 0, 1, 0, 0x80000000⟩) { inv0 with v := [(1, ⟨[0x3F800000, 0x40000000], []⟩), (2, ⟨[1, 0], []⟩)] } stBolt), 0, 0, ⟨0, { inv0 with v := [(1, ⟨[0x3F800000, 0x40000000], []⟩), (2, ⟨[1, 0], []⟩)] }, 0, stBolt, stitchOf (stitchWord ⟨4, 0, 0, 0, 1, 0, 0x80000000⟩)⟩, by refine ⟨by constructor <;> decide +kernel, ?_⟩; decide +kernel⟩,
   ⟨(stUpB (stitchWord ⟨24, 0, 0, 3, 0, 1, 0x80000000⟩) { inv0 with v := [(1, ⟨[0x3F800000, 0x40000000], []⟩), (2, ⟨[1, 0], []⟩)] } stBolt), 0, 0, ⟨0, { inv0 with v := [(1, ⟨[0x3F800000, 0x40000000], []⟩), (2, ⟨[1, 0], []⟩)] }, 0, stBolt, stitchOf (stitchWord ⟨24, 0, 0, 3, 0, 1, 0x80000000⟩)⟩, by refine ⟨by constructor <;> decide +kernel, ?_⟩; decide +kernel⟩,
   ⟨(stUpB (stitchWord ⟨1, 0, 0, 0, 0, 0, 0⟩) stArr stBoltM), 0, 0, ⟨0, stArr, 0, stBoltM, stitchOf (stitchWord ⟨1, 0, 0, 0, 0, 0, 0⟩)⟩, by refine ⟨by constructor <;> decide +kernel, ?_⟩; decide +kernel⟩,
   ⟨(stUpB (stitchWord ⟨1, 0, 0, 0, 0, 0, 0⟩) inv0 { stBolt with state := .done }), 0, 0, ⟨0, inv0, 0, { stBolt with state := .done }, stitchOf (stitchWord ⟨1, 0, 0, 0, 0, 0, 0⟩)⟩, by refine ⟨by constructor <;> decide +kernel, ?_⟩; decide +kernel⟩,
   ⟨(stUpB (stitchWord ⟨1, 0, 0, 0, 0, 0, 0⟩) { inv0 with plt := 1 } stBolt), 0, 0, ⟨0, { inv0 with plt := 1 }, 0, stBolt, stitchOf (stitchWord ⟨1, 0, 0, 0, 0, 0, 0⟩)⟩, by refine ⟨by constructor <;> decide +kernel, ?_⟩; decide +kernel⟩,
   ⟨(stUpB (stitchWord ⟨33, 0, 0, 0, 0, 0, 0⟩) inv0 stBolt), 0, 0, ⟨0, inv0, 0, stBolt, stitchOf (stitchWord ⟨33, 0, 0, 0, 0, 0, 0⟩)⟩, by refine ⟨by constructor <;> decide +kernel, ?_⟩; decide +kernel⟩,
   ⟨(let s := stUp (stitchWord ⟨33, 0, 0, 0, 0, 0, 0x40000000⟩) inv0; regSet { s with cco := { s.cco with colls := [] } } .SEAM_CTX_BIND 0 0x80840001), 0, 0, stEnv (stitchWord ⟨33, 0, 0, 0, 0, 0, 0x40000000⟩) inv0, 16, by refine ⟨by constructor <;> decide +kernel, ?_⟩; decide +kernel⟩,
   ⟨(let s := stUp (stitchWord ⟨33, 0, 0, 0, 0, 0, 0⟩) inv0; let c : Coll := { coll0 with parentCredit := some (0, 0) }; { s with cco := { s.cco with colls := [c] } }), 0, 0, stEnv (stitchWord ⟨33, 0, 0, 0, 0, 0, 0⟩) inv0, { coll0 with parentCredit := some (0, 0) }, by refine ⟨by constructor <;> decide +kernel, ?_⟩; decide +kernel⟩,
   ⟨(stUpB (stitchWord ⟨3, 0, 0, 0, 0, 0, 0⟩) { inv0 with pend := [0] } stBolt), 0, 0, ⟨0, { inv0 with pend := [0] }, 0, stBolt, stitchOf (stitchWord ⟨3, 0, 0, 0, 0, 0, 0⟩)⟩, by refine ⟨by constructor <;> decide +kernel, ?_⟩; decide +kernel⟩,
   ⟨(stUpB (stitchWord ⟨4, 0, 0, 0, 0, 0, 0⟩) stArr { stBolt with msgs := [{ stMsg with whole := false }] }), 0, 0, ⟨0, stArr, 0, { stBolt with msgs := [{ stMsg with whole := false }] }, stitchOf (stitchWord ⟨4, 0, 0, 0, 0, 0, 0⟩)⟩, by decide +kernel⟩,
   ⟨(stUpB (stitchWord ⟨3, 0, 0, 0, 0, 0, 0x80000040⟩) inv0 stBolt), 0, 0, ⟨0, inv0, 0, stBolt, stitchOf (stitchWord ⟨3, 0, 0, 0, 0, 0, 0x80000040⟩)⟩, by refine ⟨by constructor <;> decide +kernel, ?_⟩; decide +kernel⟩,
   ⟨(stUpB (stitchWord ⟨25, 0, 0, 4, 1, 3, 0⟩) { inv0 with v := [(1, ⟨[0x3F800000, 0x40000000], []⟩), (2, ⟨[1, 0], []⟩)] } stBolt), 0, 0, ⟨0, { inv0 with v := [(1, ⟨[0x3F800000, 0x40000000], []⟩), (2, ⟨[1, 0], []⟩)] }, 0, stBolt, stitchOf (stitchWord ⟨25, 0, 0, 4, 1, 3, 0⟩)⟩, by refine ⟨by constructor <;> decide +kernel, ?_⟩; decide +kernel⟩,
   ⟨(stUpB (stitchWord ⟨1, 0, 0, 0, 0, 0, 0⟩) { inv0 with out := ⟨some 0, [1], [], [], [], []⟩ } stBolt), 0, 0, ⟨0, { inv0 with out := ⟨some 0, [1], [], [], [], []⟩ }, 0, stBolt, stitchOf (stitchWord ⟨1, 0, 0, 0, 0, 0, 0⟩)⟩, by refine ⟨by constructor <;> decide +kernel, ?_⟩; decide +kernel⟩,
   ⟨(stUpB (stitchWord ⟨16, 0, 0, 0, 1, 0, 0x40000000⟩) { inv0 with v := [(1, ⟨[0x3F800000, 0x40000000], []⟩), (2, ⟨[1, 0], []⟩)] } stBolt), 0, 0, ⟨0, { inv0 with v := [(1, ⟨[0x3F800000, 0x40000000], []⟩), (2, ⟨[1, 0], []⟩)] }, 0, stBolt, stitchOf (stitchWord ⟨16, 0, 0, 0, 1, 0, 0x40000000⟩)⟩, by refine ⟨by constructor <;> decide +kernel, ?_⟩; decide +kernel⟩,
   ⟨(stUpB (stitchWord ⟨16, 0, 0, 0, 0, 0, 0⟩) inv0 stBolt), 0, 0, ⟨0, inv0, 0, stBolt, stitchOf (stitchWord ⟨16, 0, 0, 0, 0, 0, 0⟩)⟩, by decide +kernel⟩,
   ⟨(stUpB (stitchWord ⟨34, 0, 0, 0, 0, 0, 0⟩) { inv0 with stall := true } stBolt), 0, 0, ⟨0, { inv0 with stall := true }, 0, stBolt, stitchOf (stitchWord ⟨34, 0, 0, 0, 0, 0, 0⟩)⟩, by refine ⟨by constructor <;> decide +kernel, ?_⟩; decide +kernel⟩,
   ⟨(stUpB (stitchWord ⟨3, 0, 0, 0, 0, 0, 0⟩) { inv0 with pend := [0], stall := true } stBolt), 0, 0, ⟨0, { inv0 with pend := [0], stall := true }, 0, stBolt, stitchOf (stitchWord ⟨3, 0, 0, 0, 0, 0, 0⟩)⟩, by refine ⟨by constructor <;> decide +kernel, ?_⟩; decide +kernel⟩,
   ⟨(stUpB 0 { inv0 with stall := true } stBolt), _, 0, 0, ⟨0, { inv0 with stall := true }, 0, stBolt, ⟨0, 0, 0, 0, 0, 0, 0⟩⟩, rfl, by decide +kernel, by decide +kernel, by decide +kernel, by decide +kernel, (fun _ _ h => by cases h)⟩,
   ⟨(stUpB (stitchWord ⟨4, 0, 0, 0, 0, 0, 0⟩) { stArr with held := true } stBolt), 0, 0, ⟨0, { stArr with held := true }, 0, stBolt, stitchOf (stitchWord ⟨4, 0, 0, 0, 0, 0, 0⟩)⟩, by decide +kernel⟩,
   ⟨(stUpB (stitchWord ⟨0, 0, 0, 0, 0, 0, 0⟩) inv0 stBolt), 0, 0, ⟨0, inv0, 0, stBolt, stitchOf (stitchWord ⟨0, 0, 0, 0, 0, 0, 0⟩)⟩, by decide +kernel⟩,
   ⟨up, 0, 0, by decide +kernel⟩,
   ⟨up, 0, 8, 0, by decide +kernel⟩,
   ⟨(let s := (stUpB (stitchWord ⟨11, 0, 2, 3, 1, 0, 0x80000000⟩) { inv0 with v := [(1, ⟨[0x3F800000, 0x40000000], []⟩), (2, ⟨[1, 0], []⟩)], resid := [(0, [1, 2])] } { stBolt with stage := 1 }); { s with cco := { s.cco with colls := [collRes] } }), 0, 0, ⟨0, { inv0 with v := [(1, ⟨[0x3F800000, 0x40000000], []⟩), (2, ⟨[1, 0], []⟩)], resid := [(0, [1, 2])] }, 0, { stBolt with stage := 1 }, stitchOf (stitchWord ⟨11, 0, 2, 3, 1, 0, 0x80000000⟩)⟩, collRes, { sessBase := 0, nsites := 2, siteIdx := 0, fmt := 1, resFp32 := false, banks := 2, spw := 0, remClear := false, remAddr := 0x1000 }, [1, 2], by refine ⟨by constructor <;> decide +kernel, ?_⟩; decide +kernel⟩,
   ⟨(let s := stUpB 0 inv0 { stBolt with msgs := [{ stMsg with taken := false }] }; runSet s 0 none), 0, 0, 0, ⟨0, false, 0, 0, 0⟩, { stBolt with msgs := [{ stMsg with taken := false }] }, by refine ⟨by constructor <;> decide +kernel, ?_⟩; decide +kernel⟩,
   ⟨(let s := stUpB 0 inv0 { stBolt with counted := [0, 1] }; runSet s 0 none), 0, 0, 0, ⟨0, true, 0, 0, 0⟩, { stBolt with counted := [0, 1] }, by refine ⟨by constructor <;> decide +kernel, ?_⟩; decide +kernel⟩⟩

/-- What the clauses of ProgramsAndScratch ask is met. -/
theorem test_meets_ProgramsAndScratch :
    (∃ (s : State) (req : Requester) (e : Nat) (v : Word), (Canon s) ∧ (Arrives s req .SEAM_SP_DATA e = true) ∧ (ctxBound s (spAddr s e).1 = false) ∧ ((spAddr s e).2 < 1024 * ctxSpa s (spAddr s e).1)) ∧
    (∃ (s : State) (req : Requester) (e : Nat) (v : Word), (Canon s) ∧ (Arrives s req .SEAM_SP_DATA e = true) ∧ (ctxBound s (spAddr s e).1 = true ∨ 1024 * ctxSpa s (spAddr s e).1 ≤ (spAddr s e).2)) ∧
    (∃ (s : State) (req : Requester) (e : Nat), (Canon s) ∧ (Arrives s req .SEAM_SP_DATA e = true)) ∧
    (∃ (s : State) (req : Requester) (e : Nat), (Canon s) ∧ (Arrives s req .SEAM_SP_DATA e = true) ∧ ((spAddr s e).2 < 1024 * ctxSpa s (spAddr s e).1)) ∧
    (∃ (s : State) (req : Requester) (i : Nat), (Canon s) ∧ (Arrives s req .SEAM_SLOT_CTRL i = true)) ∧
    (∃ (s : State) (req : Requester) (i : Nat), (Canon s) ∧ (Arrives s req .SEAM_SLOT_CTRL i = true) ∧ (slotBusy s i = false)) ∧
    (∃ (s : State) (req : Requester) (i : Nat), (Arrives s req .SEAM_SLOT_CTRL i = true) ∧ (slotBusy s i = true)) ∧
    (∃ (s : State) (i n : Nat), ((slotGet s i).checking = true) ∧ (slotVerdict s i = (0, n))) ∧
    (∃ (s : State) (i : Nat), ((slotGet s i).checking = false)) ∧
    (∃ (s : State) (i c k : Nat), (Canon s) ∧ ((slotGet s i).checking = true) ∧ (slotVerdict s i = (c, k)) ∧ (c ≠ 0)) ∧
    (∃ (s : State) (k : Nat) (v : Word), (Canon s) ∧ (heldGet s .SEAM_CTX_BIND k = some v) ∧ (ctxIdle s k = true) ∧ (bit v 31 = true) ∧ (chainsOk (regSet s .SEAM_CTX_BIND k v) = true)) ∧
    (∃ (s : State) (k : Nat) (v : Word), (Canon s) ∧ (heldGet s .SEAM_CTX_BIND k = some v) ∧ (ctxIdle s k = true) ∧ (bit v 31 = false)) ∧
    (∃ (s : State) (k : Nat) (v : Word), (Canon s) ∧ (heldGet s .SEAM_CTX_BIND k = some v) ∧ (ctxIdle s k = true) ∧ (bit v 31 = true) ∧ (chainsOk (regSet s .SEAM_CTX_BIND k v) = false)) ∧
    (∃ (s : State) (k : Nat), (heldGet s .SEAM_CTX_BIND k = none ∨ ctxIdle s k = false)) ∧
    (∃ (s : State) (e p : Nat), (Canon s) ∧ (p < 16)) ∧
    (∃ (s : State) (r : RemReq) (l : List RemReq) (x : Inv), (Canon s) ∧ (s.seam.remq = r :: l) ∧ (runOf s r.slot = some x) ∧ (x.num = r.inv) ∧ (r.write = true) ∧ (remWaiting s = false) ∧ (ueInPart s r.addr r.len = none)) ∧
    (∃ (s : State) (r : RemReq) (l : List RemReq) (x : Inv) (b : Bolt), (Canon s) ∧ (s.seam.remq = r :: l) ∧ (runOf s r.slot = some x) ∧ (x.num = r.inv) ∧ (r.write = false) ∧ (remWaiting s = false) ∧ (ueIn s r.addr r.len = none) ∧ (boltGet s x.bolt = some b)) ∧
    (∃ (s : State) (r : RemReq) (l : List RemReq), (s.seam.remq = r :: l) ∧ (remWaiting s = false) ∧ ((∀ x, runOf s r.slot = some x → x.num ≠ r.inv))) ∧
    (∃ (s : State), (remWaiting s = true)) ∧
    (∃ (s : State), (s.seam.remq = [])) ∧
    (∃ (s : State) (k : Nat) (r : RingMsg) (c : Coll) (st i kb : Nat) (b : Bolt), (s.seam.ring[k]? = some r) ∧ (collFind s r.panel r.coll = some c) ∧ (stageOf c r.ctx = some st) ∧ ((∃ x, epochFind c r.epoch = some x ∧ x.ended.contains (st, r.chunk) = false)) ∧ (ownIndex s c st = some i) ∧ (chunkBolt s c.panel c.id st r.epoch r.chunk = some (kb, b)) ∧ (boltGet s kb = some b) ∧ (b.state = .open) ∧ (boltHas b i = false) ∧ (b.want.contains i = true) ∧ (chunkTakes s b r.mode (r.out.fmt.getD r.fmt) true = true) ∧ (r.out.fmt.getD r.fmt ≠ 10) ∧ (b.fixed = true ∨ (collFind s b.panel b.coll).any (fun c => b.chunk + 1 == c.bucketChunks) = false)) ∧
    (∃ (s : State) (k : Nat) (r : RingMsg), (s.seam.ring[k]? = some r) ∧ ((ringArrive { s with seam := { s.seam with ring := s.seam.ring.eraseIdx k } } r none 0).1 = false)) ∧
    (∃ (s : State) (k : Nat) (r : RingMsg) (c : Coll) (st : Nat) (x : Epoch), (s.seam.ring[k]? = some r) ∧ (collFind s r.panel r.coll = some c) ∧ (stageOf c r.ctx = some st) ∧ (epochFind c r.epoch = some x) ∧ (x.ended.contains (st, r.chunk) = true)) ∧
    (∃ (s : State) (k : Nat), (s.seam.ring[k]? = none)) :=
  ⟨⟨spUp, .pf, 0, 7, by refine ⟨by constructor <;> decide +kernel, ?_⟩; decide +kernel⟩,
   ⟨up, .pf, 0, 7, by refine ⟨by constructor <;> decide +kernel, ?_⟩; decide +kernel⟩,
   ⟨spUp, .pf, 0, by refine ⟨by constructor <;> decide +kernel, ?_⟩; decide +kernel⟩,
   ⟨spUp, .pf, 0, by refine ⟨by constructor <;> decide +kernel, ?_⟩; decide +kernel⟩,
   ⟨up, .pf, 0, by refine ⟨by constructor <;> decide +kernel, ?_⟩; decide +kernel⟩,
   ⟨(regSet up .SEAM_SB_PAGE 4 9), .pf, 0, by refine ⟨by constructor <;> decide +kernel, ?_⟩; decide +kernel⟩,
   ⟨(slotUp 0), .pf, 0, by decide +kernel⟩,
   ⟨(slotUp 0x2C660AD1), 0, 0, by exact ⟨by decide +kernel, slotUp_taken⟩⟩,
   ⟨up, 0, by decide +kernel⟩,
   ⟨(slotUp 0), 0, 1, 0, by exact ⟨by constructor <;> decide +kernel, by decide +kernel, slotUp_refused, by decide⟩⟩,
   ⟨(heldSet up .SEAM_CTX_BIND 0 (some 0x80000001)), 0, 0x80000001, by refine ⟨by constructor <;> decide +kernel, ?_⟩; decide +kernel⟩,
   ⟨(heldSet up .SEAM_CTX_BIND 0 (some 1)), 0, 1, by refine ⟨by constructor <;> decide +kernel, ?_⟩; decide +kernel⟩,
   ⟨(heldSet up .SEAM_CTX_BIND 0 (some 0x80800001)), 0, 0x80800001, by refine ⟨by constructor <;> decide +kernel, ?_⟩; decide +kernel⟩,
   ⟨up, 0, by decide +kernel⟩,
   ⟨up, 0, 3, by refine ⟨by constructor <;> decide +kernel, by decide⟩⟩,
   ⟨(let s := stUp 0 inv0; let r : RemReq := ⟨0, 0, true, 0, 0x2000, [1, 2, 3, 4], 4⟩; { s with seam := { s.seam with remq := [r] } }), ⟨0, 0, true, 0, 0x2000, [1, 2, 3, 4], 4⟩, [], inv0, by refine ⟨by constructor <;> decide +kernel, ?_⟩; decide +kernel⟩,
   ⟨(let s := stUp 0 inv0; let r : RemReq := ⟨0, 0, false, 0, 0x2000, [], 4⟩; { s with seam := { s.seam with remq := [r] } }), ⟨0, 0, false, 0, 0x2000, [], 4⟩, [], inv0, stBolt, by refine ⟨by constructor <;> decide +kernel, ?_⟩; decide +kernel⟩,
   ⟨(let r : RemReq := ⟨0, 9, true, 0, 0x2000, [1], 1⟩; { up with seam := { up.seam with remq := [r] } }), ⟨0, 9, true, 0, 0x2000, [1], 1⟩, [], by decide +kernel, by decide +kernel, (fun x h => by cases (show none = some x from h))⟩,
   ⟨(let r : RemReq := ⟨0, 9, false, 0, 0x2000, [], 1000000000000⟩; { up with seam := { up.seam with remq := [r] } }), by decide +kernel⟩,
   ⟨up, by decide +kernel⟩,
   ⟨ringUp, 0, ⟨0, 77, 0, 0, 0, 16, 0, 0, ⟨some 0, [1, 2], [], [], [], []⟩, 0, 0⟩, { coll0 with ctx := [(1, 0)] }, 1, 0, 0, { stBolt with stage := 1 }, by decide +kernel⟩,
   ⟨(let c : Coll := { coll0 with ctx := [(1, 0)] }; let s := regSet ringUp .SEAM_CTX_BIND 0 0x80000600; { s with cco := { s.cco with colls := [c] }, seam := { s.seam with bolts := [] } }), 0, ⟨0, 77, 0, 0, 0, 16, 0, 0, ⟨some 0, [1, 2], [], [], [], []⟩, 0, 0⟩, by decide +kernel⟩,
   ⟨(let e : Epoch := ⟨0, .open, [], false, [], [], [(1, 0)], 0, [], [], false, false, false⟩; let c : Coll := { coll0 with ctx := [(1, 0)], epochs := [e] }; { ringUp with cco := { ringUp.cco with colls := [c] } }), 0, ⟨0, 77, 0, 0, 0, 16, 0, 0, ⟨some 0, [1, 2], [], [], [], []⟩, 0, 0⟩, (let e : Epoch := ⟨0, .open, [], false, [], [], [(1, 0)], 0, [], [], false, false, false⟩; { coll0 with ctx := [(1, 0)], epochs := [e] }), 1, ⟨0, .open, [], false, [], [], [(1, 0)], 0, [], [], false, false, false⟩, by decide +kernel⟩,
   ⟨up, 0, by decide +kernel⟩⟩

/-- What the clauses of ContributionsAndResults ask is met. -/
theorem test_meets_ContributionsAndResults :
    (∃ (s : State) (d : Datagram) (c : Coll) (i st k : Nat) (b0 b : Bolt), (Canon s) ∧ (ContribOk s d c i st k b0) ∧ (b0.state = .open) ∧ (domReady s (engDom (b0.ctx / 16)) = true) ∧ (b0.counted.contains i = false) ∧ (heldMsg b0 i = none) ∧ (boltGet (boltFix s k (dgHdr d).elems (dgHdr d).idx) k = some b)) ∧
    (∃ (s : State) (d : Datagram) (c : Coll) (i st k : Nat) (b0 b : Bolt) (m0 : Msg), (Canon s) ∧ (ContribOk s d c i st k b0) ∧ (b0.state = .open) ∧ (domReady s (engDom (b0.ctx / 16)) = true) ∧ (b0.counted.contains i = false) ∧ (boltGet (boltFix s k (dgHdr d).elems (dgHdr d).idx) k = some b) ∧ (heldMsg b i = some m0) ∧ (m0.whole = false)) ∧
    (∃ (s : State) (d : Datagram) (c : Coll) (i st k : Nat) (b0 : Bolt), (Canon s) ∧ (ContribOk s d c i st k b0) ∧ (b0.state = .reserved) ∧ (boltReady s b0 = true) ∧ (b0.counted.contains i = false) ∧ (b0.msgs = [])) ∧
    (∃ (s : State) (d : Datagram) (c : Coll) (i st k : Nat) (b : Bolt), (Canon s) ∧ (ContribOk s d c i st k b) ∧ (b.state ≠ .reserved) ∧ (domReady s (engDom (b.ctx / 16)) = true) ∧ (b.counted.contains i = true ∨ (∃ m, heldMsg b i = some m ∧ m.whole = true) ∨ b.state = .done ∨ b.state = .aborting)) ∧
    (∃ (s : State) (d : Datagram) (k cause : Nat), (Comes s d 1) ∧ (headCheck s d (portPanel s d.port) = some (k, cause))) ∧
    (∃ (s : State) (d : Datagram) (c : Coll) (cause : Nat), (HeadOk s d 1 c) ∧ (epochCheck c (dgHdr d).epoch = some cause)) ∧
    (∃ (s : State) (d : Datagram) (c : Coll) (cause : Nat), (HeadOk s d 1 c) ∧ (epochCheck c (dgHdr d).epoch = none) ∧ (rankCheck s c (dgHdr d).epoch (dgHdr d).rank d.srcIp d.srcPort = .error cause)) ∧
    (∃ (s : State) (d : Datagram) (c : Coll) (i st k cause : Nat), (HeadOk s d 1 c) ∧ (epochCheck c (dgHdr d).epoch = none) ∧ ((rankCheck s c (dgHdr d).epoch (dgHdr d).rank d.srcIp d.srcPort).toOption = some (i, st)) ∧ (bodyCheck s c st i (dgHdr d) (dgPayload d) = some (k, cause))) ∧
    (∃ (s : State) (d : Datagram) (c : Coll) (i st : Nat), (HeadOk s d 1 c) ∧ (epochCheck c (dgHdr d).epoch = none) ∧ ((rankCheck s c (dgHdr d).epoch (dgHdr d).rank d.srcIp d.srcPort).toOption = some (i, st)) ∧ (bodyCheck s c st i (dgHdr d) (dgPayload d) = none) ∧ (creditLimit c (dgHdr d).epoch ≤ (dgHdr d).chunk)) ∧
    (∃ (s : State) (d : Datagram) (c : Coll) (i st k : Nat) (b : Bolt), (ContribOk s d c i st k b) ∧ (b.state ≠ .reserved) ∧ (domReady s (engDom (b.ctx / 16)) = false)) ∧
    (∃ (s : State) (d : Datagram) (p k cause : Nat), (Canon s) ∧ (p < 16) ∧ (k ≠ 3) ∧ (s.cco.nacks.any (fun m => decide (s.localUs < m.us + 100) && m.panel == p && m.ip == d.srcIp && m.coll == (dgHdr d).coll && m.chunk == (dgHdr d).chunk && m.cause == cause) = false)) ∧
    (∃ (s : State) (d : Datagram), (portCarries s d.port = false ∨ domOn s 11 = false)) ∧
    (∃ (s : State) (d : Datagram) (c : Coll) (x : Epoch), (HeadOk s d 2 c) ∧ (epochFind c (dgHdr d).epoch = some x) ∧ (resultCheck s d c (heldOf c d) = none) ∧ ((heldOf c d).any (fun f => f.off == (dgHdr d).fragOff && f.n == (dgHdr d).nelem) = false) ∧ (x.done.contains (dgHdr d).chunk = false) ∧ (fragsComplete (heldOf c d ++ [fragOf d]) (dgHdr d).elems = false)) ∧
    (∃ (s : State) (d : Datagram) (c : Coll) (x : Epoch), (HeadOk s d 2 c) ∧ (epochFind c (dgHdr d).epoch = some x) ∧ (resultCheck s d c (heldOf c d) = none) ∧ ((heldOf c d).any (fun f => f.off == (dgHdr d).fragOff && f.n == (dgHdr d).nelem) = false) ∧ (x.done.contains (dgHdr d).chunk = false) ∧ (fragsComplete (heldOf c d ++ [fragOf d]) (dgHdr d).elems = true)) ∧
    (∃ (s : State) (d : Datagram) (c : Coll) (x : Epoch), (HeadOk s d 2 c) ∧ (epochFind c (dgHdr d).epoch = some x) ∧ (resultCheck s d c (heldOf c d) = none) ∧ (x.done.contains (dgHdr d).chunk = true)) ∧
    (∃ (s : State) (d : Datagram) (c : Coll) (x : Epoch) (k cause : Nat), (HeadOk s d 2 c) ∧ (epochFind c (dgHdr d).epoch = some x) ∧ (resultCheck s d c (heldOf c d) = some (k, cause))) ∧
    (∃ (s : State) (d : Datagram) (k cause : Nat), (Comes s d 2) ∧ (headCheck s d (portPanel s d.port) = some (k, cause))) ∧
    (∃ (s : State) (d : Datagram) (c : Coll), (HeadOk s d 2 c) ∧ (epochFind c (dgHdr d).epoch = none)) ∧
    (∃ (s : State) (d : Datagram) (c : Coll), (FromParent s d 3 c)) ∧
    (∃ (s : State) (d : Datagram) (c : Coll), (FromParent s d 3 c) ∧ ([2, 3, 4, 9, 0x0B, 0x0C, 0x0D, 0x0E, 0x10, 0x13].contains ((dgHdr d).aux / pow2 24) = true)) ∧
    (∃ (s : State) (d : Datagram) (c : Coll), (FromParent s d 3 c) ∧ ((dgHdr d).aux / pow2 24 = 1)) ∧
    (∃ (s : State) (d : Datagram) (c : Coll) (i st : Nat), (FromRank s d 3 c i st)) ∧
    (∃ (s : State) (k : Nat) (b : Bolt) (c : Coll), (boltGet s k = some b) ∧ (collFind s b.panel b.coll = some c) ∧ (b.state = .open) ∧ (regBf s .CCO_MISS_CFG b.panel 15 0 ≠ 0) ∧ (missing b ≠ []) ∧ (b.rounds < regBf s .CCO_MISS_CFG b.panel 19 16)) ∧
    (∃ (s : State) (k : Nat) (b : Bolt) (c : Coll), (boltGet s k = some b) ∧ (collFind s b.panel b.coll = some c) ∧ (b.state = .open) ∧ (regBf s .CCO_MISS_CFG b.panel 15 0 ≠ 0) ∧ (missing b ≠ []) ∧ (regBf s .CCO_MISS_CFG b.panel 19 16 ≤ b.rounds)) ∧
    (∃ (s : State) (k : Nat) (b : Bolt), (boltGet s k = none ∨ (boltGet s k = some b ∧ (missing b = [] ∨ b.state ≠ .open ∨ regBf s .CCO_MISS_CFG b.panel 15 0 = 0)))) :=
  ⟨⟨ctbUp ctbBolt, ctb, collTwo, 0, 0, 0, ctbBolt, ctbBolt, by refine ⟨by constructor <;> decide +kernel, ?_⟩; decide +kernel⟩,
   ⟨ctbUp { ctbBolt with msgs := [ctbHalf] }, dg { ctbHead with fragOff := 1, nelem := 1 } [0, 0, 0, 64], collTwo, 0, 0, 0, { ctbBolt with msgs := [ctbHalf] }, { ctbBolt with msgs := [ctbHalf] }, ctbHalf, by refine ⟨by constructor <;> decide +kernel, ?_⟩; decide +kernel⟩,
   ⟨regSet (ctbUp { ctbBolt with state := .reserved }) .SEAM_CTX_BIND 0 0x80000001, dg { ctbHead with crcEn := true } [0, 0, 128, 63, 0, 0, 0, 64], collTwo, 0, 0, 0, { ctbBolt with state := .reserved }, by refine ⟨by constructor <;> decide +kernel, ?_⟩; decide +kernel⟩,
   ⟨ctbUp { ctbBolt with counted := [0] }, ctb, collTwo, 0, 0, 0, { ctbBolt with counted := [0] }, by refine ⟨by constructor <;> decide +kernel, ?_⟩; decide +kernel⟩,
   ⟨(scpUp collDown), dg { { dgHead 1 with rank := 3, ncontrib := 2, elems := 2, nelem := 2 } with ver := 2 } [0, 0, 128, 63, 0, 0, 0, 64], 4, 1, by decide +kernel⟩,
   ⟨(scpUp collDown), dg { { dgHead 1 with rank := 3, ncontrib := 2, elems := 2, nelem := 2 } with epoch := 7 } [0, 0, 128, 63, 0, 0, 0, 64], collDown, 8, by decide +kernel⟩,
   ⟨ctbUp ctbBolt, dg { ctbHead with rank := 9 } [0, 0, 128, 63, 0, 0, 0, 64], collTwo, nkRank, by decide +kernel, by decide +kernel, err_of _ _ (by decide +kernel)⟩,
   ⟨ctbUp ctbBolt, dg { ctbHead with ncontrib := 3 } [0, 0, 128, 63, 0, 0, 0, 64], collTwo, 0, 0, 11, nkCount, by decide +kernel⟩,
   ⟨scpUp { collTwo with credit := (0, 0) }, ctb, { collTwo with credit := (0, 0) }, 0, 0, by decide +kernel⟩,
   ⟨domSet (ctbUp ctbBolt) 13 ⟨.draining, 0, false, none⟩, ctb, collTwo, 0, 0, 0, ctbBolt, by decide +kernel⟩,
   ⟨up, ctb, 0, 4, 0, by refine ⟨by constructor <;> decide +kernel, ?_⟩; decide +kernel⟩,
   ⟨up, dg (dgHead 1) [], by decide +kernel⟩,
   ⟨scpUp collTop, dg { resHead with nelem := 1 } [0, 0, 128, 63], collTop, ep0, by decide +kernel⟩,
   ⟨scpUp collTop, res, collTop, ep0, by decide +kernel⟩,
   ⟨scpUp { collTop with epochs := [{ ep0 with done := [0] }] }, res, { collTop with epochs := [{ ep0 with done := [0] }] }, { ep0 with done := [0] }, by decide +kernel⟩,
   ⟨scpUp collTop, dg { resHead with ncontrib := 1 } [0, 0, 128, 63, 0, 0, 0, 64], collTop, ep0, 11, nkCount, by decide +kernel⟩,
   ⟨scpUp collTop, dg { resHead with panel := 3 } [0, 0, 128, 63, 0, 0, 0, 64], 7, nkPanel, by decide +kernel⟩,
   ⟨(scpUp collUp), dg { dgHead 2 with epoch := 3 } [], collUp, by decide +kernel⟩,
   ⟨(scpUp collUp), dg { dgHead 3 with creditLim := 5, aux := 0x13000000 } [], collUp, by decide +kernel⟩,
   ⟨(scpUp collUp), dg { dgHead 3 with creditLim := 5, aux := 0x13000000 } [], collUp, by decide +kernel⟩,
   ⟨scpUp collUp, dg { dgHead 3 with aux := 0x01000000 } [], collUp, by decide +kernel⟩,
   ⟨(scpUp collDown), dg { dgHead 3 with rank := 3, aux := 0x13000000 } [], collDown, 0, 0, by decide +kernel⟩,
   ⟨(regSet (scpUp collDown) .CCO_MISS_CFG 0 0x00020001), 0, (let b : Bolt := { stBolt with want := [0, 1] }; b), collDown, by decide +kernel⟩,
   ⟨(regSet (scpUp collDown) .CCO_MISS_CFG 0 0x00000001), 0, (let b : Bolt := { stBolt with want := [0, 1] }; b), collDown, by decide +kernel⟩,
   ⟨up, 0, stBolt, by decide +kernel⟩⟩

/-- What the clauses of TreeMessages ask is met. -/
theorem test_meets_TreeMessages :
    (∃ (s : State) (d : Datagram) (c : Coll) (i st : Nat), (FromRank s d 4 c i st) ∧ (c.aborted.any (fun a => a.1 == (dgHdr d).epoch) = false) ∧ (lowestEpoch c ≤ (dgHdr d).epoch) ∧ (c.epochs.all (fun x => x.state != .closing) = true)) ∧
    (∃ (s : State) (d : Datagram) (c : Coll), (FromParent s d 4 c)) ∧
    (∃ (s : State) (d : Datagram) (c : Coll) (x : Epoch), (FromParent s d 5 c) ∧ (c.span = none) ∧ (epochFind c (dgHdr d).epoch = some x) ∧ (x.state = .open) ∧ (x.barrier = false) ∧ (c.bucketChunks ≤ x.done.length) ∧ (epochWrites s (portPanel s d.port) c.id (dgHdr d).epoch = 0) ∧ ((bolts s).any (fun e => e.2.ofColl (portPanel s d.port) c.id && e.2.epoch == (dgHdr d).epoch && e.2.state != .reserved) = false)) ∧
    (∃ (s : State) (d : Datagram) (c : Coll) (x : Epoch), (FromParent s d 5 c) ∧ (epochFind c (dgHdr d).epoch = some x) ∧ (x.state = .open) ∧ (x.barrier = true ∧ x.released = false ∨ x.barrier = false ∧ x.done.length < c.bucketChunks)) ∧
    (∃ (s : State) (d : Datagram) (c : Coll) (i st : Nat), (FromRank s d 5 c i st)) ∧
    (∃ (s : State) (d : Datagram) (c : Coll), (FromParent s d 6 c) ∧ ((dgHdr d).aux / pow2 24 = 1)) ∧
    (∃ (s : State) (d : Datagram) (c : Coll) (i st : Nat), (FromRank s d 6 c i st)) ∧
    (∃ (s : State) (d : Datagram) (c : Coll) (i st : Nat), (FromRank s d 6 c i st) ∧ ((dgHdr d).aux / pow2 24 = 2) ∧ (epochFind c (dgHdr d).epoch = none) ∧ ((contributors s c st (dgHdr d).epoch).any (fun x => x.1 != i) = true)) ∧
    (∃ (s : State) (d : Datagram) (c : Coll) (i : Nat) (x : Epoch), (FromRank s d 6 c i 0) ∧ ((dgHdr d).aux / pow2 24 = 2) ∧ (epochFind c (dgHdr d).epoch = some x) ∧ (x.barrier = true) ∧ (x.arrived.contains (0, i) = false) ∧ ((contributors s c 0 (dgHdr d).epoch).all (fun y => y.1 == i || x.arrived.contains (0, y.1)) = true) ∧ (hasStage c 1 = false)) ∧
    (∃ (s : State) (d : Datagram) (c : Coll) (i st : Nat) (x : Epoch), (FromRank s d 6 c i st) ∧ ((dgHdr d).aux / pow2 24 = 2) ∧ (epochFind c (dgHdr d).epoch = some x) ∧ (x.barrier = false ∨ x.arrived.contains (st, i) = true)) ∧
    (∃ (s : State) (d : Datagram) (c : Coll) (x : Epoch), (FromParent s d 6 c) ∧ (c.span = none) ∧ ((dgHdr d).aux / pow2 24 = 3) ∧ (epochFind c (dgHdr d).epoch = some x) ∧ (x.state = .open) ∧ (x.barrier = true) ∧ (x.released = false)) ∧
    (∃ (s : State) (d : Datagram) (c : Coll), (FromParent s d 6 c) ∧ ((dgHdr d).aux / pow2 24 = 4)) ∧
    (∃ (s : State) (d : Datagram), ((dgHdr d).opc = 6) ∧ (reservedOk (dgHdr d) = true) ∧ ((dgHdr d).aux / pow2 24 = 1)) ∧
    (∃ (s : State) (d : Datagram) (k cause : Nat), (headCheck s d (portPanel s d.port) = some (k, cause))) ∧
    (∃ (s : State) (d : Datagram) (c : Coll) (op : Nat), (HeadOk s d op c) ∧ ((∃ x, epochCheck c (dgHdr d).epoch = some x) ∨ (epochCheck c (dgHdr d).epoch = none ∧ fromParent c d.srcIp d.srcPort = false ∧ ∃ e, rankCheck s c (dgHdr d).epoch (dgHdr d).rank d.srcIp d.srcPort = .error e))) :=
  ⟨⟨(scpUp collDown), dg { dgHead 4 with rank := 3, aux := 0x06000000 } [], collDown, 0, 0, by decide +kernel⟩,
   ⟨(scpUp collUp), dg { dgHead 4 with creditLim := 5, aux := 0x06000000 } [], collUp, by decide +kernel⟩,
   ⟨(let s := scpUp ({ collUp with epochs := [{ ep0 with done := [0, 1, 2, 3] }] }); { s with seam := { s.seam with bolts := [] } }), dg { dgHead 5 with creditLim := 5 } [], { collUp with epochs := [{ ep0 with done := [0, 1, 2, 3] }] }, { ep0 with done := [0, 1, 2, 3] }, by decide +kernel⟩,
   ⟨scpUp ({ collUp with epochs := [ep0] }), dg { dgHead 5 with creditLim := 5 } [], { collUp with epochs := [ep0] }, ep0, by decide +kernel⟩,
   ⟨scpUp collDown, dg { dgHead 5 with rank := 3 } [], collDown, 0, 0, by decide +kernel⟩,
   ⟨(scpUp collUp), dg { dgHead 6 with creditLim := 5, aux := 0x01000000 } [], collUp, by decide +kernel⟩,
   ⟨scpUp collDown, dg { dgHead 6 with rank := 3, aux := 0x01000000 } [], collDown, 0, 0, by decide +kernel⟩,
   ⟨(scpUp collDown), dg { dgHead 6 with rank := 3, aux := 0x02000000, epoch := 1 } [], collDown, 0, 0, by decide +kernel⟩,
   ⟨scpUp { collDown with epochs := [{ ep0 with barrier := true, arrived := [(0, 1)] }] }, dg { dgHead 6 with rank := 3, aux := 0x02000000 } [], { collDown with epochs := [{ ep0 with barrier := true, arrived := [(0, 1)] }] }, 0, { ep0 with barrier := true, arrived := [(0, 1)] }, by decide +kernel⟩,
   ⟨(scpUp collDown), dg { dgHead 6 with rank := 3, aux := 0x02000000 } [], collDown, 0, 0, ⟨0, .open, [], false, [], [], [], 0, [], [], false, false, false⟩, by decide +kernel⟩,
   ⟨scpUp ({ collUp with epochs := [{ ep0 with barrier := true }] }), dg { dgHead 6 with creditLim := 5, aux := 0x03000000 } [], { collUp with epochs := [{ ep0 with barrier := true }] }, { ep0 with barrier := true }, by decide +kernel⟩,
   ⟨(scpUp { collUp with paused := true }), dg { dgHead 6 with creditLim := 5, aux := 0x04000000 } [], { collUp with paused := true }, by decide +kernel⟩,
   ⟨scpUp collUp, dg { dgHead 6 with aux := 0x01000000 } [], by decide +kernel⟩,
   ⟨(scpUp collDown), dg { dgHead 4 with ver := 2 } [], 4, 1, by decide +kernel⟩,
   ⟨scpUp collDown, dg { dgHead 5 with epoch := 7 } [], collDown, 5, by decide +kernel, .inl ⟨nkCredit, by decide +kernel⟩⟩⟩

/-- What the clauses of CoordinatorCommands ask is met. -/
theorem test_meets_CoordinatorCommands :
    (∃ (s : State) (req : Requester) (view : Nat), (Canon s) ∧ (Arrives s req .CCO_CMD view = true) ∧ ((cmdGet s view).busy = true)) ∧
    (∃ (s : State) (req : Requester) (view : Nat), (Canon s) ∧ (Arrives s req .CCO_CMD view = true) ∧ ((cmdGet s view).busy = false) ∧ (inQuota s view (cmdAddr s view) 16 = true) ∧ (ueIn s (cmdAddr s view) 16 = none) ∧ (cmdColl s view (leWord (hbmBytes s (cmdAddr s view) 16) 0) = none)) ∧
    (∃ (s : State) (req : Requester) (view : Nat), (Canon s) ∧ (Arrives s req .CCO_CMD view = true) ∧ ((cmdGet s view).busy = false) ∧ (inQuota s view (cmdAddr s view) 16 = false)) ∧
    (∃ (s : State) (req : Requester) (view : Nat) (p : Nat), (Canon s) ∧ (Arrives s req .CCO_CMD view = true) ∧ ((cmdGet s view).busy = false) ∧ (inQuota s view (cmdAddr s view) 128 = true) ∧ (ueIn s (cmdAddr s view) 128 = none) ∧ (openPanel s view (hbmBytes s (cmdAddr s view) 128) = some p) ∧ ((panelGet s p).state ≠ .resetting) ∧ (collOk s (collOf p (hbmBytes s (cmdAddr s view) 128)) (hbmBytes s (cmdAddr s view) 128) = true) ∧ ((collFind s p (collOf p (hbmBytes s (cmdAddr s view) 128)).id).isNone = true) ∧ (inQuota s view (collOf p (hbmBytes s (cmdAddr s view) 128)).rmapAddr (32 * (collOf p (hbmBytes s (cmdAddr s view) 128)).nrmap) = true) ∧ (ueIn s (collOf p (hbmBytes s (cmdAddr s view) 128)).rmapAddr (32 * (collOf p (hbmBytes s (cmdAddr s view) 128)).nrmap) = none) ∧ (rmapOk s (collOf p (hbmBytes s (cmdAddr s view) 128)) = true) ∧ (spanOk s (collOf p (hbmBytes s (cmdAddr s view) 128)) (hbmBytes s (cmdAddr s view) 128) = true) ∧ ((collOf p (hbmBytes s (cmdAddr s view) 128)).ndrec = 0) ∧ ((collOf p (hbmBytes s (cmdAddr s view) 128)).span = none)) ∧
    (∃ (s : State) (req : Requester) (view : Nat) (p : Nat), (Canon s) ∧ (Arrives s req .CCO_CMD view = true) ∧ ((cmdGet s view).busy = false) ∧ (inQuota s view (cmdAddr s view) 128 = true) ∧ (ueIn s (cmdAddr s view) 128 = none) ∧ (openPanel s view (hbmBytes s (cmdAddr s view) 128) = some p) ∧ ((panelGet s p).state ≠ .resetting) ∧ (collOk s (collOf p (hbmBytes s (cmdAddr s view) 128)) (hbmBytes s (cmdAddr s view) 128) = false ∨ (collFind s p (collOf p (hbmBytes s (cmdAddr s view) 128)).id).isSome = true)) ∧
    (∃ (s : State) (req : Requester) (view : Nat) (c : Coll), (Canon s) ∧ (Arrives s req .CCO_CMD view = true) ∧ ((cmdGet s view).busy = false) ∧ (inQuota s view (cmdAddr s view) 16 = true) ∧ (ueIn s (cmdAddr s view) 16 = none) ∧ (cmdColl s view (leWord (hbmBytes s (cmdAddr s view) 16) 0) = some c)) ∧
    (∃ (s : State) (req : Requester) (view : Nat) (c : Coll) (i j : Nat), (Canon s) ∧ (Arrives s req .CCO_CMD view = true) ∧ ((cmdGet s view).busy = false) ∧ (inQuota s view (cmdAddr s view) 16 = true) ∧ (ueIn s (cmdAddr s view) 16 = none) ∧ (cmdColl s view (leWord (hbmBytes s (cmdAddr s view) 16) 0) = some c) ∧ (leField (hbmBytes s (cmdAddr s view) 16) 13 2 = j) ∧ ((panelGet s c.panel).state ≠ .resetting) ∧ (j < c.nrmap) ∧ ((stageIndices s c (rmapEntry s c j).stage).find? (fun i => (rmapEntry s c i).rank == leField (hbmBytes s (cmdAddr s view) 16) 10 3) = some i) ∧ (j ≠ i) ∧ ((rmapEntry s c j).kind = 3) ∧ ((rmapEntry s c i).group = (rmapEntry s c j).group) ∧ (c.subs.any (fun q => q.2 == j) = false)) ∧
    (∃ (s : State) (req : Requester) (view : Nat) (c : Coll), (Canon s) ∧ (Arrives s req .CCO_CMD view = true) ∧ ((cmdGet s view).busy = false) ∧ (inQuota s view (cmdAddr s view) 16 = true) ∧ (ueIn s (cmdAddr s view) 16 = none) ∧ (cmdColl s view (leWord (hbmBytes s (cmdAddr s view) 16) 0) = some c) ∧ (c.aborted.any (fun a => a.1 == (leField (hbmBytes s (cmdAddr s view) 16) 4 6)) = false) ∧ (lowestEpoch c ≤ (leField (hbmBytes s (cmdAddr s view) 16) 4 6)) ∧ (c.epochs.all (fun x => x.state != .closing) = true)) ∧
    (∃ (s : State) (req : Requester) (view : Nat) (c : Coll), (Canon s) ∧ (Arrives s req .CCO_CMD view = true) ∧ ((cmdGet s view).busy = false) ∧ (inQuota s view (cmdAddr s view) 16 = true) ∧ (ueIn s (cmdAddr s view) 16 = none) ∧ (cmdColl s view (leWord (hbmBytes s (cmdAddr s view) 16) 0) = some c)) ∧
    (∃ (s : State) (req : Requester) (view : Nat) (c : Coll) (n : Nat) (q : Qp), (Canon s) ∧ (Arrives s req .CCO_CMD view = true) ∧ ((cmdGet s view).busy = false) ∧ (inQuota s view (cmdAddr s view) 16 = true) ∧ (ueIn s (cmdAddr s view) 16 = none) ∧ (cmdColl s view (leWord (hbmBytes s (cmdAddr s view) 16) 0) = some c) ∧ (qpOf s c.panel c.id (leField (hbmBytes s (cmdAddr s view) 16) 13 2) = some (n, q)) ∧ (ueIn s (c.drecAddr + 64 * leField (hbmBytes s (cmdAddr s view) 16) 13 2) 64 = none) ∧ (q.writes = [])) ∧
    (∃ (s : State) (view : Nat), (Canon s) ∧ ((cmdGet s view).busy = true) ∧ (view < 16) ∧ ((match (cmdGet s view).retire with | some (p, id) => (collFind s p id).isSome | none => false) = false)) ∧
    (∃ (s : State) (view : Nat), ((cmdGet s view).busy = false ∨ (∃ p id, (cmdGet s view).retire = some (p, id) ∧ (collFind s p id).isSome = true))) ∧
    (∃ (s : State) (view : Nat), (Canon s) ∧ ((cmdGet s view).busy = true) ∧ (16 ≤ view) ∧ ((match (cmdGet s view).retire with | some (p, id) => (collFind s p id).isSome | none => false) = false)) :=
  ⟨⟨ccoBusy, .pf, 16, by refine ⟨by constructor <;> decide +kernel, ?_⟩; decide +kernel⟩,
   ⟨(let s := ccoUp (ccoDesc 0) coll0; { s with cco := { s.cco with colls := [] } }), .pf, 16, by refine ⟨by constructor <;> decide +kernel, ?_⟩; decide +kernel⟩,
   ⟨up, .pf, 16, by refine ⟨by constructor <;> decide +kernel, ?_⟩; decide +kernel⟩,
   ⟨openUp, .pf, 16, 0, by refine ⟨by constructor <;> decide +kernel, ?_⟩; decide +kernel⟩,
   ⟨(let s := openUp; { s with cco := { s.cco with colls := [coll0] } }), .pf, 16, 0, by refine ⟨by constructor <;> decide +kernel, ?_⟩; decide +kernel⟩,
   ⟨(ccoUp (ccoDesc 0) coll0), .pf, 16, coll0, by refine ⟨by constructor <;> decide +kernel, ?_⟩; decide +kernel⟩,
   ⟨(let c : Coll := { coll0 with nrmap := 2 }; let s := ccoUp (ccoDesc 1) c; { s with mem := { s.mem with cells := (0, 3) :: (35, 3) :: s.mem.cells } }), .pf, 16, { coll0 with nrmap := 2 }, 0, 1, by refine ⟨by constructor <;> decide +kernel, ?_⟩; decide +kernel⟩,
   ⟨(ccoUp (ccoDesc 0) coll0), .pf, 16, coll0, by refine ⟨by constructor <;> decide +kernel, ?_⟩; decide +kernel⟩,
   ⟨(ccoUp (ccoDesc 0) coll0), .pf, 16, coll0, by refine ⟨by constructor <;> decide +kernel, ?_⟩; decide +kernel⟩,
   ⟨(let s := ccoUp (ccoDesc 0) coll0; let q : Qp := ⟨0, 77, 0, 9, 3, 3, 0, 0, 0, 0, 7, 7, 8, 12, true, []⟩; { s with cco := { s.cco with qps := [(5, some q)] } }), .pf, 16, coll0, 5, ⟨0, 77, 0, 9, 3, 3, 0, 0, 0, 0, 7, 7, 8, 12, true, []⟩, by refine ⟨by constructor <;> decide +kernel, ?_⟩; decide +kernel⟩,
   ⟨(cmdSet up 2 ⟨true, none, 5, 0⟩), 2, by refine ⟨by constructor <;> decide +kernel, ?_⟩; decide +kernel⟩,
   ⟨up, 16, .inl (by decide +kernel)⟩,
   ⟨ccoBusy, 16, by refine ⟨by constructor <;> decide +kernel, ?_⟩; decide +kernel⟩⟩

/-- What the clauses of DeliveryAndSpan ask is met. -/
theorem test_meets_DeliveryAndSpan :
    (∃ (s : State) (n psn : Nat) (q : Qp), (Canon s) ∧ (qpGet s n = some q) ∧ (q.err = false) ∧ (q.writes.any (fun w => psnLe w.last psn) = false)) ∧
    (∃ (s : State) (n psn : Nat) (q : Qp), (Canon s) ∧ (qpGet s n = some q) ∧ (q.err = false)) ∧
    (∃ (s : State) (n psn : Nat) (q : Qp) (w : RdmaWr) (x : ResCell), (Canon s) ∧ (qpGet s n = some q) ∧ (q.err = false) ∧ (q.writes = [w]) ∧ (psnLe w.last psn = true) ∧ (w.imm = false) ∧ (cellGet s w.cell = some x) ∧ (2 ≤ x.count) ∧ (collFind s q.panel q.coll = none ∨ (s.cco.colls.all (fun c => !c.retiring && c.epochs.all (fun e => e.state == .open && !e.released && decide (e.done.length < c.bucketChunks)))) = true)) ∧
    (∃ (s : State) (n psn : Nat) (q : Qp) (w : RdmaWr), (Canon s) ∧ (qpGet s n = some q) ∧ (q.err = false) ∧ (q.writes = [w]) ∧ (psnLe w.last ((psn + pow2 24 - 1) % pow2 24) = false) ∧ (psnLe w.first psn = true)) ∧
    (∃ (s : State) (n psn : Nat) (q : Qp) (w : RdmaWr), (Canon s) ∧ (qpGet s n = some q) ∧ (q.err = false) ∧ (q.writes = [w]) ∧ (psnLe w.last ((psn + pow2 24 - 1) % pow2 24) = false)) ∧
    (∃ (s : State) (n : Nat) (q : Qp) (w : RdmaWr), (Canon s) ∧ (qpGet s n = some q) ∧ (q.err = false) ∧ (q.writes = [w]) ∧ (w.retry ≠ 0)) ∧
    (∃ (s : State) (n : Nat) (q : Qp) (w : RdmaWr) (u : List RdmaWr), (qpGet s n = some q) ∧ (q.err = false) ∧ (q.writes = w :: u) ∧ (w.retry = 0)) ∧
    (∃ (s : State) (n psn : Nat) (q : Qp), (qpGet s n = none ∨ (qpGet s n = some q ∧ q.err = true))) ∧
    (∃ (s : State) (port : Nat), (Canon s) ∧ (portCarries s port = true) ∧ (domOn s 11 = true)) ∧
    (∃ (s : State) (g : Nat), (Canon s) ∧ (g < 16) ∧ (domOn s 11 = true) ∧ ((spw s g).armed = true) ∧ ((spw s g).isOpen = false) ∧ (s.time.everLocked = true) ∧ ([Rid.TM_SPW_CTRL, .TM_SPW_BASE_NS, .TM_SPW_BASE_SEC_LO, .TM_SPW_BASE_SEC_HI, .TM_SPW_CYCLE, .TM_SPW_OPEN].all (fun r => (heldGet s r g).isNone) = true)) ∧
    (∃ (s : State) (g : Nat), (Canon s) ∧ ((spw s g).isOpen = true)) ∧
    (∃ (s : State) (g : Nat), ((spw s g).isOpen = false) ∧ (g < 16)) ∧
    (∃ (s : State) (p : Nat) (id : Word) (j e : Nat) (c : Coll) (q : SpanCfg) (x : Epoch), (collFind s p id = some c) ∧ (c.span = some q) ∧ ((peerSites q).contains j = true) ∧ (epochFind c e = some x) ∧ (x.state = .open) ∧ (epochDone s c { x with closes := if x.closes.contains j then x.closes else x.closes ++ [j] } = false)) ∧
    (∃ (s : State) (p : Nat) (id : Word) (j e : Nat) (c : Coll) (q : SpanCfg), (collFind s p id = some c) ∧ (c.span = some q) ∧ ((peerSites q).contains j = true) ∧ (epochFind c e = none) ∧ (c.aborted.lookup e = none) ∧ (e < c.nextEpoch)) ∧
    (∃ (s : State) (p : Nat) (id : Word) (j e cause : Nat) (c : Coll) (q : SpanCfg), (collFind s p id = some c) ∧ (c.span = some q) ∧ ((peerSites q).contains j = true) ∧ (epochFind c e = none) ∧ (c.aborted.lookup e = some cause)) ∧
    (∃ (s : State) (p : Nat) (id : Word) (j e : Nat) (c : Coll) (q : SpanCfg) (x : Epoch), (collFind s p id = some c) ∧ (c.span = some q) ∧ ((peerSites q).contains j = true) ∧ (epochFind c e = some x) ∧ (x.state = .closing) ∧ ((peerSites q).all (fun i => i == j || x.closes.contains i) = true)) ∧
    (∃ (s : State) (p : Nat) (id : Word) (e : Nat) (c : Coll) (q : SpanCfg) (x : Epoch), (collFind s p id = some c) ∧ (c.span = some q) ∧ (epochFind c e = some x) ∧ (x.state = .closing)) ∧
    (∃ (s : State) (k : Nat) (g : StoredSeg), (Canon s) ∧ (sessKind s k = 0) ∧ (sessValid s k = true) ∧ (domOn s 18 = true) ∧ ((selvGet s k).store.find? (fun g => g.seq == (selvGet s k).rcvNxt) = some g) ∧ (g.hdr.npart = 1) ∧ (segChunks g = 1) ∧ ((selvGet s k).dlv = 0) ∧ (collFind s (sessPanelNo s k) g.hdr.coll = none)) ∧
    (∃ (s : State) (k : Nat) (g : StoredSeg) (c : Coll) (q : SpanCfg) (i : Nat) (b : Bolt), (Canon s) ∧ (sessKind s k = 0) ∧ (sessValid s k = true) ∧ (domOn s 18 = true) ∧ ((selvGet s k).store.find? (fun g => g.seq == (selvGet s k).rcvNxt) = some g) ∧ (g.hdr.npart = 1) ∧ (segChunks g = 1) ∧ ((selvGet s k).dlv = 0) ∧ (collFind s (sessPanelNo s k) g.hdr.coll = some c) ∧ (c.span = some q) ∧ (q.sessBase ≤ k) ∧ ((peerSites q).contains (k - q.sessBase) = true) ∧ ((epochFind c g.hdr.epoch).isSome = true) ∧ (chunkBolt s (sessPanelNo s k) g.hdr.coll 2 g.hdr.epoch (segChunk s (sessPanelNo s k) g 0).1 = some (i, b)) ∧ (boltGet s i = some b) ∧ (b.state = .open) ∧ (boltHas b (k - q.sessBase) = false) ∧ (b.want.contains (k - q.sessBase) = true) ∧ (g.hdr.fmt = q.fmt) ∧ (q.fmt ≠ 10) ∧ (b.fixed = true ∨ b.chunk + 1 ≠ c.bucketChunks) ∧ (b.elems ≠ 0) ∧ ((segChunk s (sessPanelNo s k) g 0).2.2.length = valueBytes q.fmt b.elems) ∧ (chunkTakes s b 0 g.hdr.fmt false = true)) ∧
    (∃ (s : State) (k : Nat) (g : StoredSeg) (c : Coll) (q : SpanCfg) (i : Nat) (b : Bolt), (Canon s) ∧ (sessKind s k = 0) ∧ (sessValid s k = true) ∧ (domOn s 18 = true) ∧ ((selvGet s k).store.find? (fun g => g.seq == (selvGet s k).rcvNxt) = some g) ∧ (g.hdr.npart = 1) ∧ (segChunks g = 1) ∧ ((selvGet s k).dlv = 0) ∧ (collFind s (sessPanelNo s k) g.hdr.coll = some c) ∧ (c.span = some q) ∧ (q.sessBase ≤ k) ∧ ((peerSites q).contains (k - q.sessBase) = true) ∧ ((epochFind c g.hdr.epoch).isSome = true) ∧ (chunkBolt s (sessPanelNo s k) g.hdr.coll 2 g.hdr.epoch (segChunk s (sessPanelNo s k) g 0).1 = some (i, b)) ∧ (g.hdr.fmt ≠ q.fmt)) ∧
    (∃ (s : State) (k : Nat) (g : StoredSeg), (Canon s) ∧ (sessKind s k = 0) ∧ (sessValid s k = true) ∧ (domOn s 18 = true) ∧ ((selvGet s k).store.find? (fun g => g.seq == (selvGet s k).rcvNxt) = some g) ∧ (g.hdr.part + 1 < g.hdr.npart)) ∧
    (∃ (s : State) (k : Nat) (g : StoredSeg) (c : Coll) (q : SpanCfg), (sessKind s k = 0) ∧ (sessValid s k = true) ∧ (domOn s 18 = true) ∧ ((selvGet s k).store.find? (fun g => g.seq == (selvGet s k).rcvNxt) = some g) ∧ (g.hdr.npart = 1) ∧ (collFind s (sessPanelNo s k) g.hdr.coll = some c) ∧ (c.span = some q) ∧ (q.sessBase ≤ k) ∧ ((peerSites q).contains (k - q.sessBase) = true) ∧ (epochFind c g.hdr.epoch = none) ∧ (c.aborted.any (fun a => a.1 == g.hdr.epoch) = false) ∧ (c.nextEpoch ≤ g.hdr.epoch) ∧ (chunkBolt s (sessPanelNo s k) g.hdr.coll 2 g.hdr.epoch (segChunk s (sessPanelNo s k) g (selvGet s k).dlv).1 = none)) ∧
    (∃ (s : State) (k : Nat), (sessKind s k ≠ 0 ∨ sessValid s k = false ∨ domOn s 18 = false ∨ (selvGet s k).store.find? (fun g => g.seq == (selvGet s k).rcvNxt) = none)) :=
  ⟨⟨(qpUp 7), 5, 9, (⟨0, 77, 0, 9, 3, 3, 0, 0, 0, 0, 7, 7, 8, 12, false, [qpW 7]⟩), by refine ⟨by constructor <;> decide +kernel, ?_⟩; decide +kernel⟩,
   ⟨qpUp 0, 5, 10, ⟨0, 77, 0, 9, 3, 3, 0, 0, 0, 0, 7, 7, 8, 12, false, [qpW 0]⟩, by refine ⟨by constructor <;> decide +kernel, ?_⟩; decide +kernel⟩,
   ⟨(qpUp 7), 5, 11, ⟨0, 77, 0, 9, 3, 3, 0, 0, 0, 0, 7, 7, 8, 12, false, [qpW 7]⟩, qpW 7, ⟨1, 2, none⟩, by refine ⟨by constructor <;> decide +kernel, ?_⟩; decide +kernel⟩,
   ⟨qpUp 7, 5, 10, ⟨0, 77, 0, 9, 3, 3, 0, 0, 0, 0, 7, 7, 8, 12, false, [qpW 7]⟩, qpW 7, by refine ⟨by constructor <;> decide +kernel, ?_⟩; decide +kernel⟩,
   ⟨(qpUp 7), 5, 10, ⟨0, 77, 0, 9, 3, 3, 0, 0, 0, 0, 7, 7, 8, 12, false, [qpW 7]⟩, qpW 7, by refine ⟨by constructor <;> decide +kernel, ?_⟩; decide +kernel⟩,
   ⟨qpUp 7, 5, ⟨0, 77, 0, 9, 3, 3, 0, 0, 0, 0, 7, 7, 8, 12, false, [qpW 7]⟩, qpW 7, by refine ⟨by constructor <;> decide +kernel, ?_⟩; decide +kernel⟩,
   ⟨qpUp 0, 5, ⟨0, 77, 0, 9, 3, 3, 0, 0, 0, 0, 7, 7, 8, 12, false, [qpW 0]⟩, qpW 0, [], by decide +kernel⟩,
   ⟨up, 5, 0, ⟨0, 77, 0, 9, 3, 3, 0, 0, 0, 0, 7, 7, 8, 12, true, []⟩, by decide +kernel⟩,
   ⟨sw, 0, by refine ⟨by constructor <;> decide +kernel, ?_⟩; decide +kernel⟩,
   ⟨{ up with spw := [(2, ⟨true, false, false, 0, 0⟩)], time := { up.time with everLocked := true } }, 2, by refine ⟨by constructor <;> decide +kernel, ?_⟩; decide +kernel⟩,
   ⟨{ up with spw := [(2, ⟨true, true, false, 0, 0⟩)] }, 2, by refine ⟨by constructor <;> decide +kernel, ?_⟩; decide +kernel⟩,
   ⟨up, 2, by decide +kernel⟩,
   ⟨(let s := up; { s with cco := { s.cco with colls := [collSpan] } }), 0, 77, 1, 0, collSpan, { sessBase := 0, nsites := 2, siteIdx := 0, fmt := 0, resFp32 := false, banks := 2, spw := 0, remClear := false, remAddr := 0 }, ⟨0, .open, [], false, [], [], [], 0, [], [], false, false, false⟩, by decide +kernel⟩,
   ⟨(let c : Coll := { collSpan with epochs := [], nextEpoch := 3 }; { up with cco := { up.cco with colls := [c] } }), 0, 77, 1, 0, { collSpan with epochs := [], nextEpoch := 3 }, { sessBase := 0, nsites := 2, siteIdx := 0, fmt := 0, resFp32 := false, banks := 2, spw := 0, remClear := false, remAddr := 0 }, by decide +kernel⟩,
   ⟨spanUp { collSpan with epochs := [], aborted := [(0, 3)] }, 0, 77, 1, 0, 3, { collSpan with epochs := [], aborted := [(0, 3)] }, { sessBase := 0, nsites := 2, siteIdx := 0, fmt := 0, resFp32 := false, banks := 2, spw := 0, remClear := false, remAddr := 0 }, by decide +kernel⟩,
   ⟨spanUp { collSpan with epochs := [{ ep0 with state := .closing }] }, 0, 77, 1, 0, { collSpan with epochs := [{ ep0 with state := .closing }] }, { sessBase := 0, nsites := 2, siteIdx := 0, fmt := 0, resFp32 := false, banks := 2, spw := 0, remClear := false, remAddr := 0 }, { ep0 with state := .closing }, by decide +kernel⟩,
   ⟨(let e : Epoch := ⟨0, .closing, [], false, [], [], [], 0, [], [], false, false, false⟩; let c : Coll := { collSpan with epochs := [e] }; { up with cco := { up.cco with colls := [c] } }), 0, 77, 0, (let e : Epoch := ⟨0, .closing, [], false, [], [], [], 0, [], [], false, false, false⟩; { collSpan with epochs := [e] }), { sessBase := 0, nsites := 2, siteIdx := 0, fmt := 0, resFp32 := false, banks := 2, spw := 0, remClear := false, remAddr := 0 }, ⟨0, .closing, [], false, [], [], [], 0, [], [], false, false, false⟩, by decide +kernel⟩,
   ⟨(let s := spanUp collSpan; { s with cco := { s.cco with colls := [] } }), 1, spanSeg, by refine ⟨by constructor <;> decide +kernel, ?_⟩; decide +kernel⟩,
   ⟨(spanUp collSpan), 1, spanSeg, collSpan, { sessBase := 0, nsites := 2, siteIdx := 0, fmt := 0, resFp32 := false, banks := 2, spw := 0, remClear := false, remAddr := 0 }, 0, { stBolt with stage := 2, want := [1] }, by refine ⟨by constructor <;> decide +kernel, ?_⟩; decide +kernel⟩,
   ⟨spanUp { collSpan with span := some { sessBase := 0, nsites := 2, siteIdx := 0, fmt := 1, resFp32 := false, banks := 2, spw := 0, remClear := false, remAddr := 0 } }, 1, spanSeg, { collSpan with span := some { sessBase := 0, nsites := 2, siteIdx := 0, fmt := 1, resFp32 := false, banks := 2, spw := 0, remClear := false, remAddr := 0 } }, { sessBase := 0, nsites := 2, siteIdx := 0, fmt := 1, resFp32 := false, banks := 2, spw := 0, remClear := false, remAddr := 0 }, 0, { stBolt with stage := 2, want := [1] }, by refine ⟨by constructor <;> decide +kernel, ?_⟩; decide +kernel⟩,
   ⟨(let s := spanUp collSpan; let x : SelvSess := { SelvSess.reset with state := .open, store := [{ spanSeg with hdr := { spanSeg.hdr with npart := 2 } }] }; { s with selv := { s.selv with sess := [(1, x)] } }), 1, { spanSeg with hdr := { spanSeg.hdr with npart := 2 } }, by refine ⟨by constructor <;> decide +kernel, ?_⟩; decide +kernel⟩,
   ⟨(let s := spanUp { collSpan with epochs := [], nextEpoch := 0 }; { s with seam := { s.seam with bolts := [] } }), 1, spanSeg, { collSpan with epochs := [], nextEpoch := 0 }, { sessBase := 0, nsites := 2, siteIdx := 0, fmt := 0, resFp32 := false, banks := 2, spw := 0, remClear := false, remAddr := 0 }, by decide +kernel⟩,
   ⟨up, 3, by decide +kernel⟩⟩

/-- What the clauses of PleatUnits ask is met. -/
theorem test_meets_PleatUnits :
    (∃ (s : State) (req : Requester) (k : Nat), (Arrives s req .PLT_CMD 0 = true) ∧ (s.plt.busy = true)) ∧
    (∃ (s : State) (req : Requester) (k : Nat), (Arrives s req .PLT_CMD 0 = true) ∧ (s.plt.busy = false)) ∧
    (∃ (s : State) (req : Requester) (k : Nat), (Arrives s req .PLT_CMD 0 = true) ∧ (s.plt.busy = false) ∧ (codebookRef s (k % 256) ≠ 0)) ∧
    (∃ (s : State) (req : Requester) (k : Nat), (Canon s) ∧ (Arrives s req .PLT_CMD 0 = true) ∧ (s.plt.busy = false) ∧ (codebookRef s (k % 256) = 0) ∧ (inQuota s pfView ((regGet s .PLT_CMD_ADDR_LO 0).toNat + (regGet s .PLT_CMD_ADDR_HI 0).toNat * pow2 32) 16 = true) ∧ (ueIn s ((regGet s .PLT_CMD_ADDR_LO 0).toNat + (regGet s .PLT_CMD_ADDR_HI 0).toNat * pow2 32) 16 = none) ∧ ((leField (hbmBytes s ((regGet s .PLT_CMD_ADDR_LO 0).toNat + (regGet s .PLT_CMD_ADDR_HI 0).toNat * pow2 32) 16) 8 1) ≤ 2) ∧ (inQuota s pfView (leField (hbmBytes s ((regGet s .PLT_CMD_ADDR_LO 0).toNat + (regGet s .PLT_CMD_ADDR_HI 0).toNat * pow2 32) 16) 0 8) (544 * pow2 ((leField (hbmBytes s ((regGet s .PLT_CMD_ADDR_LO 0).toNat + (regGet s .PLT_CMD_ADDR_HI 0).toNat * pow2 32) 16) 8 1) + 1)) = true) ∧ (ueIn s (leField (hbmBytes s ((regGet s .PLT_CMD_ADDR_LO 0).toNat + (regGet s .PLT_CMD_ADDR_HI 0).toNat * pow2 32) 16) 0 8) (544 * pow2 ((leField (hbmBytes s ((regGet s .PLT_CMD_ADDR_LO 0).toNat + (regGet s .PLT_CMD_ADDR_HI 0).toNat * pow2 32) 16) 8 1) + 1)) = none)) ∧
    (∃ (s : State) (req : Requester) (k : Nat), (Arrives s req .PLT_CMD 0 = true) ∧ (s.plt.busy = false) ∧ (codebookRef s (k % 256) = 0) ∧ (inQuota s pfView ((regGet s .PLT_CMD_ADDR_LO 0).toNat + (regGet s .PLT_CMD_ADDR_HI 0).toNat * pow2 32) 16 = false)) ∧
    (∃ (s : State) (img : List Byte), (Canon s) ∧ (s.plt.busy = true) ∧ (s.plt.op = 1) ∧ (s.plt.image = some img) ∧ (imageOk s.plt.dim img = true) ∧ (s.plt.next = 0)) ∧
    (∃ (s : State) (img : List Byte), (Canon s) ∧ (s.plt.busy = true) ∧ (s.plt.op = 1) ∧ (s.plt.image = some img) ∧ (imageOk s.plt.dim img = false)) ∧
    (∃ (s : State), (Canon s) ∧ (s.plt.busy = true) ∧ (s.plt.op = 2) ∧ (s.plt.image = none) ∧ (s.plt.next = 0)) ∧
    (∃ (s : State), (Canon s) ∧ (s.plt.busy = true) ∧ (s.plt.image = none) ∧ (s.plt.next ≠ 0)) ∧
    (∃ (s : State), (s.plt.busy = false)) ∧
    (∃ (s : State) (k : Nat) (q : EncReq) (x : Inv) (b : Bolt), (Canon s) ∧ (s.plt.enc[k]? = some q) ∧ (k < 16) ∧ (domOn s 17 = true) ∧ (runOf s q.slot = some x) ∧ (x.num = q.inv) ∧ (boltGet s x.bolt = some b)) ∧
    (∃ (s : State) (k : Nat) (q : EncReq), (Canon s) ∧ (s.plt.enc[k]? = some q) ∧ (k < 16) ∧ (domOn s 17 = true) ∧ ((∀ x, runOf s q.slot = some x → x.num ≠ q.inv))) ∧
    (∃ (s : State) (k : Nat), (s.plt.enc[k]? = none ∨ 16 ≤ k ∨ domOn s 17 = false)) ∧
    (∃ (s : State) (g n : Nat) (d : DecJob) (b : Bolt) (m : Msg), (Canon s) ∧ (s.plt.dec.find? (fun d => d.group == g && d.block % 16 == n) = some d) ∧ (domOn s 17 = true) ∧ (boltGet s d.bolt = some b) ∧ (b.msgs.find? (fun m => m.index == d.index) = some m) ∧ (m.dbob.isSome = true) ∧ (bobUse s 0x24 m.dbob (1024 * d.block) = (true, s))) ∧
    (∃ (s u : State) (g n : Nat) (d : DecJob) (b : Bolt) (m : Msg), (s.plt.dec.find? (fun d => d.group == g && d.block % 16 == n) = some d) ∧ (domOn s 17 = true) ∧ (boltGet s d.bolt = some b) ∧ (b.msgs.find? (fun m => m.index == d.index) = some m) ∧ (m.dbob = none ∧ u = s ∨ m.dbob.isSome = true ∧ bobUse s 0x24 m.dbob (1024 * d.block) = (false, u))) ∧
    (∃ (s : State) (g n : Nat), (s.plt.dec.find? (fun d => d.group == g && d.block % 16 == n) = none ∨ domOn s 17 = false)) :=
  ⟨⟨pltClr, .pf, 1, by decide +kernel⟩,
   ⟨up, .pf, 1, by decide +kernel⟩,
   ⟨(regSet up .PLT_CTX_CB 0 0x80000001), .pf, 1, by decide +kernel⟩,
   ⟨pltLd, .pf, 1, by refine ⟨by constructor <;> decide +kernel, ?_⟩; decide +kernel⟩,
   ⟨up, .pf, 1, by decide +kernel⟩,
   ⟨(pltUp (List.replicate 1088 0)), List.replicate 1088 0, by refine ⟨by constructor <;> decide +kernel, ?_⟩; decide +kernel⟩,
   ⟨(pltUp []), [], by refine ⟨by constructor <;> decide +kernel, ?_⟩; decide +kernel⟩,
   ⟨pltClr, by refine ⟨by constructor <;> decide +kernel, ?_⟩; decide +kernel⟩,
   ⟨{ up with plt := { up.plt with busy := true, op := 1, slot := 1, image := none, next := 5 } }, by refine ⟨by constructor <;> decide +kernel, ?_⟩; decide +kernel⟩,
   ⟨up, by decide +kernel⟩,
   ⟨encUp, 0, ⟨0, 0, 0, 0, false, 3, 0, [], false, none, 0⟩, { inv0 with pend := [3], plt := 1, out := ⟨some 10, [], [], [], [none], []⟩ }, stBolt, by refine ⟨by constructor <;> decide +kernel, ?_⟩; decide +kernel⟩,
   ⟨{ up with plt := { up.plt with enc := [⟨0, 0, 0, 0, false, 3, 0, [], false, none, 0⟩] } }, 0, ⟨0, 0, 0, 0, false, 3, 0, [], false, none, 0⟩, by constructor <;> decide +kernel, by decide +kernel, by decide +kernel, by decide +kernel, (fun x h => by cases (show none = some x from h))⟩,
   ⟨up, 3, by decide +kernel⟩,
   ⟨decUp (some 0x40000000), 0, 0, ⟨0, 0, 0, 0, 0, [0, 1]⟩, { stBolt with msgs := [decMsg (some 0x40000000)] }, decMsg (some 0x40000000), by refine ⟨by constructor <;> decide +kernel, ?_⟩; decide +kernel⟩,
   ⟨decUp none, decUp none, 0, 0, ⟨0, 0, 0, 0, 0, [0, 1]⟩, { stBolt with msgs := [decMsg none] }, decMsg none, by decide +kernel, by decide +kernel, by decide +kernel, by decide +kernel, .inl ⟨rfl, rfl⟩⟩,
   ⟨up, 0, 0, by decide +kernel⟩⟩

/-- What SafeStateLasts asks is met. -/
theorem test_meets_SafeStateLasts :
    ∃ s t : State, s.boot.stage = 15 ∧ 3 ≤ s.boot.samples.length ∧ s.pending.head? ≠ some .porstNAssert ∧ step s = .next t :=
  ⟨{ upAt 15 with boot := { (upAt 15).boot with samples := [[], [], []] }, pending := [.fabricReady] }, _, by decide +kernel, by decide +kernel,
   by decide +kernel, rfl⟩

/-- What MinimumVersionNeverFalls asks is met, by a raise in progress that ends. -/
theorem test_meets_MinimumVersionNeverFalls :
    ∃ s t : State, s.boot.secBusy = true ∧ (s.boot.secBusy = true → s.boot.minver.toNat ≤ s.boot.secValue.toNat) ∧ step s = .next t ∧
      s.boot.minver.toNat < t.boot.minver.toNat :=
  ⟨{ up with boot := { up.boot with minver := 2, secBusy := true, secValue := 5 }, pending := [.raiseMinverDone false] }, _, by decide +kernel,
   by decide +kernel, rfl, by decide +kernel⟩

/-- What the clauses of ScpHeaderRoundTrip ask is met, at the upper end of several fields. -/
theorem test_meets_ScpHeaderRoundTrip :
    (∃ h : ScpHdr, h.inRange = true ∧ h.epoch = 2 ^ 48 - 1 ∧ h.nelem = 8191 ∧ h.rank = rankNone) ∧
    (∃ bs : List Byte, bs.length = 64 ∧ (scpParse bs).resv = true ∧ bs ≠ List.replicate 64 0) ∧
    (∃ t : Stitch, t.inRange = true ∧ t.op = 63) :=
  ⟨⟨{ scpBlank with epoch := 2 ^ 48 - 1, nelem := 8191, rank := rankNone, hold := true }, by decide +kernel⟩,
   ⟨scpEncode { scpBlank with epoch := 7, hold := true }, by decide +kernel⟩, ⟨⟨63, 0, 0, 0, 0, 0, 0xFFFFFFFF⟩, by decide +kernel⟩⟩

/-- What the clauses of IotaIndexes ask is met. -/
theorem test_meets_IotaIndexes :
    (∃ (s : State) (eng slot : Nat) (v : Env), (Canon s) ∧ (Issues s eng slot 5 v) ∧ (tabWf ⟨[], []⟩ v.x.v = true) ∧ (regsReady v.x [v.t.dst] = true) ∧ (immBf v.t 20 20 = 0)) ∧
    (∃ (s : State) (eng slot : Nat) (v : Env) (c : Coll), (Canon s) ∧ (Issues s eng slot 5 v) ∧ (tabWf ⟨[], []⟩ v.x.v = true) ∧ (regsReady v.x [v.t.dst] = true) ∧ (immBf v.t 20 20 = 1) ∧ (collFind s v.b.panel v.b.coll = some c)) :=
  ⟨⟨(stUpB (stitchWord ⟨5, 11, 0, 4, 0, 0, 0⟩) inv0 stBolt), 0, 0, ⟨0, inv0, 0, stBolt, stitchOf (stitchWord ⟨5, 11, 0, 4, 0, 0, 0⟩)⟩, by refine ⟨by constructor <;> decide +kernel, ?_⟩; decide +kernel⟩,
   ⟨(stUpB (stitchWord ⟨5, 11, 0, 4, 0, 0, 0x00100000⟩) inv0 stBolt), 0, 0, ⟨0, inv0, 0, stBolt, stitchOf (stitchWord ⟨5, 11, 0, 4, 0, 0, 0x00100000⟩)⟩, coll0, by refine ⟨by constructor <;> decide +kernel, ?_⟩; decide +kernel⟩⟩

/-- What the clauses of LimitWrites ask is met. -/
theorem test_meets_LimitWrites :
    (∃ (s : State) (req : Requester) (p c : Nat) (v : Word), (Arrives s req .SW_LIMIT (pc p c) = true) ∧ ((bf (acceptWord .SW_LIMIT (regGet s .SW_LIMIT (pc p c)) v) 18 0 : Int) - bf (regGet s .SW_PFC (pc p c)) 11 0 - bf (regGet s .SW_PFC (pc p c)) 27 16 < 0 ∨ (bf (acceptWord .SW_LIMIT (regGet s .SW_LIMIT (pc p c)) v) 18 0 : Int) - bf (regGet s .SW_PFC (pc p c)) 11 0 < 36)) ∧
    (∃ (s : State) (req : Requester) (p c : Nat) (v : Word), (Arrives s req .SW_PFC (pc p c) = true) ∧ ((bf (regGet s .SW_LIMIT (pc p c)) 18 0 : Int) - bf (acceptWord .SW_PFC (regGet s .SW_PFC (pc p c)) v) 11 0 - bf (acceptWord .SW_PFC (regGet s .SW_PFC (pc p c)) v) 27 16 < 0 ∨ (bf (regGet s .SW_LIMIT (pc p c)) 18 0 : Int) - bf (acceptWord .SW_PFC (regGet s .SW_PFC (pc p c)) v) 11 0 < 36)) :=
  ⟨⟨up, .pf, 1, 2, 3, by decide +kernel⟩,
   ⟨sw, .pf, 0, 0, 0x01600100, by decide +kernel⟩⟩

/-- What the clauses of QuadrantMode ask is met. -/
theorem test_meets_QuadrantMode :
    (∃ (s : State) (req : Requester) (q : Nat) (v : Word), (Arrives s req .FPORT_QD_MODE q = true) ∧ ((∃ k, k < 32 ∧ portEn s (32 * q + k) = true) ∨ (∃ j, j < 64 ∧ laneBasting s (64 * q + j) = true))) ∧
    (∃ (s : State) (req : Requester) (q : Nat) (v : Word), (Canon s) ∧ (Arrives s req .FPORT_QD_MODE q = true) ∧ (∀ k, k < 32 → portEn s (32 * q + k) = false) ∧ (∀ j, j < 64 → laneBasting s (64 * q + j) = false) ∧ (bf v 1 0 ≠ 3)) ∧
    (∃ (s : State) (req : Requester) (q : Nat) (v : Word), (Arrives s req .FPORT_QD_MODE q = true) ∧ (∀ k, k < 32 → portEn s (32 * q + k) = false) ∧ (∀ j, j < 64 → laneBasting s (64 * q + j) = false) ∧ (bf v 1 0 = 3)) :=
  ⟨⟨sw, .pf, 0, 1, ⟨by decide +kernel, Or.inl ⟨0, by decide +kernel⟩⟩⟩,
   ⟨sw, .pf, 1, 1, by refine ⟨by constructor <;> decide +kernel, ?_⟩; decide +kernel⟩,
   ⟨sw, .pf, 1, 3, by decide +kernel⟩⟩
end

section

namespace Sys2Proof.Machine

/-! ### The end of an ARRIVE invocation may send XOFF

END drops its contribution, whose cells leave the charge of the port they came by (R223).  Priority flow control is looked at for that class
again (R228), and an XOFF on TC1 to TC3 marks the first resource of R461.  So END reaches the part of the state that holds those marks, which
the statement's frame does not list. -/

/-- What the command END answers. -/
theorem exec_stitchEnd (eng slot : Nat) (s : State) : exec (.stitchEnd eng slot) s = .next (issueOp s eng slot 0x01 none) := rfl

/-- The ARRIVE invocation of contributor 0, at the first stitch of its program. -/
def xoffInv : Inv :=
  { num := 0, done := false, ctx := 0, bolt := 0, index := 0, pc := 0, v := [], loops := [], out := emptyStream, bobbin := none, bobWait := false,
    pend := [], plt := 0, resid := [], emits := [], flags := 0, stall := false, held := false }

/-- Its contribution, whose one cell is charged to port 0 and TC1. -/
def xoffMsg : Msg :=
  { index := 0, rank := 0, ip := 0, port := 0, fmt := 0, elems := 2, hasIdx := false, standin := false, flags := 0, frags := [],
    data := ⟨0, [0x3F800000, 0x40000000], [], [], []⟩, decode := 0, dbob := none, handles := [], cells := 1, charges := [(pc 0 1, 1)],
    whole := true, taken := true, parked := false, age := 0, us := 0 }

/-- The open chunk of two contributors that it belongs to. -/
def xoffBolt : Bolt :=
  { panel := 0, coll := 77, stage := 0, epoch := 0, chunk := 0, state := .open, ctx := 0, elems := 2, fixed := false, want := [0, 1], mode := 0,
    fmt := 0, gen := 0, arith := 0, cb := 0, acc := [⟨0, 0, none⟩, ⟨0, 0, none⟩], flags := 0, msgs := [xoffMsg], counted := [], firstUs := 0,
    rounds := 0, lastIdx := 0, lastUs := 0, prevUs := 0, chalk := 0, done := false, age := 0 }

/-- A frame of the largest size that came by port 0 on TC1 and still waits for port 1. -/
def xoffFrame : Frame :=
  { inp := 0, cls := 1, dests := [1], data := List.replicate 9216 0, bad := false, arrUs := 0, handle := none, cells := 36, own := none, res := none }

/-- Port 0, whose link has just come up: it carries frames and has not paused its peer (R249). -/
def xoffPort : FabPort := { FabPort.reset with link := true, fecLock := true }

/-- The word of END. -/
def endWord : Dword := stitchWord ⟨0x01, 0, 0, 0, 0, 0, 0⟩

/-- Slot 0 of engine 0 is about to issue END, while three frames keep port 0 above its XOFF of 100 cells on TC1. -/
def xoffState : State :=
  let s := { State.reset with pwr := (List.range 24).map (fun d => (d, ⟨.on, 0, false, none⟩)) }
  let s := regSet (regSet (regSet s .SEAM_CTX_BIND 0 0x80000001) .FPORT_CTRL 0 0x80000000) .SW_LIMIT (pc 0 1) 100
  { s with
    seam := { s.seam with slots := [(0, { slotReset with run := some xoffInv, active := ⟨[(0, endWord)], 0, 0⟩ })], bolts := [(0, some xoffBolt)] }
    bob := { s.bob with cellsUsed := 109 }
    fab := { s.fab with ports := [(0, xoffPort)], frames := List.replicate 3 xoffFrame } }

/-- What that END works on. -/
def xoffEnv : Env := ⟨0, xoffInv, 0, xoffBolt, stitchOf endWord⟩

/-- Every table of the state is in canonical form. -/
theorem xoffState_canon : Canon xoffState := by constructor <;> decide +kernel

/-- END may issue there. -/
theorem xoffState_issues : Issues xoffState 0 0 0x01 xoffEnv := by decide +kernel

/-- No resource is marked as limited before END. -/
theorem xoffState_unmarked : xoffState.obs.sat = [] := rfl

/-- END gives back a cell, the port's class is still at XOFF, and so XOFF leaves and the first resource of R461 is marked as limited. -/
theorem end_xoffState :
    (issueOp xoffState 0 0 0x01 none).outbox = [.pfc 0 1 0xFFFF] ∧ (issueOp xoffState 0 0 0x01 none).obs.sat = [(0, ⟨0, true⟩)] := by
  decide +kernel

/-- Refutes O48: in its clause on END of an ARRIVE invocation the parts that may change leave out the observation state.  Where the message
that END drops leaves its port at XOFF, END sends XOFF on TC1 and marks that resource as limited (R223, R228, R461). -/
theorem not_stitchesOnChunks : ¬ Obligations.StitchesOnChunks := by
  unfold Obligations.StitchesOnChunks
  rintro ⟨-, -, -, -, endOfArrive, -⟩
  obtain ⟨t, hexec, -, -, -, -, -, honly⟩ :=
    endOfArrive xoffState 0 0 xoffEnv xoffState_canon xoffState_issues rfl rfl rfl rfl (by decide +kernel) rfl
  obtain rfl : issueOp xoffState 0 0 0x01 none = t := by simpa [exec_stitchEnd] using hexec
  have hobs : (issueOp xoffState 0 0 0x01 none).obs = xoffState.obs := (honly .obs).resolve_left (by decide)
  have hsat := congrArg Obs.sat hobs
  rw [end_xoffState.2, xoffState_unmarked] at hsat
  cases hsat

end Sys2Proof.Machine
end

section

namespace Sys2Proof.Machine

/-! ### Tacks on circuits and control cells (R246, R331)

One equation of the command for each way a tack can go: its CRC does not match, it has been acted on, it passes the checks, it fails one.
The checks and the far end of the lane are read after the tack has been noted; noting it changes none of what they read. -/

/-- A receiver that takes tack words: aligned, enabled, its domain PD12 powered (R246). -/
structure RxListens (s : State) (n : Nat) : Prop where
  lt : n < 32
  aligned : (tackRx s n).aligned = true
  enabled : rxEn s n = true
  powered : domOn s 12 = true

/-- A channel whose control cells are taken: enabled, WORK or PROT of its line group, without a defect (R330, R334). -/
structure ChListens (s : State) (ch : Nat) : Prop where
  lt : ch < 64
  enabled : chEn s ch = true
  member : workCh s (chGroup s ch) = ch ∨ (protEn s (chGroup s ch) = true ∧ protCh s (chGroup s ch) = ch)
  sound : (lineCh s ch).defects = 0

/-- SRC and SEQ of a tack word. -/
abbrev tackKey (w : BitVec 256) : Nat × Nat := ((tackParse w).src.toNat, (tackParse w).seq.toNat)

/-- The state in which a receiver has noted a tack's SRC and SEQ. -/
abbrev rxNoted (s : State) (n : Nat) (w : BitVec 256) : State :=
  tackRxSet s n { tackRx s n with acted := actedNote (tackRx s n).acted (tackParse w).src.toNat (tackParse w).seq.toNat }

/-- The state in which a line group has noted a tack's SRC and SEQ. -/
abbrev grpNoted (s : State) (g : Nat) (w : BitVec 256) : State :=
  lineGrpSet s g { lineGrp s g with acted := actedNote (lineGrp s g).acted (tackParse w).src.toNat (tackParse w).seq.toNat }

/-- The state that a tack leaves which fails a check: noted, counted as a discarded one, its failure reported. -/
abbrev tackFailed (s : State) (n : Nat) (w : BitVec 256) : State :=
  raiseEv (discardCount (rxNoted s n w) (tackParse w).panel.toNat opcTack) .BAST_EVENT 0 1

/-- The parts of the state that such a tack reaches. -/
abbrev tackFailedParts : List Part := [.events, .irq, .outbox, .bast, .cco]

/-! #### What noting a tack leaves as it was -/

/-- The checks of a tack read nothing of the receivers. -/
theorem tackColl_tackRxSet (s : State) (n : Nat) (x : TackRx) (t : Tack) (site : Bool) :
    tackColl (tackRxSet s n x) t site = tackColl s t site := rfl

/-- The far end of a lane is read from registers. -/
theorem rxPeer_tackRxSet (s : State) (n : Nat) (x : TackRx) (m : Nat) : rxPeer (tackRxSet s n x) m = rxPeer s m := rfl

/-- The checks of a tack read nothing of the line groups. -/
theorem tackColl_lineGrpSet (s : State) (g : Nat) (x : LineGrp) (t : Tack) (site : Bool) :
    tackColl (lineGrpSet s g x) t site = tackColl s t site := rfl

/-- The site behind a line group is read from registers and the collective. -/
theorem groupSite_lineGrpSet (s : State) (g : Nat) (x : LineGrp) (c : Coll) (h : Nat) :
    groupSite (lineGrpSet s g x) c h = groupSite s c h := rfl

/-- The tack noted last is always listed. -/
theorem actedNote_ne_nil (l : List (Nat × Nat)) (src seq : Nat) : actedNote l src seq ≠ [] :=
  List.append_ne_nil_of_right_ne_nil _ (List.cons_ne_nil _ _)

/-- A receiver lists the tack it has noted, whatever the tables list. -/
theorem tackRx_rxNoted_acted (s : State) (n : Nat) (w : BitVec 256) :
    (tackRx (rxNoted s n w) n).acted = actedNote (tackRx s n).acted (tackParse w).src.toNat (tackParse w).seq.toNat :=
  congrArg TackRx.acted (tabGet_tabSet_ne _ _ _ fun h => actedNote_ne_nil _ _ _ (congrArg TackRx.acted h))

/-- An event leaves the receivers. -/
theorem tackRx_raiseEv (s : State) (r : Rid) (i b n : Nat) : tackRx (raiseEv s r i b) n = tackRx s n := by
  unfold tackRx
  rw [raiseEv_bast]

/-- A discarded message leaves the receivers. -/
theorem tackRx_discardCount (s : State) (p opc n : Nat) : tackRx (discardCount s p opc) n = tackRx s n := rfl

/-! #### What else changes -/

/-- Counting changes the counters. -/
theorem onlyChanges_ctrInc (s : State) (r : Rid) (i : Nat) : OnlyChanges [.counters] s (ctrInc s r i) := by
  intro p
  cases p <;> simp [Part.same, ctrInc]

/-- Noting a tack changes the basting cross-connect. -/
theorem onlyChanges_tackRxSet (s : State) (n : Nat) (x : TackRx) : OnlyChanges [.bast] s (tackRxSet s n x) := by
  intro p
  cases p <;> simp [Part.same, tackRxSet]

/-- Counting a discarded message changes the Coordinator. -/
theorem onlyChanges_discardCount (s : State) (p opc : Nat) : OnlyChanges [.cco] s (discardCount s p opc) := by
  intro q
  cases q <;> simp [Part.same, discardCount]

/-! #### TACK_WORD_RECEIVE -/

/-- A tack acted on before does nothing. -/
theorem exec_tackWordReceive_of_acted {s : State} {n : Nat} {w : BitVec 256} (hcrc : tackCrc w = (tackParse w).crc)
    (hacted : (tackRx s n).acted.contains (tackKey w) = true) : exec (.tackWordReceive n w) s = .next s := by
  simp only [exec, execTackWordReceive, hcrc, hacted, ne_eq, not_true_eq_false, or_true, if_true, if_false, ite_self]

section Word
variable {s : State} {n : Nat} {w : BitVec 256} (hl : RxListens s n)
include hl

/-- A word whose CRC does not match is counted. -/
theorem exec_tackWordReceive_of_badCrc (hcrc : tackCrc w ≠ (tackParse w).crc) :
    exec (.tackWordReceive n w) s = .next (ctrInc s .BAST_CNT_RX_CRC n) := by
  obtain ⟨hn, haligned, henabled, hpowered⟩ := hl
  simp [exec, execTackWordReceive, Nat.not_le.mpr hn, haligned, henabled, hpowered, hcrc]

variable (hcrc : tackCrc w = (tackParse w).crc) (htyp : (tackParse w).typ ≠ 0) (hnew : (tackRx s n).acted.contains (tackKey w) = false)
include hcrc htyp hnew

/-- A new tack that passes the checks is noted, counted and acts as its type says. -/
theorem exec_tackWordReceive_of_ok {c : Coll} (hcoll : tackColl s (tackParse w) false = .ok c) :
    exec (.tackWordReceive n w) s = .next (tackAct (ctrInc (rxNoted s n w) .BAST_CNT_RX n) c (tackParse w) (rxPeer s n)) := by
  obtain ⟨hn, haligned, henabled, hpowered⟩ := hl
  simp only [exec, execTackWordReceive, Nat.not_le.mpr hn, haligned, henabled, hpowered, hcrc, htyp, hnew, Bool.not_true, Bool.false_eq_true,
    ne_eq, not_true_eq_false, or_self, if_false, tackColl_tackRxSet, rxPeer_tackRxSet, hcoll, rxNoted]

/-- A new tack that fails a check is noted, counted as a discarded one, and its failure reported. -/
theorem exec_tackWordReceive_of_error {cause : Nat} (hcoll : tackColl s (tackParse w) false = .error cause) :
    exec (.tackWordReceive n w) s = .next (tackFailed s n w) := by
  obtain ⟨hn, haligned, henabled, hpowered⟩ := hl
  simp only [exec, execTackWordReceive, Nat.not_le.mpr hn, haligned, henabled, hpowered, hcrc, htyp, hnew, Bool.not_true, Bool.false_eq_true,
    ne_eq, not_true_eq_false, or_self, if_false, tackColl_tackRxSet, hcoll, tackFailed, rxNoted]

end Word

/-- A tack that fails a check is noted all the same, and BAST_EVENT bit 1 happens; only the parts listed change. -/
theorem tackFailed_effect (s : State) (n : Nat) (w : BitVec 256) :
    (tackRx (tackFailed s n w) n).acted = actedNote (tackRx s n).acted (tackParse w).src.toNat (tackParse w).seq.toNat ∧
    Happened s (tackFailed s n w) .BAST_EVENT 0 1 ∧ OnlyChanges tackFailedParts s (tackFailed s n w) := by
  refine ⟨?acted, happened_of_events rfl (happened_raiseEv _ _ _ (by decide)), ?frame⟩
  case acted => rw [tackRx_raiseEv, tackRx_discardCount, tackRx_rxNoted_acted]
  case frame =>
    have hnoted : OnlyChanges tackFailedParts s (rxNoted s n w) := (onlyChanges_tackRxSet s n _).mono (by decide)
    have hcounted : OnlyChanges tackFailedParts _ (discardCount (rxNoted s n w) (tackParse w).panel.toNat opcTack) :=
      (onlyChanges_discardCount _ _ _).mono (by decide)
    exact (hnoted.trans hcounted).trans ((onlyChanges_raiseEv _ _ _ _).mono (by decide))

/-! #### CONTROL_CELL_RECEIVE -/

/-- A tack that its line group has acted on does nothing, on either channel. -/
theorem exec_controlCellReceive_of_acted {s : State} {ch : Nat} {w : BitVec 256}
    (hacted : (lineGrp s (chGroup s ch)).acted.contains (tackKey w) = true) : exec (.controlCellReceive ch 1 w) s = .next s := by
  simp only [exec, execControlCellReceive, hacted, or_true, if_true, ite_self]

/-- A new tack between site roots that passes the checks is noted and acts as its type says, for the site behind its line group. -/
theorem exec_controlCellReceive_of_ok {s : State} {ch : Nat} {w : BitVec 256} {c : Coll} {j : Nat} (hl : ChListens s ch)
    (hcrc : tackCrc w = (tackParse w).crc) (htyp : (tackParse w).typ ≠ 0)
    (hnew : (lineGrp s (chGroup s ch)).acted.contains (tackKey w) = false) (hcoll : tackColl s (tackParse w) true = .ok c)
    (hsite : groupSite s c (chGroup s ch) = some j) :
    exec (.controlCellReceive ch 1 w) s = .next (siteTack (grpNoted s (chGroup s ch) w) c (tackParse w) j) := by
  obtain ⟨hch, henabled, hmember, hsound⟩ := hl
  have hmember : (workCh s (chGroup s ch) == ch || (protEn s (chGroup s ch) && protCh s (chGroup s ch) == ch)) = true := by simpa using hmember
  simp only [exec, execControlCellReceive, Nat.not_le.mpr hch, henabled, hmember, hsound, hcrc, htyp, hnew, Bool.not_true, Bool.false_eq_true,
    ne_eq, not_true_eq_false, or_self, if_false, tackColl_lineGrpSet, groupSite_lineGrpSet, hcoll, hsite]

/-! #### The statement -/

/-- The checks answer a collective when that is what is left of their outcome. -/
theorem eq_ok_of_toOption {ε α : Type} {x : Except ε α} {a : α} (h : x.toOption = some a) : x = .ok a := by
  cases x with
  | error e => cases h
  | ok b => exact congrArg _ (Option.some.inj h)

/-- The checks answer a cause when no collective is left of their outcome. -/
theorem exists_eq_error_of_toOption {ε α : Type} {x : Except ε α} (h : x.toOption = none) : ∃ e, x = .error e := by
  cases x with
  | error e => exact ⟨e, rfl⟩
  | ok b => cases h

/-- Settles O30: a tack word is checked by its CRC, acted on once per SRC and SEQ, and acts as its message does, from the equation of the
command in each of its cases. -/
theorem tackWords : Obligations.TackWords := by
  unfold Obligations.TackWords
  refine ⟨?badCrc, ?acted, ?ok, ?error, ?siteOk, ?siteActed⟩
  case badCrc =>
    intro s n w hcanon hn haligned henabled hpowered hcrc
    exact completes_of (exec_tackWordReceive_of_badCrc ⟨hn, haligned, henabled, hpowered⟩ hcrc)
      ⟨ctrGet_ctrAdd s hcanon .BAST_CNT_RX_CRC n 1, onlyChanges_ctrInc s .BAST_CNT_RX_CRC n⟩
  case acted =>
    intro s n w _ _ _ _ hcrc hacted
    exact completes_of (exec_tackWordReceive_of_acted hcrc hacted) rfl
  case ok =>
    intro s n w c hn haligned henabled hpowered hcrc htyp hnew hcoll
    exact completes_of
      (exec_tackWordReceive_of_ok ⟨hn, haligned, henabled, hpowered⟩ hcrc htyp hnew (eq_ok_of_toOption hcoll)) rfl
  case error =>
    intro s n w hn haligned henabled hpowered hcrc htyp hnew hcoll
    obtain ⟨cause, hcoll⟩ := exists_eq_error_of_toOption hcoll
    exact completes_of (exec_tackWordReceive_of_error ⟨hn, haligned, henabled, hpowered⟩ hcrc htyp hnew hcoll)
      (tackFailed_effect s n w)
  case siteOk =>
    intro s ch w c j hch henabled hmember hsound hcrc htyp hnew hcoll hsite
    exact completes_of
      (exec_controlCellReceive_of_ok ⟨hch, henabled, hmember, hsound⟩ hcrc htyp hnew (eq_ok_of_toOption hcoll) hsite) rfl
  case siteActed =>
    intro s ch w hacted
    exact completes_of (exec_controlCellReceive_of_acted hacted) rfl

end Sys2Proof.Machine
end

section

namespace Sys2Proof.Machine

/-! ### A returned block may have no codes

A block's codes enter DST (R198, R209).  The sparse table of an invocation's registers reads back a written value that is not the default; the
default reads back only from a table in canonical form, because writing it removes the first entry of the register.  The statement asks for
the canonical form of the state's own tables, not of the registers of a running invocation, and it bounds no codebook's DIM.  A DIM of 8, which
no LOAD leaves in a slot (R201), gives sub-vectors of 512 elements and so blocks without a code: DST is written with the default. -/

/-- The block that an encoder array returns for the request it works on (R208). -/
abbrev returnedBlock (s : State) (q : EncReq) : PleatOut := encodeBlock (cbGet s q.cb) q.ftz q.resFp32 q.vals

/-- The state in which the array has let go of the request and counted its block. -/
abbrev blockCounted (s : State) (k : Nat) : State :=
  ctrInc { s with plt := { s.plt with enc := s.plt.enc.eraseIdx k } } .PLT_CNT_ENC_BLK 0

/-- What an array that works on a request answers while PD17 is on. -/
theorem exec_pleatBlockReturn_of_request {s : State} {k : Nat} {q : EncReq} (hreq : s.plt.enc[k]? = some q) (hk : k < 16)
    (hpowered : domOn s 17 = true) :
    exec (.pleatBlockReturn k) s = .next (blockReturn (blockCounted s k) q (returnedBlock s q)) := by
  simp only [exec, execPleatBlockReturn, hreq, Nat.not_le.mpr hk, hpowered, Bool.not_true, Bool.false_eq_true, or_self, if_false]

/-- The values of V3 that its table lists second. -/
def shadowedReg : VReg := ⟨[5], []⟩

/-- An invocation that waits for one block whose codes enter V3; its table lists that register twice. -/
def twiceListedInv : Inv :=
  { xoffInv with v := [(3, ⟨[4], []⟩), (3, shadowedReg)], out := ⟨some 10, [], [], [], [none], []⟩, pend := [3], plt := 1 }

/-- Its request: a block of zeros under codebook 0. -/
def zerosReq : EncReq :=
  { slot := 0, inv := 0, panel := 0, cb := 0, ftz := false, dst := 3, place := 0, vals := List.replicate 256 (0, false), resFp32 := false,
    rem := none, vec := 0 }

/-- The request is the oldest of the queue, its invocation runs in slot 0 of engine 0, and codebook 0 has a DIM of 8. -/
def codelessState : State :=
  { State.reset with
    pwr := (List.range 24).map (fun d => (d, ⟨.on, 0, false, none⟩))
    seam := { State.reset.seam with slots := [(0, { slotReset with run := some twiceListedInv })], bolts := [(0, some xoffBolt)] }
    plt := { State.reset.plt with cbs := [(0, { cbReset with state := .valid, dim := 8 })], enc := [zerosReq] } }

/-- Every table that the statement speaks of is in canonical form. -/
theorem codelessState_canon : Canon codelessState := by constructor <;> decide +kernel

/-- The array takes the request: PD17 is on. -/
theorem codelessState_powered : domOn codelessState 17 = true := by decide +kernel

/-- The block has no codes. -/
theorem returnedBlock_codelessState : (returnedBlock codelessState zerosReq).bytes.drop 2 = [] := by decide +kernel

/-- Written with no codes, V3 reads as its table listed it second. -/
theorem blockReturn_codelessState :
    (runOf (blockReturn (blockCounted codelessState 0) zerosReq (returnedBlock codelessState zerosReq)) zerosReq.slot).map
      (invReg · zerosReq.dst) = some shadowedReg := by
  decide +kernel

/-- Refutes O54: in its clause on the return of a block to its invocation, DST need not read as the block's codes.  Under a codebook whose DIM
is 8 there are none, and where the invocation's table lists DST twice the values listed second are read in their place (R201, R209). -/
theorem not_pleatUnits : ¬ Obligations.PleatUnits := by
  unfold Obligations.PleatUnits
  rintro ⟨-, -, -, -, -, -, -, -, -, -, blockReturned, -⟩
  obtain ⟨t, hexec, ⟨⟨y, hrun, hdst, -⟩, -⟩, -⟩ :=
    blockReturned codelessState 0 zerosReq twiceListedInv xoffBolt codelessState_canon rfl (by decide) codelessState_powered rfl rfl rfl
  obtain rfl : blockReturn (blockCounted codelessState 0) zerosReq (returnedBlock codelessState zerosReq) = t := by
    simpa [exec_pleatBlockReturn_of_request (s := codelessState) (k := 0) rfl (by decide) codelessState_powered] using hexec
  have hempty : invReg y zerosReq.dst = ⟨[], []⟩ := by
    simpa only [returnedBlock_codelessState, List.map_nil] using hdst
  have hshadowed : invReg y zerosReq.dst = shadowedReg :=
    Option.some.inj ((congrArg (Option.map (invReg · zerosReq.dst)) hrun).symm.trans blockReturn_codelessState)
  cases hempty.symm.trans hshadowed

end Sys2Proof.Machine
end
